-- ==== Sys2Proof/Word.lean ====
section
/-!
DEFINITION. The word types of the machine and the sparse array in canonical form that every large
storage of the engine (hoops, fabric memory, stores, leaves, scale slots, ledger) is held in.
-/

namespace Sys2Proof

/-- One byte. -/
abbrev Byte := BitVec 8

/-- One 32-bit register or store word (R12). -/
abbrev Word := BitVec 32

/-- A sparse array: pairs of index and value, indices strictly rising, no value equal to the default
that an unlisted index reads as. -/
abbrev SMap (α : Type) := List (Nat × α)

/-- What index `k` holds; an unlisted index holds `d`. -/
def SMap.get {α : Type} (d : α) : SMap α → Nat → α
  | [], _ => d
  | (i, v) :: t, k => if i = k then v else if k < i then d else SMap.get d t k

/-- `m` with value `v` at index `k`, in canonical form for the default `d`. -/
def SMap.set {α : Type} [DecidableEq α] (d : α) (k : Nat) (v : α) : SMap α → SMap α
  | [] => if v = d then [] else [(k, v)]
  | (i, w) :: t =>
    if k < i then (if v = d then (i, w) :: t else (k, v) :: (i, w) :: t)
    else if k = i then (if v = d then t else (k, v) :: t)
    else (i, w) :: SMap.set d k v t

/-- The canonical form: indices strictly above `lo` rise strictly and no entry holds the default. -/
def SMap.wfFrom {α : Type} [DecidableEq α] (d : α) : Option Nat → SMap α → Bool
  | _, [] => true
  | lo, (i, v) :: t =>
    (match lo with | none => true | some l => decide (l < i)) && decide (v ≠ d) && SMap.wfFrom d (some i) t

/-- The canonical form of a sparse array with default `d`. -/
def SMap.wf {α : Type} [DecidableEq α] (d : α) (m : SMap α) : Bool := SMap.wfFrom d none m

end Sys2Proof
end

