-- ==== Sys2Proof/Syntax.lean ====
section
/-!
DEFINITION. The commands of the block: one constructor of `Instr` per row of the opcode table, and
the bundle with its four slots, field by field (R79, R88, R89, R96, R100, R105).
-/

namespace Sys2Proof

/-- One cell of the V0 chain (R89). -/
structure Cell where
  op : BitVec 4
  fn : BitVec 3
  ys : BitVec 2
  zs : BitVec 2
deriving DecidableEq, Repr

/-- The V0 slot (R88); `mp` is bundle bit 255 (R81). -/
structure V0Slot where
  mp : BitVec 1
  km : BitVec 3
  kd : BitVec 3
  dcls : BitVec 2
  rm : BitVec 2
  wide : BitVec 1
  dfmt : BitVec 4
  cfmt : BitVec 4
  sfmt : BitVec 4
  d : BitVec 8
  c : BitVec 8
  b : BitVec 8
  a : BitVec 8
  rsv : BitVec 1
  cell3 : Cell
  cell2 : Cell
  cell1 : Cell
  major : BitVec 6
deriving DecidableEq, Repr

/-- The V1 slot (R96). -/
structure V1Slot where
  rsv : BitVec 4
  fn : BitVec 8
  ts : BitVec 4
  aux : BitVec 3
  km : BitVec 3
  rm : BitVec 2
  dcls : BitVec 2
  dfmt : BitVec 4
  sfmt : BitVec 4
  dst : BitVec 8
  src2 : BitVec 8
  src1 : BitVec 8
  major : BitVec 6
deriving DecidableEq, Repr

/-- The M slot (R100). -/
structure MSlot where
  rsv : BitVec 14
  imm : BitVec 8
  sreg : BitVec 5
  xs : BitVec 8
  km : BitVec 3
  pi : BitVec 1
  mfmt : BitVec 4
  esr : BitVec 3
  dsc : BitVec 4
  hs : BitVec 8
  major : BitVec 6
deriving DecidableEq, Repr

/-- The S slot (R105). -/
structure SSlot where
  imm : BitVec 11
  sb : BitVec 5
  sa : BitVec 5
  sd : BitVec 5
  major : BitVec 6
deriving DecidableEq, Repr

/-- A bundle of four slots (R79). -/
structure Bundle where
  v0 : V0Slot
  v1 : V1Slot
  m : MSlot
  s : SSlot
deriving DecidableEq, Repr

/-- The two instruction streams: the main program and the active edging run (R251). -/
inductive Stream where
  | main
  | edge
deriving DecidableEq, Repr

/-- A bundle that a stream offers for issue. -/
structure Issue where
  stream : Stream
  bundle : Bundle
deriving DecidableEq, Repr

/-- Who makes an MMIO access (R422): the host, control core d, or another control core. -/
inductive Writer where
  | host
  | coreD
  | otherCore
deriving DecidableEq, Repr

/-- An access to a DATA register (R424). -/
inductive Access where
  | read
  | write (w : Writer) (v : Word)
deriving DecidableEq, Repr

/-- One lane error: the slot whose checker found it (0 V0, 1 V1, 2 M, 3 S) and the physical panel,
31 for the scalar unit (R324, R454). -/
structure LaneErr where
  slot : BitVec 2
  panel : BitVec 5
deriving DecidableEq, Repr

/-- What a verdict is about (R382). -/
inductive MeasTarget where
  | leaf (slot : BitVec 4) (b : Bool)
  | store
deriving DecidableEq, Repr

/-- The partners of R266 on the package; `me` is the own matrix engine, or the foreign one that ME_SRC
names. -/
inductive Partner where
  | me (own : Bool)
  | core
  | sram (die : BitVec 2)
  | dram
deriving DecidableEq, Repr

/-- The ports that a roll call probes (R266, R268). -/
inductive Probe where
  | accPort
  | bobbin
  | core
  | sram (die : BitVec 2)
  | dram
deriving DecidableEq, Repr

/-- A mark frame of the step clock (R312). -/
structure Frame where
  step : BitVec 48
  code : BitVec 4
  seq : BitVec 8
  crc : BitVec 8
deriving DecidableEq, Repr

/-- A network record as it crosses the port (R281): 16 header words, 4,096 encrypted bytes, the tag. -/
structure WireRec where
  hdr : List Word
  body : List Byte
  tag : BitVec 128
deriving DecidableEq, Repr

/-- The size of an MMIO access: only an aligned 32-bit word is an access to a register (R12). -/
inductive AccSize where
  | word
  | other
deriving DecidableEq, Repr

/-- What a common read asks of its page: the offset and the size of the access (R12). -/
structure ReadPlace where
  off : BitVec 12
  size : AccSize
deriving DecidableEq, Repr

/-- The commands: one constructor per row of the opcode table, in the table's order. -/
inductive Instr where
  | nop (i : Issue)
  | chain (i : Issue)
  | func (i : Issue)
  | gact (i : Issue)
  | cvt (i : Issue)
  | red (i : Issue)
  | scan (i : Issue)
  | lscan (i : Issue)
  | perm (i : Issue)
  | xpose (i : Issue)
  | cprs (i : Issue)
  | expd (i : Issue)
  | tsel (i : Issue)
  | gcmp (i : Issue)
  | gdec (i : Issue)
  | upd (i : Issue)
  | ld (i : Issue)
  | st (i : Issue)
  | gather (i : Issue)
  | scatter (i : Issue)
  | mova (i : Issue)
  | popq (i : Issue)
  | nsend (i : Issue)
  | nrecv (i : Issue)
  | movs (i : Issue)
  | gets (i : Issue)
  | kst (i : Issue)
  | kld (i : Issue)
  | tbld (i : Issue)
  | tbswap (i : Issue)
  | scld (i : Issue)
  | scst (i : Issue)
  | lgst (i : Issue)
  | lgld (i : Issue)
  | pref (i : Issue)
  | fencem (i : Issue)
  | addi (i : Issue)
  | add (i : Issue)
  | sub (i : Issue)
  | mul (i : Issue)
  | and (i : Issue)
  | or (i : Issue)
  | xor (i : Issue)
  | shli (i : Issue)
  | shri (i : Issue)
  | sari (i : Issue)
  | shin (i : Issue)
  | fadd (i : Issue)
  | fmul (i : Issue)
  | setvl (i : Issue)
  | setrow (i : Issue)
  | setes (i : Issue)
  | setd (i : Issue)
  | settw (i : Issue)
  | rdvl (i : Issue)
  | jmp (i : Issue)
  | loop (i : Issue)
  | wait (i : Issue)
  | waitEnd (st : Stream)
  | waitTimeout (st : Stream)
  | picot (i : Issue)
  | picotPost
  | waitdir (i : Issue)
  | dirTimeout
  | setent (i : Issue)
  | halt (i : Issue)
  | issueStop
  | fabricTransferDone
  /-- `arrived`: bit i is set when element i's data had arrived, or its store had been made (R278). -/
  | fabricTimeout (arrived : Nat)
  | sendTimeout
  | recvTimeout (i : Issue)
  | popqTimeout (i : Issue)
  /-- `handed`: the bundle's M transfer had been handed to its port before the error (R326). -/
  | laneError (i : Issue) (errs : List LaneErr) (handed : Bool)
  | retryReexecute
  /-- `pass16`, `pass17`: the short pattern of R332 step 2 passes on physical panel 16, 17. -/
  | darningDone (pass16 pass17 : Bool)
  | slabSpareInDone
  | leafRepairDone
  | proofingDone (bad16 bad17 : Bool) (badSlabs : BitVec 6)
  | stagedDarningDone
  | scrubSlab (hoop : BitVec 3)
  | commitWalk
  | commitWalkEnd
  | snapshotDone
  | tbldDone
  | verdict (t : MeasTarget) (favourable : Bool)
  | verdictTimeout (t : MeasTarget)
  | swapTakesEffect (slot : BitVec 4)
  | partnerChangeEvent (p : Partner)
  | reachabilityNotice (package : BitVec 15) (reachable : Bool)
  | probeTimeout (p : Probe)
  | rollCallPublish
  | couplingChange
  /-- `tile`: pairs of element number 0 to 16,383 and F32 pattern; an unlisted element is +0 (R271). -/
  | tileCompletion (tag : Word) (stream : BitVec 16) (tile : List (Nat × Word))
  | edgingRunStart
  | edgingRunEnd
  | completionRunStart
  | edgingOverrun
  | maskRequest (m : BitVec 2) (row : Word) (col : Word)
  | recordVerified (r : WireRec)
  | mirrorLogWriteDone
  | mirrorAck (mseq : Word)
  | ackTimeout (mseq : Word)
  | mirrorSend
  | descSendTimer
  | mirrorFlushDone
  | baseCopyDone
  | restoreDone
  | mirrorFoldDone
  | stepOpen (f : Frame)
  | fwd (f : Frame)
  | bwd (f : Frame)
  | exch (f : Frame)
  | update (f : Frame)
  | guardFreeze
  | commit (f : Frame)
  | abort (f : Frame)
  | idle (f : Frame)
  | userMark (f : Frame)
  | clockQuiet
  | prickingStart (entry : BitVec 6)
  | directionWord (word : Word)
  | keyLoad (slot : BitVec 2) (key : BitVec 256)
  | sealedModeAssert
  | unsealRefused
  | pwrReset
  | pkgReset
  | resetComplete
  | pipeFault
  | restitchDone
  | restTransitionDone
  | go (w : Writer)
  | stop (w : Writer)
  | blkReset (w : Writer)
  /-- `sameCycle`: the control port delivers a word in the same lane cycle (R25). -/
  | dirword (w : Writer) (word : Word) (sameCycle : Bool)
  | pstoreData (a : Access)
  | vl (w : Writer) (v : Word)
  | rowshape (w : Writer) (v : Word)
  /-- `ctl`: the write is to CY_CTL, otherwise to CY_VALUE (R429). -/
  | cyValue (w : Writer) (c : BitVec 2) (ctl : Bool) (v : Word)
  | hoopData (a : Access)
  | leafData
  | swap (w : Writer) (slot : BitVec 4)
  | slotCtl (w : Writer) (v : Word)
  | slotEst (w : Writer) (v : Word)
  | slotAge (w : Writer) (v : Word)
  /-- `k`: word 0 to 3, S0_LO to S1_HI (R436). -/
  | liveSeedWrite (w : Writer) (k : BitVec 2) (v : Word)
  | stagedSeedWrite (w : Writer) (k : BitVec 2) (v : Word)
  | twistStepWrite (w : Writer) (hi : Bool) (v : Word)
  | bCtl (w : Writer) (b : BitVec 3) (v : Word)
  | estoreData (a : Access)
  | release (w : Writer) (bank : BitVec 1)
  | ledgerRelease (bank : BitVec 1)
  | ledgerData
  | rollcall (w : Writer)
  | accPortEn (w : Writer) (v : Bool)
  | queueUse (w : Writer) (v : Bool)
  /-- `present`, `serving`: the package's answer about the named engine (R276). -/
  | bindMe (w : Writer) (v : Word) (present serving : Bool)
  | bindBuddy (w : Writer) (v : Word)
  | reachData
  | rx (w : Writer) (v : Word)
  | planSrc (w : Writer) (entry : BitVec 6) (v : Word)
  | rejoin (w : Writer)
  | foldRequest (w : Writer)
  | restore (w : Writer)
  | basecopy (w : Writer)
  | flush (w : Writer)
  /-- `img`: the IMG table, otherwise the OWN table (R447). -/
  | rCtl (w : Writer) (img : Bool) (entry : BitVec 4) (v : Word)
  | entryCtl (w : Writer) (entry : BitVec 6) (v : Word)
  | proof (w : Writer) (arg : BitVec 2)
  | measureEdge (w : Writer)
  | guardSet (w : Writer)
  | restitch (w : Writer)
  | darnApply (w : Writer)
  | snap (w : Writer)
  | cntClear (w : Writer)
  | darnLog
  | stageData (a : Access)
  | restCtrl (w : Writer) (req : BitVec 2)
  | enable (w : Writer) (v : Bool)
  | localMarks (w : Writer) (v : Bool)
  | injGo (w : Writer)
  | injLane (w : Writer) (v : Word)
  | localMarkHi (w : Writer) (v : Word)
  | pageLock (w : Writer) (page : BitVec 4) (v : Word)
  | registerWrite (w : Writer) (page : BitVec 4) (off : BitVec 12) (size : AccSize) (v : Word)
  | outboundCredit (package : BitVec 15) (count : Nat)
  | recordLeavesPort
  | mailboxEntryConsumed
  | registerPairRead (page : BitVec 4) (place : ReadPlace)
  | measurementStreamEnd
  | coreRailPowerLoss
deriving DecidableEq, Repr

end Sys2Proof
end

