-- ==== Sys2Proof/Machine/Num.lean ====
section
/-!
DEFINITION. Exact values and roundings: the value of every code of every format (R120, R128, R132),
the rounding functions of R129, R142, R143 and R190, the truncated product of R146, and the record of
what an operation raises (R156).
-/

namespace Sys2Proof.Machine

/-- An exact value: NaN, an infinity code, or (−1)^neg × mag × 2^exp with nothing rounded. -/
inductive Num where
  | nan
  | inf (neg : Bool)
  | fin (neg : Bool) (mag : Nat) (exp : Int)
deriving DecidableEq, Repr

/-- What operations raise: the four flags of R156, saturations (R144) and vanishings (R192). -/
structure Raises where
  ovf : Bool := false
  unf : Bool := false
  nx : Bool := false
  nv : Bool := false
  sat : Nat := 0
  van : Nat := 0
deriving DecidableEq, Repr

/-- Nothing raised. -/
def Raises.none : Raises := {}

/-- Flags combine by OR and counts add (R158). -/
def Raises.add (a b : Raises) : Raises :=
  { ovf := a.ovf || b.ovf, unf := a.unf || b.unf, nx := a.nx || b.nx, nv := a.nv || b.nv
    sat := a.sat + b.sat, van := a.van + b.van }

/-- A NaN produced (R156). -/
def Raises.invalid : Raises := { nv := true }

/-- A gate replacement of an infinity (R125). -/
def Raises.gate : Raises := { ovf := true, sat := 1 }

/-- A saturating rounding (R142, R143). -/
def Raises.saturate : Raises := { ovf := true, nx := true, sat := 1 }

/-- A value together with what forming it raised. -/
structure Res (α : Type) where
  val : α
  r : Raises
deriving DecidableEq, Repr

/-- A value that raised nothing. -/
def Res.pure {α : Type} (a : α) : Res α := ⟨a, Raises.none⟩

/-- One operation after another; the raises combine. -/
def Res.bind {α β : Type} (x : Res α) (f : α → Res β) : Res β :=
  let y := f x.val
  ⟨y.val, x.r.add y.r⟩

/-- A function applied to the value. -/
def Res.map {α β : Type} (f : α → β) (x : Res α) : Res β := ⟨f x.val, x.r⟩

/-- The rounding of one value: to nearest even, toward zero, or stochastic with the draw `u` (R164). -/
inductive Rnd where
  | rne
  | rz
  | sr (u : BitVec 16)
deriving DecidableEq, Repr

/-- The element types of MX blocks (R120). -/
inductive MxElt where
  | e4m3
  | e5m2
  | e3m2
  | e2m3
  | e2m1
  | int8
deriving DecidableEq, Repr

/-- The formats of R85. -/
inductive Fmt where
  | f32
  | bf16
  | f16
  | e4m3
  | e5m2
  | int8
  | int16
  | int32
  | e10m21
  | mx (t : MxElt)
deriving DecidableEq, Repr

/-- The format that a 4-bit code names; code 0xF is reserved (R85). -/
def Fmt.ofCode (c : BitVec 4) : Option Fmt :=
  match c.toNat with
  | 0 => some .f32
  | 1 => some .bf16
  | 2 => some .f16
  | 3 => some .e4m3
  | 4 => some .e5m2
  | 5 => some .int8
  | 6 => some .int16
  | 7 => some .int32
  | 8 => some .e10m21
  | 9 => some (.mx .e4m3)
  | 10 => some (.mx .e5m2)
  | 11 => some (.mx .e3m2)
  | 12 => some (.mx .e2m3)
  | 13 => some (.mx .e2m1)
  | 14 => some (.mx .int8)
  | _ => none

/-- Width of one element in a hoop, in bytes (R48, R50, R120). -/
def Fmt.bytes : Fmt → Nat
  | .f32 | .int32 | .e10m21 => 4
  | .bf16 | .f16 | .int16 => 2
  | .e4m3 | .e5m2 | .int8 | .mx _ => 1

/-- The integer formats. -/
def Fmt.isInt : Fmt → Bool
  | .int8 | .int16 | .int32 => true
  | _ => false

/-- The MX formats. -/
def Fmt.isMx : Fmt → Bool
  | .mx _ => true
  | _ => false

/-- The standalone floating-point formats. -/
def Fmt.isFloat (f : Fmt) : Bool := !f.isInt && !f.isMx

/-- A floating-point layout with subnormals (R120, R142): exponent bits, fraction bits, bias, largest
finite code, and whether the top exponent holds infinity and NaNs (IEEE style). -/
structure FpFmt where
  ebits : Nat
  mbits : Nat
  bias : Nat
  maxCode : Nat
  ieee : Bool
deriving DecidableEq, Repr

def fpF32 : FpFmt := ⟨8, 23, 127, 0x7F7FFFFF, true⟩
def fpBf16 : FpFmt := ⟨8, 7, 127, 0x7F7F, true⟩
def fpF16 : FpFmt := ⟨5, 10, 15, 0x7BFF, true⟩
def fpE4m3 : FpFmt := ⟨4, 3, 7, 0x7E, false⟩
def fpE5m2 : FpFmt := ⟨5, 2, 15, 0x7B, true⟩
def fpE3m2 : FpFmt := ⟨3, 2, 3, 0x1F, false⟩
def fpE2m3 : FpFmt := ⟨2, 3, 1, 0x1F, false⟩
def fpE2m1 : FpFmt := ⟨2, 1, 1, 0x7, false⟩

/-- The layout of a floating-point format other than E10M21. -/
def Fmt.fp : Fmt → FpFmt
  | .bf16 => fpBf16
  | .f16 => fpF16
  | .e4m3 => fpE4m3
  | .e5m2 => fpE5m2
  | _ => fpF32

/-- The layout of an MX element type other than MXINT8. -/
def MxElt.fp : MxElt → FpFmt
  | .e4m3 => fpE4m3
  | .e5m2 => fpE5m2
  | .e3m2 => fpE3m2
  | .e2m3 => fpE2m3
  | .e2m1 => fpE2m1
  | .int8 => fpE4m3

/-- Width of an MX element in packed memory, in bits (R135). -/
def MxElt.bits : MxElt → Nat
  | .e4m3 | .e5m2 | .int8 => 8
  | .e3m2 | .e2m3 => 6
  | .e2m1 => 4

/-- The exact value of a code of layout `F` (R120): infinities and NaNs of IEEE style, the two NaN codes
of E4M3, and normal and subnormal values. -/
def FpFmt.value (F : FpFmt) (code : Nat) : Num :=
  let s := code.testBit (F.ebits + F.mbits)
  let e := (code >>> F.mbits) % 2 ^ F.ebits
  let f := code % 2 ^ F.mbits
  if F.ieee && e == 2 ^ F.ebits - 1 then (if f = 0 then .inf s else .nan)
  else if !F.ieee && e * 2 ^ F.mbits + f > F.maxCode then .nan
  else if e = 0 then .fin s f (1 - (F.bias : Int) - F.mbits)
  else .fin s (2 ^ F.mbits + f) ((e : Int) - F.bias - F.mbits)

/-- The exact value of an E10M21 code (R128): no subnormals and no infinity. -/
def e10Value (code : Nat) : Num :=
  let s := code.testBit 31
  let e := (code >>> 21) % 1024
  let f := code % 2 ^ 21
  if e = 1023 then .nan
  else if e = 0 && f = 0 then .fin s 0 0
  else .fin s (2 ^ 21 + f) ((e : Int) - 511 - 21)

/-- The two's complement value of the low `bits` bits. -/
def signedValue (bits code : Nat) : Int :=
  let c := code % 2 ^ bits
  if c < 2 ^ (bits - 1) then (c : Int) else (c : Int) - 2 ^ bits

/-- An integer as an exact value. -/
def Num.ofInt (i : Int) : Num := .fin (i < 0) i.natAbs 0

/-- The exact value of a code of a format other than MX. -/
def Fmt.value (f : Fmt) (code : Nat) : Num :=
  match f with
  | .e10m21 => e10Value code
  | .int8 => .ofInt (signedValue 8 code)
  | .int16 => .ofInt (signedValue 16 code)
  | .int32 => .ofInt (signedValue 32 code)
  | .mx _ => .nan
  | g => g.fp.value code

/-- The exact value P of an MX element code (R120, R134: bits above the element width are ignored). -/
def MxElt.value (t : MxElt) (code : Nat) : Num :=
  match t with
  | .int8 =>
    let i := signedValue 8 code
    .fin (i < 0) i.natAbs (-6)
  | _ => t.fp.value (code % 2 ^ t.bits)

/-- The canonical NaN of a format (R123); an integer destination receives 0 (R124). -/
def Fmt.nanCode : Fmt → Nat
  | .f32 => 0x7FC00000
  | .bf16 => 0x7FC0
  | .f16 => 0x7E00
  | .e4m3 => 0x7F
  | .e5m2 => 0x7E
  | .e10m21 => 0x7FF00000
  | _ => 0

/-- floor(log2) of a nonzero exact magnitude. -/
def floorLog2 (mag : Nat) (exp : Int) : Int := (Nat.log2 mag : Int) + exp

/-- ceil(log2) of a nonzero exact magnitude (R175): exact powers of two keep their exponent. -/
def ceilLog2 (mag : Nat) (exp : Int) : Int :=
  if mag = 2 ^ Nat.log2 mag then floorLog2 mag exp else floorLog2 mag exp + 1

/-- A magnitude at weight 2^q, rounded to an integer: the integer and whether it is exact. Values far
below the weight are settled without forming the shift: they round to 0 in every mode. -/
def roundWeight (mag : Nat) (exp q : Int) (m : Rnd) : Nat × Bool :=
  if mag = 0 then (0, true)
  else if q ≤ exp then (mag <<< (exp - q).toNat, true)
  else
    let d := (q - exp).toNat
    if Nat.log2 mag + 20 < d then (0, false)
    else
      let fl := mag >>> d
      let rem := mag % 2 ^ d
      if rem = 0 then (fl, true)
      else
        match m with
        | .rne => (if 2 * rem > 2 ^ d || (2 * rem == 2 ^ d && fl % 2 == 1) then fl + 1 else fl, false)
        | .rz => (fl, false)
        | .sr u => ((mag * 2 ^ 16 + u.toNat * 2 ^ d) >>> (d + 16), false)

/-- Rounding to a floating-point layout (R142). NaN must have been settled before; an infinity does not
occur after the gate. -/
def roundFp (F : FpFmt) (x : Num) (m : Rnd) : Res Nat :=
  match x with
  | .fin s mag exp =>
    let sb := if s then 2 ^ (F.ebits + F.mbits) else 0
    if mag = 0 then .pure sb
    else
      let k := floorLog2 mag exp
      let emin : Int := 1 - (F.bias : Int)
      if k > (2 ^ F.ebits : Nat) then ⟨sb + F.maxCode, .saturate⟩
      else
        let q := max k emin - F.mbits
        let (r, exact) := roundWeight mag exp q m
        let code := (q + F.mbits + F.bias - 1).toNat * 2 ^ F.mbits + r
        if code > F.maxCode then ⟨sb + F.maxCode, .saturate⟩
        else ⟨sb + code, { nx := !exact, unf := r == 0 }⟩
  | _ => .pure 0

/-- Rounding to E10M21 (R129). -/
def roundE10 (x : Num) (m : Rnd) : Res Nat :=
  match x with
  | .fin s mag exp =>
    let sb := if s then 2 ^ 31 else 0
    if mag = 0 then .pure sb
    else
      let k := floorLog2 mag exp
      if k > 511 then ⟨sb + 0x7FDFFFFF, .saturate⟩
      else
        let (r, exact) := roundWeight mag exp (k - 21) m
        let code : Int := (k + 511) * 2 ^ 21 + ((r : Int) - 2 ^ 21)
        if code > 0x7FDFFFFF then ⟨sb + 0x7FDFFFFF, .saturate⟩
        else if code ≤ 0 then ⟨sb, { unf := true, nx := true }⟩
        else ⟨sb + code.toNat, { nx := !exact }⟩
  | _ => .pure 0

/-- An integer saturated to `bits` bits, as its two's complement pattern (R131). -/
def satInt (bits : Nat) (i : Int) : Res Nat :=
  if i > 2 ^ (bits - 1) - 1 then ⟨2 ^ (bits - 1) - 1, .saturate⟩
  else if i < -(2 ^ (bits - 1)) then ⟨2 ^ (bits - 1), .saturate⟩
  else .pure (i % 2 ^ bits).toNat

/-- Rounding to an integer format at weight 1 (R143). -/
def roundInt (bits : Nat) (x : Num) (m : Rnd) : Res Nat :=
  match x with
  | .fin s mag exp =>
    if floorLog2 mag exp > 64 && mag != 0 then
      ⟨if s then 2 ^ (bits - 1) else 2 ^ (bits - 1) - 1, .saturate⟩
    else
      let (r, exact) := roundWeight mag exp 0 m
      let y := satInt bits (if s then -(r : Int) else r)
      if y.r.ovf then y else ⟨y.val, { nx := !exact }⟩
  | _ => .pure 0

/-- The one rounding to a destination format (R160); a NaN is written canonical, or as 0 to an integer,
with NV (R123, R124, R156). -/
def Fmt.round (f : Fmt) (x : Num) (m : Rnd) : Res Nat :=
  match x with
  | .nan => ⟨f.nanCode, .invalid⟩
  | _ =>
    match f with
    | .e10m21 => roundE10 x m
    | .int8 => roundInt 8 x m
    | .int16 => roundInt 16 x m
    | .int32 => roundInt 32 x m
    | .mx _ => .pure 0
    | g => roundFp g.fp x m

/-- Rounding to an MX element code (R190 to R193); NaN blocks are settled by the caller. A nonzero value
that becomes zero raises UF and NX and is one vanish. -/
def MxElt.round (t : MxElt) (x : Num) (m : Rnd) : Res Nat :=
  match x with
  | .fin s mag exp =>
    match t with
    | .int8 =>
      if mag = 0 then .pure 0
      else if floorLog2 mag exp > 8 then ⟨if s then 0x80 else 0x7F, .saturate⟩
      else
        let (r, exact) := roundWeight mag exp (-6) m
        if r = 0 then ⟨0, { unf := true, nx := true, van := 1 }⟩
        else
          let y := satInt 8 (if s then -(r : Int) else r)
          if y.r.ovf then y else ⟨y.val, { nx := !exact }⟩
    | _ =>
      let y := roundFp t.fp x m
      if mag != 0 && y.r.unf then ⟨y.val, { y.r with van := 1 }⟩ else y
  | _ => .pure 0

/-- The largest finite value of a format, with the sign of the infinity it replaces (R125). -/
def Fmt.maxCode (f : Fmt) (neg : Bool) : Nat :=
  match f with
  | .e10m21 => (if neg then 2 ^ 31 else 0) + 0x7FDFFFFF
  | .int8 => if neg then 0x80 else 0x7F
  | .int16 => if neg then 0x8000 else 0x7FFF
  | .int32 => if neg then 0x80000000 else 0x7FFFFFFF
  | .mx _ => 0
  | g => (if neg then 2 ^ (g.fp.ebits + g.fp.mbits) else 0) + g.fp.maxCode

/-- The operand gate on one code (R125): an infinity becomes the largest finite value of its sign. -/
def Fmt.gate (f : Fmt) (code : Nat) : Res Nat :=
  match f.value code with
  | .inf s => ⟨f.maxCode s, .gate⟩
  | _ => .pure code

/-- The exact product. -/
def Num.mul : Num → Num → Num
  | .fin s a x, .fin t b y => .fin (s != t) (a * b) (x + y)
  | _, _ => .nan

/-- The exact negation. -/
def Num.neg : Num → Num
  | .fin s a x => .fin (!s) a x
  | .inf s => .inf (!s)
  | .nan => .nan

/-- The exact magnitude. -/
def Num.abs : Num → Num
  | .fin _ a x => .fin false a x
  | .inf _ => .inf false
  | .nan => .nan

/-- The value times 2^k, exactly. -/
def Num.scale (k : Int) : Num → Num
  | .fin s a x => .fin s a (x + k)
  | n => n

/-- The signed integer of a value at weight 2^e, for e at most its exponent. -/
def Num.intAt (e : Int) : Num → Int
  | .fin s a x =>
    let n : Int := (a <<< (x - e).toNat : Nat)
    if s then -n else n
  | _ => 0

/-- Whether a value is negative in sign, zeros and NaN included as coded. -/
def Num.isNeg : Num → Bool
  | .fin s _ _ => s
  | .inf s => s
  | .nan => false

/-- Whether a value is NaN. -/
def Num.isNan : Num → Bool
  | .nan => true
  | _ => false

/-- Whether a value is zero of either sign. -/
def Num.isZero : Num → Bool
  | .fin _ 0 _ => true
  | _ => false

/-- The exact sum, with the sign of an exact zero of R148. Operands more than 2^16 binades apart occur in
no format of R120; the exponents here stay small. -/
def Num.add : Num → Num → Num
  | .fin s a x, .fin t b y =>
    if a = 0 && b = 0 then .fin (s && t) 0 0
    else if a = 0 then .fin t b y
    else if b = 0 then .fin s a x
    else
      let e := min x y
      let n := (Num.fin s a x).intAt e + (Num.fin t b y).intAt e
      .fin (n < 0) n.natAbs e
  | _, _ => .nan

/-- The exact difference. -/
def Num.sub (a b : Num) : Num := a.add b.neg

/-- Exact order of two magnitudes a × 2^x and b × 2^y, by binade first, so that far apart values need no
shift. -/
def magLt (a : Nat) (x : Int) (b : Nat) (y : Int) : Bool :=
  if b = 0 then false
  else if a = 0 then true
  else if floorLog2 a x < floorLog2 b y then true
  else if floorLog2 b y < floorLog2 a x then false
  else
    let e := min x y
    a <<< (x - e).toNat < b <<< (y - e).toNat

/-- Exact comparison by value, −0 equal to +0: less than. NaN is never less. -/
def Num.lt : Num → Num → Bool
  | .fin s a x, .fin t b y =>
    match s && a != 0, t && b != 0 with
    | false, false => magLt a x b y
    | true, true => magLt b y a x
    | true, false => true
    | false, true => false
  | _, _ => false

/-- Exact equality by value. -/
def Num.eqv : Num → Num → Bool
  | .fin s a x, .fin t b y => !(Num.fin s a x).lt (.fin t b y) && !(Num.fin t b y).lt (.fin s a x)
  | _, _ => false

/-- Less than or equal by value. -/
def Num.le (a b : Num) : Bool := a.lt b || a.eqv b

/-- The exact maximum of magnitudes that are not NaN; NaN is skipped. -/
def Num.maxAbs (a b : Num) : Num :=
  match b with
  | .nan => a
  | _ =>
    match a with
    | .nan => b.abs
    | _ => if a.lt b.abs then b.abs else a

/-- floor of a finite value (toward −∞). -/
def Num.floor : Num → Int
  | .fin s a x =>
    if 0 ≤ x then (if s then -((a <<< x.toNat : Nat) : Int) else ((a <<< x.toNat : Nat) : Int))
    else
      let d := (-x).toNat
      if Nat.log2 a < d then (if s && a != 0 then -1 else 0)
      else
      let fl : Int := ((a >>> d : Nat) : Int)
      if s then (if a % 2 ^ d = 0 then -fl else -fl - 1) else fl
  | _ => 0

/-- The significand integer and exponent of a nonzero F32 code (R146). -/
def sigF32 (code : Nat) : Nat × Int :=
  let e := (code >>> 23) % 256
  let f := code % 2 ^ 23
  ((if e = 0 then f else 2 ^ 23 + f), ((max e 1 : Nat) : Int) - 127 - 23)

/-- The significand integer and exponent of an E10M21 code (R146); zero gives significand 0. -/
def sigE10 (code : Nat) : Nat × Int :=
  let e := (code >>> 21) % 1024
  let f := code % 2 ^ 21
  (if e = 0 && f = 0 then 0 else (2 ^ 21 + f) * 4, (e : Int) - 511 - 23)

/-- The truncated array (R146): every partial-product bit of a column below 17 is discarded. -/
def truncProduct (ma mb : Nat) : Nat :=
  (List.range 24).foldl
    (fun t j => if mb.testBit j then t + ((ma >>> (17 - j)) <<< (17 - j)) <<< j else t) 0

end Sys2Proof.Machine
end

