-- ==== Sys2Proof/Machine/Lane.lean ====
section
/-!
DEFINITION. Lane arithmetic: the three computation formats, the cells of the V0 chain (R89 to R95,
R145 to R151), the fixed reduction tree (R153 to R155), the prefix structure (R226 to R229), and the
twist function (R165).
-/

namespace Sys2Proof.Machine

/-- The computation formats of a lane (06_lane_arithmetic). -/
inductive CF where
  | f32
  | e10
  | i32
deriving DecidableEq, Repr

/-- The format code of a computation format. -/
def CF.fmt : CF → Fmt
  | .f32 => .f32
  | .e10 => .e10m21
  | .i32 => .int32

/-- Whether the computation format is INT32. -/
def CF.isInt : CF → Bool
  | .i32 => true
  | _ => false

/-- A value inside a lane: its pattern in the computation format and whether it is a short factor (R145). -/
structure Lane where
  code : Nat
  short : Bool
deriving DecidableEq, Repr

/-- The zero input: +0, a short factor (R90, R145). -/
def Lane.zero : Lane := ⟨0, true⟩

/-- The exact value of a pattern in the computation format. -/
def CF.value (cf : CF) (code : Nat) : Num := cf.fmt.value code

/-- Rounding to the computation format by RNE; a NaN gives the canonical NaN with NV. -/
def CF.round (cf : CF) (x : Num) : Res Nat := cf.fmt.round x .rne

/-- The canonical NaN of the computation format (R123). -/
def CF.nanCode (cf : CF) : Nat := cf.fmt.nanCode

/-- A source element behind the gate, in the computation format (R125, R141). A NaN enters as the
canonical NaN and raises nothing (R122). -/
def loadLane (cf : CF) (f : Fmt) (code : Nat) : Res Lane :=
  (f.gate code).bind fun c =>
    match f.value c with
    | .nan => .pure ⟨cf.nanCode, f.bytes ≤ 2⟩
    | x => (cf.round x).map fun r => ⟨r, f.bytes ≤ 2⟩

/-- The product before its rounding (R145): exact when a factor is short, else by the truncated array. -/
def productNum (cf : CF) (a b : Lane) : Num :=
  match cf.value a.code, cf.value b.code with
  | .fin s ma ea, .fin t mb eb =>
    if a.short || b.short || cf.isInt then .fin (s != t) (ma * mb) (ea + eb)
    else
      let (sa, xa) := if cf = .f32 then sigF32 a.code else sigE10 a.code
      let (sb, xb) := if cf = .f32 then sigF32 b.code else sigE10 b.code
      .fin (s != t) (truncProduct sa sb) (xa + xb)
  | _, _ => .nan

/-- The signed integer of an INT32 pattern. -/
def int32 (code : Nat) : Int := signedValue 32 code

/-- A rounded product (R145, R151). -/
def mulLane (cf : CF) (a b : Lane) : Res Nat :=
  if cf.isInt then satInt 32 (int32 a.code * int32 b.code)
  else cf.round (productNum cf a b)

/-- A rounded sum (R148, R151). -/
def addLane (cf : CF) (a b : Nat) : Res Nat :=
  if cf.isInt then satInt 32 (int32 a + int32 b)
  else cf.round ((cf.value a).add (cf.value b))

/-- Negation: exact in a floating-point format; saturating in INT32 (R147, R151). A NaN stays canonical. -/
def negLane (cf : CF) (a : Nat) : Res Nat :=
  if cf.isInt then satInt 32 (-(int32 a))
  else if (cf.value a).isNan then .pure cf.nanCode
  else .pure (if a.testBit 31 then a - 2 ^ 31 else a + 2 ^ 31)

/-- Magnitude: exact in a floating-point format; saturating in INT32. -/
def absLane (cf : CF) (a : Nat) : Res Nat :=
  if cf.isInt then satInt 32 (int32 a).natAbs
  else .pure (a % 2 ^ 31)

/-- MIN and MAX of two numbers, −0 below +0 (R149). -/
def minMaxNum (cf : CF) (isMax : Bool) (a b : Nat) : Nat :=
  let x := cf.value a
  let y := cf.value b
  let aLess := x.lt y || (x.isZero && y.isZero && x.isNeg && !y.isNeg)
  if isMax then (if aLess then b else a) else (if aLess then a else b)

/-- MIN and MAX cells (R91, R149). -/
def minMaxLane (cf : CF) (isMax : Bool) (fn : Nat) (a b : Nat) : Res Nat :=
  match (cf.value a).isNan, (cf.value b).isNan with
  | false, false => .pure (minMaxNum cf isMax a b)
  | true, true => ⟨cf.nanCode, .invalid⟩
  | an, _ => if fn = 0 then ⟨cf.nanCode, .invalid⟩ else .pure (if an then b else a)

/-- The predicate of a CMP cell (R91, R150). -/
def cmpLane (cf : CF) (fn : Nat) (a b : Nat) : Bool :=
  let x := cf.value a
  let y := cf.value b
  let un := x.isNan || y.isNan
  match fn with
  | 0 => x.eqv y
  | 1 => !x.eqv y
  | 2 => x.lt y
  | 3 => !un && x.le y
  | 4 => y.lt x
  | 5 => !un && y.le x
  | 6 => un
  | _ => !un

/-- An infinity pattern made by LOGIC or SHIFT in an F32 chain is replaced (R150). -/
def fixPattern (cf : CF) (p : Nat) : Res Nat :=
  if cf = .f32 then Fmt.f32.gate p else .pure p

/-- LOGIC (R91). -/
def logicLane (cf : CF) (fn : Nat) (x y : Nat) : Res Nat :=
  fixPattern cf <|
    match fn with
    | 0 => x &&& y
    | 1 => x ||| y
    | 2 => x ^^^ y
    | 3 => x &&& (y ^^^ 0xFFFFFFFF)
    | 4 => x ^^^ 0xFFFFFFFF
    | _ => x % 2 ^ 31 + (if y.testBit 31 then 2 ^ 31 else 0)

/-- SHIFT by y[4:0] (R91). -/
def shiftLane (cf : CF) (fn : Nat) (x y : Nat) : Res Nat :=
  let v := BitVec.ofNat 32 x
  let k := y % 32
  fixPattern cf <|
    match fn with
    | 0 => (v <<< k).toNat
    | 1 => (v >>> k).toNat
    | 2 => (v.sshiftRight k).toNat
    | _ => (v.rotateRight k).toNat

/-- The target format of a CVT cell (R91). -/
def cvtTarget (fn : Nat) : Fmt :=
  match fn with
  | 0 => .bf16
  | 1 => .f16
  | 2 => .e4m3
  | 3 => .e5m2
  | 4 => .int8
  | _ => .int16

/-- FN 6 of the CVT cell: the nearest integral value, with the sign of x kept (R93). -/
def integralLane (cf : CF) (x : Nat) (m : Rnd) : Res Nat :=
  match cf.value x with
  | .fin s mag exp =>
    if 0 ≤ exp then .pure x
    else
      let (r, exact) := roundWeight mag exp 0 m
      ⟨(cf.round (.fin s r 0)).val, { nx := !exact }⟩
  | _ => ⟨cf.nanCode, .invalid⟩

/-- The CVT cell: rounded to the named format by RNE or toward zero, then widened exactly (R91, R93). -/
def cvtLane (cf : CF) (fn : Nat) (x : Nat) (m : Rnd) : Res Nat :=
  if fn = 6 then integralLane cf x m
  else
    let t := cvtTarget fn
    (t.round (cf.value x) m).map fun c =>
      if cf.isInt then ((signedValue (8 * t.bytes) c) % 2 ^ 32).toNat
      else (cf.round (t.value c)).val

/-- PASS (R91, R150). -/
def passLane (cf : CF) (fn : Nat) (x : Nat) : Res Nat :=
  if fn = 0 then .pure x
  else if (cf.value x).isNan then ⟨cf.nanCode, .invalid⟩
  else if fn = 1 then negLane cf x
  else absLane cf x

/-- The three operand lanes of a chain. -/
structure Operands where
  a : Lane
  b : Lane
  c : Lane
deriving DecidableEq, Repr

/-- A cell input selected by YS or ZS (R89): 0 B, 1 C, 2 A, 3 zero. -/
def Operands.sel (o : Operands) (k : BitVec 2) : Lane :=
  match k.toNat with
  | 0 => o.b
  | 1 => o.c
  | 2 => o.a
  | _ => Lane.zero

/-- One cell (R91, R147 to R151): the result and the chain predicate after it. `kd` is the predicate that a
SEL cell sees when no earlier CMP cell of the chain has set one (R94). -/
def cellEval (cf : CF) (rz : Bool) (cell : Cell) (o : Operands) (kd : Bool) (x : Lane)
    (p : Option Bool) : Res (Nat × Option Bool) :=
  let y := o.sel cell.ys
  let z := o.sel cell.zs
  let fn := cell.fn.toNat
  match cell.op.toNat with
  | 1 =>
    ((mulLane cf x y).bind fun pr =>
      (if cell.fn.getLsbD 0 then negLane cf pr else .pure pr).bind fun pn =>
        (if cell.fn.getLsbD 1 then negLane cf z.code else .pure z.code).bind fun zn =>
          addLane cf pn zn).map (·, p)
  | 2 =>
    (match fn with
      | 0 => addLane cf x.code y.code
      | 1 => if cf.isInt then satInt 32 (int32 x.code - int32 y.code)
             else (negLane cf y.code).bind fun n => addLane cf x.code n
      | _ => if cf.isInt then satInt 32 (int32 y.code - int32 x.code)
             else (negLane cf x.code).bind fun n => addLane cf y.code n).map (·, p)
  | 3 => ((mulLane cf x y).bind fun pr => if fn = 1 then negLane cf pr else .pure pr).map (·, p)
  | 4 => (minMaxLane cf false fn x.code y.code).map (·, p)
  | 5 => (minMaxLane cf true fn x.code y.code).map (·, p)
  | 6 => .pure (x.code, some (cmpLane cf fn x.code y.code))
  | 7 => .pure ((if (p.getD kd) != (fn == 1) then x.code else y.code), p)
  | 8 => (logicLane cf fn x.code y.code).map (·, p)
  | 9 => (shiftLane cf fn x.code y.code).map (·, p)
  | 10 => (cvtLane cf fn x.code (if rz then .rz else .rne)).map (·, p)
  | _ => (passLane cf fn x.code).map (·, p)

/-- The cells of a chain in order, up to the first whose OP is NONE (R90). -/
def chainEval (cf : CF) (rz : Bool) (o : Operands) (kd : Bool) :
    List Cell → Lane → Option Bool → Res (Nat × Option Bool)
  | [], x, p => .pure (x.code, p)
  | c :: cs, x, p =>
    if c.op = 0 then .pure (x.code, p)
    else (cellEval cf rz c o kd x p).bind fun y => chainEval cf rz o kd cs ⟨y.1, false⟩ y.2

/-! ### Lists of results -/

/-- `f` on every element; the raises combine. -/
def mapRes {α β : Type} (f : α → Res β) : List α → Res (List β)
  | [] => .pure []
  | a :: t => (f a).bind fun b => (mapRes f t).map (b :: ·)

/-- A left fold of results. -/
def foldRes {α β : Type} (f : β → α → Res β) : β → List α → Res β
  | b, [] => .pure b
  | b, a :: t => (f b a).bind fun c => foldRes f c t

/-- A list cut into pieces of `n`; `fuel` bounds the number of pieces. -/
def pieces {α : Type} (n : Nat) : Nat → List α → List (List α)
  | 0, _ => []
  | _, [] => []
  | fuel + 1, l => l.take n :: pieces n fuel (l.drop n)

/-- A list cut into pieces of `n` elements, the last possibly shorter. -/
def cut {α : Type} (n : Nat) (l : List α) : List (List α) := pieces n l.length l

/-! ### The reduction tree and the prefix structure -/

/-- A node with one absent child passes the other on (R153). -/
def combine {α : Type} (op : α → α → Res α) : Option α → Option α → Res (Option α)
  | none, r => .pure r
  | l, none => .pure l
  | some l, some r => (op l r).map some

/-- The node that carries a running value: what leaves it is a running value, never a source element, so as the factor
of a product it is long even where it passed a lone element of 16 bits on (R145). A scan continued from its carry
register thereby has the bits of one call (R229). -/
def carryOn (op : Lane → Lane → Res Lane) (run t : Option Lane) : Res (Option Lane) :=
  (combine op run t).map fun x => x.map fun l => { l with short := false }

/-- One level of the tree: neighbours combined, the lower index on the left. -/
def pairUp {α : Type} (op : α → α → Res α) : List (Option α) → Res (List (Option α))
  | a :: b :: t => (combine op a b).bind fun c => (pairUp op t).map (c :: ·)
  | [a] => .pure [a]
  | [] => .pure []

/-- A block of at most 64 elements over six levels (R153). -/
def treeBlock {α : Type} (op : α → α → Res α) (block : List (Option α)) : Res (Option α) :=
  (foldRes (fun l (_ : Nat) => pairUp op l) block (List.range 6)).map fun l => l.head?.getD none

/-- The fixed tree over one segment, from a carried value (R153). -/
def reduceSegment {α : Type} (op : α → α → Res α) (carry : Option α) (seg : List (Option α)) :
    Res (Option α) :=
  foldRes (fun run block => (treeBlock op block).bind fun t => combine op run t) carry (cut 64 seg)

/-- A list combined elementwise with a second one, the raises combined. -/
def zipRes {α : Type} (op : α → α → Res α) : List (Option α) → List (Option α) → Res (List (Option α))
  | a :: s, b :: t => (combine op a b).bind fun c => (zipRes op s t).map (c :: ·)
  | _, _ => .pure []

/-- The levels w = 1, 2, 4, ... below the block's length (R226): position j takes t[j − w] on its left. -/
def scanLevels {α : Type} (op : α → α → Res α) (t : List (Option α)) : Res (List (Option α)) :=
  foldRes (fun u w => if w < u.length then (zipRes op u (u.drop w)).map fun v => u.take w ++ v else .pure u)
    t [1, 2, 4, 8, 16, 32]

/-- One block of a scan (R226): the prefixes of its positions (none where inactive) and the new running
value. `fin h t` forms what a position holds from the running value and the block prefix; the node that
carries the running value past the block is formed once. -/
def scanBlock {α β : Type} (op : α → α → Res α) (fin : Option β → Option α → Res (Option β))
    (run : Option β) (block : List (Option α)) : Res (List (Option β) × Option β) :=
  (scanLevels op block).bind fun t =>
    (fin run (t.getLast?.getD none)).bind fun last =>
      (mapRes (fun (p : Option α × Option α) => if p.1.isSome then fin run p.2 else .pure none)
        ((block.zip t).dropLast)).map fun ys =>
          (ys ++ [if (block.getLast?.getD none).isSome then last else none], last)

/-- A scan of one segment: the prefixes and the running value at its end (R226). -/
def scanSegment {α β : Type} (op : α → α → Res α) (fin : Option β → Option α → Res (Option β))
    (run : Option β) (seg : List (Option α)) : Res (List (Option β) × Option β) :=
  foldRes (fun (acc : List (Option β) × Option β) block =>
    (scanBlock op fin acc.2 block).map fun y => (acc.1 ++ y.1, y.2)) ([], run) (cut 64 seg)

/-- The operation of a node in the accumulation format (R155, R226): addition, maximum, minimum or product. -/
inductive NodeOp where
  | add
  | max
  | min
  | mul
deriving DecidableEq, Repr

/-- A tree or scan node, NaN giving the canonical NaN with NV (R155). Factors of a product node are long
unless they are source elements of 16 bits or fewer (R145). -/
def nodeEval (cf : CF) (k : NodeOp) (a b : Lane) : Res Lane :=
  (match k with
    | .add => addLane cf a.code b.code
    | .max => minMaxLane cf true 0 a.code b.code
    | .min => minMaxLane cf false 0 a.code b.code
    | .mul => mulLane cf a b).map fun c => ⟨c, false⟩

/-- The pair (A, B) that stands for h ↦ A·h + B (R227). -/
structure ScanPair where
  a : Lane
  b : Lane
deriving DecidableEq, Repr

/-- Composition of pairs, the earlier on the left (R227). -/
def pairCombine (cf : CF) (l r : ScanPair) : Res ScanPair :=
  (mulLane cf r.a l.a).bind fun a =>
    (mulLane cf r.a l.b).bind fun m =>
      (addLane cf m r.b.code).map fun b => ⟨⟨a, false⟩, ⟨b, false⟩⟩

/-- A pair applied to h; an absent pair is the identity (R227). -/
def pairApply (cf : CF) (h : Option Lane) (p : Option ScanPair) : Res (Option Lane) :=
  match p with
  | none => .pure h
  | some p =>
    (mulLane cf p.a (h.getD ⟨0, false⟩)).bind fun m =>
      (addLane cf m p.b.code).map fun c => some ⟨c, false⟩

/-! ### The twist function -/

/-- The round constants of R165. -/
def twistC : List (BitVec 64) :=
  [0x7A3C91E54B06D2F1#64, 0x2E95C04BD81763A9#64, 0xC5D12F8639EA704D#64, 0x5B6EA3D80F479C23#64]

/-- The rotations of R165. -/
def twistRot : List Nat := [20, 36, 12, 28]

/-- The twist function (R165): four add-rotate-xor rounds, the top 16 bits of the sum. -/
def twist (s0 s1 : BitVec 64) (step : BitVec 48) (tid : BitVec 16) (coord : BitVec 48) : BitVec 16 :=
  let a := (step ++ tid) ^^^ s0
  let b := coord.zeroExtend 64 ^^^ s1
  let (a, b) := (twistC.zip twistRot).foldl
    (fun (ab : BitVec 64 × BitVec 64) (cr : BitVec 64 × Nat) =>
      let a' := ab.1 + ab.2 + cr.1
      (a', ab.2.rotateLeft cr.2 ^^^ a')) (a, b)
  ((a + b) >>> 48).truncate 16

end Sys2Proof.Machine
end

