-- ==== Sys2Proof/Config.lean ====
section
/-!
DEFINITION. The figures of a B1 engine that no retirement changes (R3, R30, R31).
-/

namespace Sys2Proof.Config

/-- Bundles of the program store (R31). -/
def programBundles : Nat := 2048

/-- Bundles of the edging store (R31). -/
def edgingBundles : Nat := 256

/-- Longest edging program in bundles (R31). -/
def edgingMax : Nat := 64

/-- Bytes of a slab and slabs of a hoop (R48). -/
def slabBytes : Nat := 4096

/-- Scale slots (R173). -/
def scaleSlots : Nat := 1024

/-- Words of a table image, 8,768 bytes (R210). -/
def leafWords : Nat := 2192

/-- Elements of a row in one ledger entry (R233). -/
def rowLimit : Nat := 1048576

/-- Picot mailbox entries (R115). -/
def mailbox : Nat := 16

/-- Outstanding M-slot transfers (R114). -/
def transfers : Nat := 16

/-- Slabs of the mirror queue (R310). -/
def mirrorQueue : Nat := 32

/-- Highest valid package identifier (R24). -/
def maxPackage : Nat := 20479

/-- FREE VALUE. The tile tag of an arrival event whose record never came (R300): no rule gives it (log 15). -/
opaque freeTag : Nat → Word

/-- FREE VALUE. Byte `i` that two writes of one instruction name and of which no rule says which stays: elements and
scales of a CVT to MX or of an MX LD in one slab (R98, R137), packed elements and scales of an MX ST (R138), a residual
and the payload of a GCMP in one slab (R290); or byte `i` of an uncorrectable word of a stored mask row (R264). The first argument numbers
the values drawn (log 15). -/
opaque freeClash : Nat → Nat → BitVec 8

/-- FREE VALUE. Bit `i`: element `i` of a transfer had been delivered when its target was marked absent (R286). The
argument numbers the loss (log 15). -/
opaque freeGot : Nat → Nat

end Sys2Proof.Config
end

