-- ==== Sys2Proof/Machine/State.lean ====
section
/-!
DEFINITION. The state of the block as plain data: every register, memory, queue, mode and pin that the
spec gives the engine (R47 and the register pages), the queue of waiting commands, and the state right
after a power-on reset has completed.
-/

namespace Sys2Proof.Machine

/-- Why the machine stops. No command of this model stops it: every meaning answers a next state. The
type is inhabited so that the interface's outcomes exist. -/
inductive Fault where
  /-- Raised by nobody: kept for the interface. Safe. -/
  | unreachable
deriving DecidableEq, Repr

/-- Why a command has no meaning. -/
inductive Refusal where
  /-- Raised by an arm of exec for a row that is not modelled yet. Safe: nothing is claimed of it. -/
  | notModelled (mnemonic : String)
deriving DecidableEq, Repr

/-! ### Lane and program context (R47, R87, R248) -/

/-- The element width EW (R49). -/
inductive EW where
  | w8
  | w16
  | w32
deriving DecidableEq, Repr

/-- A descriptor (R67). -/
structure Desc where
  base : BitVec 48
  pitch : BitVec 32
deriving DecidableEq, Repr

/-- The private context of a stream (R47, R248): lengths, shape, strides, scalars, descriptors and the
twist context (R87); `twPitch` is the row pitch of R249 and 0 for the main program. -/
structure Ctx where
  vl : Nat
  ew : EW
  rowshape : Nat
  es : Vector Word 8
  sregs : Vector (BitVec 64) 32
  desc : Vector Desc 16
  tid : BitVec 16
  base : BitVec 48
  twPitch : Word
deriving DecidableEq, Repr

/-- A scan carry (R68); `wide` is the format tag E10M21. -/
structure Carry where
  value : Word
  wide : Bool
  valid : Bool
deriving DecidableEq, Repr

/-! ### Issue (R108 to R119, R326, R428) -/

/-- What a waiting WAIT or WAITDIR waits for (R108, R116). -/
inductive WaitKind where
  /-- Kind 0, with the number of earlier fabric transfers still outstanding. -/
  | fabric (left : Nat)
  | bobbin
  | mark (code : BitVec 4)
  | cycles
  | dir
deriving DecidableEq, Repr

/-- A waiting WAIT or WAITDIR and the register it will write. `met` records that the mark of kind 2 was
received (R108). -/
structure Wait where
  kind : WaitKind
  sd : BitVec 5
  met : Bool
deriving DecidableEq, Repr

/-- STOP_REASON (R428). -/
inductive StopReason where
  | never
  | halt
  | hostStop
  | pcEnd
  | illegal
  | hoopGone
  | hoopUe
  | leafUe
  | laneHard
  | progUe
  | restitch
  | edgeLent
  | netLent
deriving DecidableEq, Repr

/-- A picot on its way to the mailbox (R115). -/
structure PicotPost where
  stream : Stream
  sd : BitVec 5
  value : BitVec 64
  tag : Byte
  index : Nat
deriving DecidableEq, Repr

/-- A mailbox entry (R115). -/
structure Picot where
  value : BitVec 64
  tag : Byte
  index : Nat
deriving DecidableEq, Repr

/-- A structural activity (R370, R452). -/
inductive Act where
  | darning (panel : Nat)
  | spareIn (hoop slab : Nat) (cause : Nat)
  | staged
  | leafRepair (slot : Nat) (leafB : Bool)
  | proofing (arg : Nat)
deriving DecidableEq, Repr

/-- Records of a plan entry that were released as GONE although they never came (R300): their source and stream,
how many, and the order among the records. -/
structure GoneRelease where
  seq : Nat
  src : BitVec 37
  left : Nat
deriving DecidableEq, Repr

/-- What an NRECV takes: the record of an arrival slot, or one GONE release (R300, R301). -/
inductive Taken where
  | slot (k : Nat)
  | gone (g : GoneRelease)
deriving DecidableEq, Repr

/-- What a bundle captures at its first issue: the twist inputs (R170), the frozen guard by which an UPD is effective
(R308), and whether a matrix engine is bound, which a POPQ asks (R285, R326). -/
structure TwCap where
  s0 : BitVec 64
  s1 : BitVec 64
  step : BitVec 48
  guard : Option Bool
  me : Bool
deriving DecidableEq, Repr

/-- What an issue of the M slot found: its condition, or the limit of its wait (R275, R283, R301). -/
inductive MOut where
  | normal
  | recvTimeout
  | popqTimeout
  | sendTimeout
deriving DecidableEq, Repr

/-- An aborted bundle that waits for its re-execution (R326 to R328, R332, R334): the failures so far,
whether its M transfer was handed, how the wait of its M slot ended, the retired panels that are out of the map
already but whose places count in PANELS.ACTIVE until the boundary after it (R42, R334), whether darning must end
first, and the inputs captured. The rest of its twist context is the stream's own, which nothing can write before
that boundary (R170, log 16). `acts` are the structural activities that ended under it, whose effects come at that
boundary; `takes` is the record that its NRECV takes, which is there for the re-execution even if ABORT or the retirement
of RX_HOOP has freed the records meanwhile (`freed`) (R326). -/
structure Retry where
  stream : Stream
  bundle : Bundle
  fails : Nat
  handed : Bool
  out : MOut
  lost : List Nat
  darning : Bool
  cap : TwCap
  acts : List Act
  takes : Option Taken
  freed : Bool
deriving DecidableEq, Repr

/-- The storages that an injection can name (R456). -/
inductive EccTarget where
  | hoop
  | leaf
  | scale
  | program
  | edging
deriving DecidableEq, Repr

/-- The registers of a scale slot that a write reaches (R434). -/
inductive SlotReg where
  | ctl
  | est
  | age
deriving DecidableEq, Repr

/-- A register write that is held until the boundary after an aborted bundle's re-execution, or, for a scale
slot, until the commit walk has ended (R51, R180, R181, R230, R368). An injection is held behind an earlier write to its
word (R461). -/
inductive HeldWrite where
  | carry (c : Nat) (ctl : Bool) (v : Word)
  | hoop (h k word : Nat) (v : Word)
  | slot (i : Nat) (r : SlotReg) (v : Word)
  | inject (t : EccTarget) (word : Nat) (m : BitVec 72)
deriving DecidableEq, Repr

/-- The issue unit of the main program; `count` is the number of bundles written back (R341), `held` the
register writes that wait for a bundle boundary or for the commit walk. -/
structure IssueUnit where
  running : Bool
  pc : Nat
  stopPc : Nat
  reason : StopReason
  goRefused : Bool
  stop : Option StopReason
  wait : Option Wait
  dirLatch : Option Word
  posts : List PicotPost
  mailbox : List Picot
  count : Nat
  retry : Option Retry
  held : List HeldWrite
deriving DecidableEq, Repr

/-! ### Transfers (R67, R101, R114, R278) -/

/-- One loaded element: `bits` bits from bit address `src`, written from byte `dst` of the hoop name space. -/
structure LoadEl where
  src : Nat
  bits : Nat
  dst : Nat
deriving DecidableEq, Repr

/-- One stored element: its bytes and its address. -/
structure StoreEl where
  addr : Nat
  bytes : List Byte
deriving DecidableEq, Repr

/-- What an outstanding fabric transfer does when it completes. `zeros` are hoop bytes written as zero
(unmapped and, under MP 1, masked elements); `range` says that an address was unmapped (R17). -/
inductive XferOp where
  | load (els : List LoadEl) (zeros : List Nat) (range : Bool) (both : List Nat)
  | store (els : List StoreEl) (range : Bool)
  | tbld (slot : Nat) (leafB : Bool) (addr : Nat)
  | scld (addr : Nat)
  | scst (addr : Nat)
  | lgst (entry : Nat) (addr : Nat)
  | lgld (entry : Nat) (addr : Nat)
deriving DecidableEq, Repr

/-- What a fabric address reaches (R16). -/
inductive Target where
  | sram (die : Nat)
  | dram
  | unmapped
deriving DecidableEq, Repr

/-- A target lost under a transfer (R285, R286): absent when the transfer was handed, or marked absent while it was
in flight. In the second case the free value that `draw` numbers says which elements were delivered before. -/
structure LostTarget where
  target : Target
  draw : Option Nat
deriving DecidableEq, Repr

/-- An outstanding fabric transfer: its stream and bundle, the main-program bundles written back before it, what it
does, the slab names it occupies (hoop × 16 + slab), whether its data has arrived (a TBLD that awaits its check), and
the targets lost under it. -/
structure Xfer where
  stream : Stream
  index : Nat
  count : Nat
  op : XferOp
  slabs : List Nat
  arrived : Bool
  lost : List LostTarget
deriving DecidableEq, Repr

/-! ### Storage, errors and repair -/

/-- Flipped bits of one stored 64-bit word with its check bits. -/
structure EccErr where
  target : EccTarget
  word : Nat
  flips : BitVec 72
deriving DecidableEq, Repr

/-- The state of a physical panel (R429). -/
inductive PanelState where
  | inService
  | spare
  | retired
  | bad
deriving DecidableEq, Repr

/-- The state of a hoop's spare slab (R430): free, in use for a slab, or bad. -/
inductive SpareSlab where
  | free
  | inUse (slab : Nat)
  | bad
deriving DecidableEq, Repr

/-- Hoop bookkeeping (R70 to R77, R430): presence, spares, correctable errors per slab, the latest
uncorrectable error as its UE_RECORD word. -/
structure HoopMeta where
  present : Vector Bool 6
  spare : Vector SpareSlab 6
  ceCount : SMap Nat
  ueRecord : Word
deriving DecidableEq, Repr

/-- The source of a structural start (R452). -/
inductive ActSrc where
  | engine
  | pricking (entry : Nat)
  | mmio
deriving DecidableEq, Repr

/-- A structural start. -/
structure Start where
  act : Act
  src : ActSrc
deriving DecidableEq, Repr

/-- The arbiter (R369 to R372): running activity, queue, panels whose darning is due next, and held
engine starts (R371). -/
structure Arbiter where
  running : Option Start
  queue : List Start
  darns : List Nat
  heldHoops : List Act
  heldSlots : List Act
deriving DecidableEq, Repr

/-! ### Motif tables (R194 to R220, R432) -/

/-- Leaf states (R433). -/
inductive LeafState where
  | empty
  | loading
  | checked
  | ready
  | bad
deriving DecidableEq, Repr

/-- One leaf: state, the 2,192 words of its image, TAG and LOADSEQ (R212, R215). -/
structure Leaf where
  state : LeafState
  image : SMap Word
  tag : Word
  seq : BitVec 16
deriving DecidableEq, Repr

/-- One table slot (R432). `active` true means leaf B. A lost leaf failed with its
group's spare in use (R217); `reload` holds from a TBLD into the only leaf until its swap takes effect. -/
structure MotifSlot where
  leafA : Leaf
  leafB : Leaf
  active : Bool
  pending : Bool
  lostA : Bool
  lostB : Bool
  reload : Bool
  reason : BitVec 4
deriving DecidableEq, Repr

/-- The state of a group's spare leaf (R432): 0 free, 1 in use for a leaf (twice its slot, plus 1 for leaf B),
2 bad. -/
inductive SpareLeaf where
  | free
  | inUse (leaf : Nat)
  | bad
deriving DecidableEq, Repr

/-- The motif unit. -/
structure Motif where
  slots : Vector MotifSlot 16
  loadSeq : BitVec 16
  spares : Vector SpareLeaf 4
deriving DecidableEq, Repr

/-! ### Scale slots (R173, R434) -/

/-- One scale slot (R173); `pinned` R189, `kWritten` whether LASTK was written since it became cold (R184). -/
structure ScaleSlot where
  valid : Bool
  key : BitVec 16
  cold : Bool
  warmup : Nat
  est : Word
  age : Nat
  h : BitVec 3
  decay : BitVec 4
  boost : Nat
  lastk : BitVec 10
  obs : Word
  used : Bool
  ovf : Bool
  pinned : Bool
  kWritten : Bool
deriving DecidableEq, Repr

/-- The scale unit: the slots by number, free spares and the slots moved to spares (R189), the commit walk,
and the page's reports. `walkDue` holds the steps whose commit walks are due, oldest first (R178). -/
structure ScaleUnit where
  slots : SMap ScaleSlot
  spareFree : Nat
  spared : List Nat
  walkDue : List (BitVec 48)
  walkBusy : Bool
  walkStep : BitVec 48
  missTid : BitVec 16
  dupSlot : BitVec 11
deriving DecidableEq, Repr

/-! ### Twist (R168, R169) -/

/-- The seed pairs and the twist step. -/
structure TwistUnit where
  s0 : BitVec 64
  s1 : BitVec 64
  staged0 : BitVec 64
  staged1 : BitVec 64
  pending : Bool
  step : BitVec 48
deriving DecidableEq, Repr

/-! ### Edging (R241 to R264) -/

/-- Run statuses (R255, R438). -/
inductive RunStatus where
  | ok
  | rowDone
  | rowOpen
  | rowOrder
  | bankBusy
  | rowLong
  | illegal
  | hoopGone
  | gone
  | overrun
  | stopped
  | noRun
deriving DecidableEq, Repr

/-- What a binding reports (R438): HOLD_CAP, LAST_STATUS, the bundle of an abort, the last tag. -/
structure BindRep where
  holdCap : Nat
  status : RunStatus
  bundle : Nat
  lastTag : Word
deriving DecidableEq, Repr

/-- An event in the trigger queue (R245, R246): binding, whether it is an arrival, tag, and for an arrival its S2
word. -/
structure Trigger where
  binding : Nat
  arrival : Bool
  tag : Word
  src : BitVec 64
deriving DecidableEq, Repr

/-- The active edging run (R247, R248): the event's tag and S2 word, its bundle range, position, context, waiting
WAIT, and an abort or normal end that waits for the run's outstanding transfers. -/
structure Run where
  binding : Nat
  arrival : Bool
  tag : Word
  src : BitVec 64
  completion : Bool
  pos : Nat
  first : Nat
  len : Nat
  pc : Nat
  ctx : Ctx
  wait : Option Wait
  ended : Option RunStatus
  abortAt : Nat
deriving DecidableEq, Repr

/-- The completion runs still to be made for a band (R260), with the source of the run that completed it
(R248). -/
structure Completion where
  binding : Nat
  tag : Word
  src : BitVec 64
  bank : Nat
  left : List Nat
deriving DecidableEq, Repr

/-- A row-ledger bank header (R256, R440). -/
structure Bank where
  band : Word
  occ : Bool
  cols : Nat
  long : Bool
  binding : Nat
  releaseDue : Bool
deriving DecidableEq, Repr

/-- A row-ledger entry (R256). -/
structure LedgerEntry where
  sum : Word
  sumsq : Word
  max : Word
  count : BitVec 20
  nonempty : Bool
  long : Bool
deriving DecidableEq, Repr

/-- The edging store's measurement verdict (R453). -/
inductive StoreVerdict where
  | none
  | awaited
  | favourable
  | unfavourable
deriving DecidableEq, Repr

/-- How a tile came (R271, R274): over the direct port, or through the bobbin queue in edging or in program use. -/
inductive TileUse where
  | direct
  | edging
  | program
deriving DecidableEq, Repr

/-- An unreleased accumulator tile, on the matrix engine's side or in the bobbin queue (R271, R274): how it came,
its F32 elements and the number of slabs already popped. -/
structure Tile where
  use : TileUse
  tag : Word
  stream : BitVec 16
  data : SMap Word
  popped : Nat
deriving DecidableEq, Repr

/-- The edging unit. -/
structure Edging where
  binds : Vector BindRep 8
  trig : List Trigger
  run : Option Run
  compl : Option Completion
  banks : Vector Bank 2
  entries : SMap LedgerEntry
  verdict : StoreVerdict
  armReason : Nat
  armBinding : Nat
  tiles : List Tile
deriving DecidableEq, Repr

/-! ### Partners (R266 to R287, R442) -/

/-- A coupling change that waits for R273. -/
structure Coupling where
  accPortEn : Bool
  meSrc : Byte
  queueUse : Bool
deriving DecidableEq, Repr

/-- The partner unit: states (true is PRESENT), roll call, couplings, binds and reachability. `probeAbsent`
holds the ports that have not answered the running probe, `marked` the packages marked absent until the
running roll call publishes. -/
structure PartnerUnit where
  me : Bool
  core : Bool
  sram : Vector Bool 4
  dram : Bool
  buddyPresent : Bool
  rollGen : Word
  rollBusy : Bool
  rollPending : Bool
  probeAbsent : List Probe
  marked : List (BitVec 15)
  coupling : Coupling
  couplingHeld : Option Coupling
  bindRefused : Nat
  buddy : Option (BitVec 15)
  buddyId : BitVec 15
  reach : SMap Word
  recent : List (BitVec 15)
  recentPrev : List (BitVec 15)
deriving DecidableEq, Repr

/-! ### Network port and plan (R281 to R301, R445) -/

/-- A record in an arrival slot (R297, R298): its header; its payload is in the slab of RX_HOOP with the
slot's number. `early` is a record of the next step; `seq` the order of arrival. -/
structure Arrival where
  hdr : List Word
  early : Bool
  released : Bool
  goneRelease : Bool
  missed : Bool
  seq : Nat
deriving DecidableEq, Repr

/-- A record handed to the outbound port: whether it is a mirror record, its destination package, its
counter and the sealed bytes; the bundle that sent it. -/
structure OutRec where
  mirror : Bool
  package : BitVec 15
  counter : Word
  wire : WireRec
  stream : Stream
  index : Nat
deriving DecidableEq, Repr

/-- The network unit. -/
structure NetUnit where
  rxEn : Bool
  rxHoop : BitVec 3
  rxRefused : Bool
  slots : Vector (Option Arrival) 16
  arrivals : Nat
  planNext : Nat
  released : Nat
  planEnd : Bool
  rcount : Word
  credit : SMap Nat
  outQ : List OutRec
  gones : List GoneRelease
deriving DecidableEq, Repr

/-! ### Mirror (R342 to R361, R447) -/

/-- A record in the mirror queue: header words 0 to 15 without sealing, and the payload. -/
structure MirrorRec where
  hdr : List Word
  body : List Byte
deriving DecidableEq, Repr

/-- A region still to be sent by a flush, base copy or restore: its index and ROLE, base and bytes, and the
byte offset of the next slab. For the log of a restore: base of the half, its records, and the next one. -/
structure RegionTodo where
  region : Nat
  role : Nat
  base : Nat
  bytes : Nat
  offset : Nat
  logged : Bool
deriving DecidableEq, Repr

/-- The mirror operations (R447). -/
inductive MirrorOp where
  | flush
  | baseCopy
  | restore
  | fold
deriving DecidableEq, Repr

/-- Image states (R352). -/
inductive Image where
  | invalid
  | filling
  | valid
deriving DecidableEq, Repr

/-- Log-half states (R351, R447). -/
inductive HalfState where
  | empty
  | isOpen
  | folding
  | folded
  | discarded
  | damaged
deriving DecidableEq, Repr

/-- One log half (R351). -/
structure LogHalf where
  state : HalfState
  index : Nat
  step : BitVec 48
deriving DecidableEq, Repr

/-- A logged record whose write has not completed (R351). -/
structure LogWrite where
  half : Nat
  addr : Nat
  hdr : List Word
  body : List Byte
  mseq : Word
deriving DecidableEq, Repr

/-- The mirror unit. `rxHeld` are mirror records of the next step (R297, R350) and records that a fold holds (R353);
`rxRole4` counts the ROLE 4 records of the restore being received; `rxCut` says that a STEP_OPEN ended the base copy
being received (R352), `rxSeen` is MSEQ of the record received last and `rxNew` says that MSEQ has restarted since the
last base record (R346); `owed` is the index of the UPD that has waited for room, while the room freed is kept for it
(R348); `mseqRun` says that MSEQ has restarted since the reset, as TIED requires (R349, log 51). -/
structure MirrorUnit where
  parity : Bool
  queue : List MirrorRec
  descs : List (List Word)
  group : Word
  mseq : Word
  mseqRun : Bool
  unacked : List Word
  gap : Bool
  damaged : Bool
  op : Option MirrorOp
  todo : List RegionTodo
  sent : Nat
  opLast : Option MirrorOp
  opStatus : Nat
  image : Image
  rxCount : Nat
  rxRestore : Nat
  rxRestoreCount : Nat
  rxRole4 : Nat
  rxCut : Bool
  rxSeen : Option Word
  rxNew : Bool
  owed : Option Nat
  rxHeld : List MirrorRec
  halves : Vector LogHalf 2
  expMseq : Option Word
  logWrites : List LogWrite
  regReport : Word
deriving DecidableEq, Repr

/-! ### Step clock and pricking (R312 to R322, R450) -/

/-- A pending start and whether it was scheduled since the last STEP_OPEN (R320, R322). -/
structure PrickPending where
  entry : Nat
  inStep : Bool
deriving DecidableEq, Repr

/-- The step clock; `seqSeen` is the SEQ of the frame accepted last (R457). -/
structure ClockUnit where
  isOpen : Bool
  phase : BitVec 4
  frozen : Bool
  freezeDue : Bool
  frozenGuard : Option Bool
  lastCode : BitVec 4
  lastSeq : BitVec 8
  lastStep : BitVec 48
  expSeq : Option (BitVec 8)
  seqSeen : BitVec 8
  lastCommit : Option (BitVec 48)
  lastAbort : Option (BitVec 48)
  quiet : Bool
  pendings : List PrickPending
  refused : Word
  scrubs : List (Nat × Nat)
deriving DecidableEq, Repr

/-! ### Seal (R375 to R386, R453) -/

/-- Key-slot states (R375). -/
inductive KeyState where
  | empty
  | live
  | spent
deriving DecidableEq, Repr

/-- A key slot: state, key, and the step of the last record sealed under it (R377). -/
structure KeySlot where
  state : KeyState
  key : BitVec 256
  lastStep : Option (BitVec 48)
deriving DecidableEq, Repr

/-- The seal unit: keys, the senders whose inbound keys are held per purpose, latest used first (R376), sealed
mode, requested streams, the stream being sent, streams whose verdict is awaited, and streams sent whose measurement was
cancelled, so that their verdicts are to be discarded (R383). -/
structure SealUnit where
  keys : Vector KeySlot 4
  inbound : Vector (List (BitVec 22)) 2
  isSealed : Bool
  requested : List MeasTarget
  sending : Option MeasTarget
  awaiting : List MeasTarget
  stale : List MeasTarget
deriving DecidableEq, Repr

/-! ### Trouble (R400 to R413, R454) -/

/-- The trouble unit. `flags` has one nibble per class in the layout of R400 without FL_ANY; counters are in
the order of R405. -/
structure TroubleUnit where
  flags : BitVec 16
  first : Word
  firstStep : BitVec 48
  counters : Vector Nat 25
  snaps : Vector Nat 25
  snapGen : Word
  snapStep : BitVec 48
  copying : Option (Vector Nat 25 × BitVec 48)
  guardBit : Bool
  engineDown : Bool
  laneHard : Bool
  restitchBusy : Bool
  lastRestitch : BitVec 2
  skipValid : Bool
  skipIndex : Nat
  applyIgnored : Bool
  darnLog : List Word
  stage : SMap Word
  laneErr : Word
  proofStatus : Word
deriving DecidableEq, Repr

/-! ### Pages, rest and life -/

/-- The common header of a page (R420) and its high-word capture (R12): the offset and the captured word. -/
structure PageHdr where
  sticky : Word
  en : Word
  writer : BitVec 2
  refused : Bool
  capture : Option (Nat × Word)
deriving DecidableEq, Repr

/-- Reset kinds that end a session (R387). -/
inductive ResetKind where
  | pwr
  | pkg
  | blk
deriving DecidableEq, Repr

/-- Rest states (R395). -/
inductive Rest where
  | run
  | rest1
  | rest2
  | rest3
deriving DecidableEq, Repr

/-- What the engine sends to its partners: nothing in the model reads it back. -/
inductive OutMsg where
  | tileRelease (tag : Word)
  | tileNotice (stream : BitVec 15) (tag : Word)
  | mirrorAck (mseq : Word)
  | measurement (t : MeasTarget) (content : List Word)
deriving DecidableEq, Repr

/-- The state of the block. `resetHeld` holds while the package holds PWR or PKG reset (R389); `freeCount` numbers the
free values drawn so far (the model's own). -/
structure State where
  pending : List Instr
  wz : BitVec 7
  package : BitVec 15
  powered : Bool
  resetting : Option ResetKind
  resetHeld : Bool
  lastReset : BitVec 2
  rest : Rest
  transit : Option Rest
  restRefused : BitVec 4
  capGen : Word
  hoops : SMap Byte
  fabric : SMap Byte
  pstore : SMap Word
  estore : SMap Word
  regs : SMap Word
  ecc : List EccErr
  ctx : Ctx
  masks : Vector (BitVec 4096) 8
  carries : Vector Carry 4
  issue : IssueUnit
  xfers : List Xfer
  panelMap : List Nat
  panels : Vector PanelState 18
  hoopMeta : HoopMeta
  arb : Arbiter
  motif : Motif
  scale : ScaleUnit
  twist : TwistUnit
  edging : Edging
  partner : PartnerUnit
  net : NetUnit
  mirror : MirrorUnit
  clock : ClockUnit
  keys : SealUnit
  trouble : TroubleUnit
  freeCount : Nat
  testEnable : Bool
  testLocal : Bool
  pages : Vector PageHdr 16
  mmioOut : Option Word
  maskOut : Option (BitVec 128)
  outbox : List OutMsg
deriving DecidableEq, Repr

/-! ### Reset values (R47, R393, R421) -/

/-- A fresh context: VL 0, EW 32-bit, ROWSHAPE 0, strides +1, everything else zero (R47, R248). -/
def Ctx.reset : Ctx :=
  { vl := 0, ew := .w32, rowshape := 0, es := Vector.replicate 8 1#32, sregs := Vector.replicate 32 0#64
    desc := Vector.replicate 16 ⟨0#48, 0#32⟩, tid := 0, base := 0, twPitch := 0 }

def Carry.reset : Carry := ⟨0, false, false⟩

def IssueUnit.reset : IssueUnit :=
  { running := false, pc := 0, stopPc := 0, reason := .never, goRefused := false, stop := none, wait := none
    dirLatch := none, posts := [], mailbox := [], count := 0, retry := none, held := [] }

def HoopMeta.reset : HoopMeta :=
  { present := Vector.replicate 6 true, spare := Vector.replicate 6 .free, ceCount := [], ueRecord := 0 }

def Arbiter.reset : Arbiter := { running := none, queue := [], darns := [], heldHoops := [], heldSlots := [] }

def Leaf.reset : Leaf := { state := .empty, image := [], tag := 0, seq := 0 }

def MotifSlot.reset : MotifSlot :=
  { leafA := Leaf.reset, leafB := Leaf.reset, active := false, pending := false, lostA := false
    lostB := false, reload := false, reason := 0 }

def Motif.reset : Motif :=
  { slots := Vector.replicate 16 MotifSlot.reset, loadSeq := 0, spares := Vector.replicate 4 .free }

/-- An invalid slot with the values of R173 and R434. -/
def ScaleSlot.reset : ScaleSlot :=
  { valid := false, key := 0, cold := true, warmup := 0, est := 0, age := 0, h := 1, decay := 4, boost := 0
    lastk := 0, obs := 0, used := false, ovf := false, pinned := false, kWritten := false }

/-- Every slot invalid and every spare free (R393); the step number that SCST stores before a walk has run is 0, as no
rule gives one (R187; DESIGN CHOICE, log 43). -/
def ScaleUnit.reset : ScaleUnit :=
  { slots := [], spareFree := 32, spared := [], walkDue := [], walkBusy := false, walkStep := 0, missTid := 0, dupSlot := 0 }

def TwistUnit.reset : TwistUnit := { s0 := 0, s1 := 0, staged0 := 0, staged1 := 0, pending := false, step := 0 }

def BindRep.reset : BindRep := { holdCap := 0, status := .noRun, bundle := 0, lastTag := 0 }

def Bank.reset : Bank := { band := 0, occ := false, cols := 0, long := false, binding := 0, releaseDue := false }

/-- An entry with no contribution (R256). -/
def LedgerEntry.reset : LedgerEntry :=
  { sum := 0, sumsq := 0, max := 0, count := 0, nonempty := false, long := false }

def Edging.reset : Edging :=
  { binds := Vector.replicate 8 BindRep.reset, trig := [], run := none, compl := none
    banks := Vector.replicate 2 Bank.reset, entries := [], verdict := .none, armReason := 0, armBinding := 0
    tiles := [] }

def Coupling.reset : Coupling := { accPortEn := false, meSrc := 0xFF, queueUse := false }

/-- Every partner ABSENT and unbound, the roll call of R389 step 5 running. -/
def PartnerUnit.reset : PartnerUnit :=
  { me := false, core := false, sram := Vector.replicate 4 false, dram := false, buddyPresent := false
    rollGen := 0, rollBusy := true, rollPending := false, probeAbsent := [], marked := [], coupling := Coupling.reset
    couplingHeld := none, bindRefused := 0, buddy := none, buddyId := 0, reach := [], recent := []
    recentPrev := [] }

/-- PLAN_END is 0 as R445 gives it, until PLAN_NEXT is reset or the plan is written for the first time (log 51). -/
def NetUnit.reset : NetUnit :=
  { rxEn := false, rxHoop := 0, rxRefused := false, slots := Vector.replicate 16 none
    arrivals := 0, planNext := 0, released := 0, planEnd := false, rcount := 0, credit := [], outQ := [], gones := [] }

def LogHalf.reset : LogHalf := { state := .empty, index := 0, step := 0 }

def MirrorUnit.reset : MirrorUnit :=
  { parity := false, queue := [], descs := [], group := 0, mseq := 0, mseqRun := false, unacked := [], gap := false
    damaged := false, op := none, todo := [], sent := 0, opLast := none, opStatus := 0, image := .invalid
    rxCount := 0, rxRestore := 0, rxRestoreCount := 0, rxRole4 := 0, rxCut := false, rxSeen := none, rxNew := false
    owed := none, rxHeld := [], halves := Vector.replicate 2 LogHalf.reset
    expMseq := none, logWrites := [], regReport := 0 }

def ClockUnit.reset : ClockUnit :=
  { isOpen := false, phase := 7, frozen := false, freezeDue := false, frozenGuard := none, lastCode := 0
    lastSeq := 0, lastStep := 0, expSeq := none, seqSeen := 0, lastCommit := none, lastAbort := none, quiet := false
    pendings := [], refused := 0, scrubs := [] }

def KeySlot.reset : KeySlot := { state := .empty, key := 0, lastStep := none }

def SealUnit.reset : SealUnit :=
  { keys := Vector.replicate 4 KeySlot.reset, inbound := Vector.replicate 2 [], isSealed := false, requested := [], sending := none, awaiting := []
    stale := [] }

def TroubleUnit.reset : TroubleUnit :=
  { flags := 0, first := 0, firstStep := 0, counters := Vector.replicate 25 0, snaps := Vector.replicate 25 0
    snapGen := 0, snapStep := 0, copying := none, guardBit := false, engineDown := false, laneHard := false
    restitchBusy := false, lastRestitch := 0, skipValid := false, skipIndex := 0, applyIgnored := false
    darnLog := [], stage := [], laneErr := 0, proofStatus := 0 }

/-- The forced enable bits of a page (R412). -/
def forcedEn (page : Nat) : Word :=
  match page with
  | 1 => 0x1F
  | 4 => 0x10
  | 11 => 0x22
  | 14 => 0x30
  | _ => 0

def PageHdr.reset (page : Nat) : PageHdr :=
  { sticky := 0, en := forcedEn page, writer := 0, refused := false, capture := none }

/-- Physical panels 0 to 15 in service, 16 and 17 spare (R331). -/
def panelsReset : Vector PanelState 18 :=
  ((Vector.replicate 18 PanelState.inService).setIfInBounds 16 .spare).setIfInBounds 17 .spare

/-- K0 all ones, the other masks zero (R47). -/
def masksReset : Vector (BitVec 4096) 8 :=
  (Vector.replicate 8 (0#4096)).setIfInBounds 0 (BitVec.allOnes 4096)

/-- The engine right after a PWR reset has completed (R389): every field at the value of R393's PWR column
and R421, the roll call of bring-up running, no command waiting. -/
def State.reset : State :=
  { pending := [], wz := 0, package := 0, powered := true, resetting := none, resetHeld := false, lastReset := 0, rest := .run
    transit := none, restRefused := 0, capGen := 0, hoops := [], fabric := [], pstore := [], estore := []
    regs := [], ecc := [], ctx := Ctx.reset, masks := masksReset, carries := Vector.replicate 4 Carry.reset
    issue := IssueUnit.reset, xfers := [], panelMap := List.range 16, panels := panelsReset
    hoopMeta := HoopMeta.reset, arb := Arbiter.reset, motif := Motif.reset, scale := ScaleUnit.reset
    twist := TwistUnit.reset, edging := Edging.reset, partner := PartnerUnit.reset, net := NetUnit.reset
    mirror := MirrorUnit.reset, clock := ClockUnit.reset, keys := SealUnit.reset, trouble := TroubleUnit.reset
    freeCount := 0, testEnable := false, testLocal := false, pages := Vector.ofFn fun i => PageHdr.reset i.val
    mmioOut := none, maskOut := none, outbox := [] }

end Sys2Proof.Machine
end

