-- ==== Sys2Proof/Machine/Legal.lean ====
section
/-!
DEFINITION. What makes a bundle legal by its own bits (R38, R80 to R109, R136, R140, R159, R163, R196,
R221, R222, R290), and which instruction each slot carries.
-/

namespace Sys2Proof

open Sys2Proof.Machine

/-- Whether an operand field names a hoop H0 to H5 (R83, R84). -/
def opOk (f : BitVec 8) : Bool := (f.toNat / 16) % 8 < 6

/-- A destination field: NW with zeros, or a slab (R83, R84). -/
def dstOk (f : BitVec 8) : Bool := if f.getLsbD 7 then f == 0x80#8 else opOk f

/-- A field that the slot uses names a hoop; one that no part uses is zero (R84). -/
def srcOk (used : Bool) (f : BitVec 8) : Bool := if used then opOk f else f == 0#8

/-! ### V0 -/

/-- The V0 slot is a no-op whatever MP holds (R80). -/
def V0Slot.isNop (v : V0Slot) : Bool := decide ({ v with mp := 0 } =
  ({ mp := 0, km := 0, kd := 0, dcls := 0, rm := 0, wide := 0, dfmt := 0, cfmt := 0, sfmt := 0, d := 0
     c := 0, b := 0, a := 0, rsv := 0, cell3 := ⟨0, 0, 0, 0⟩, cell2 := ⟨0, 0, 0, 0⟩
     cell1 := ⟨0, 0, 0, 0⟩, major := 0 } : V0Slot))

def V0Slot.cells (v : V0Slot) : List Cell := [v.cell1, v.cell2, v.cell3]

/-- Whether a cell reads its input y: every operation but CVT, PASS and NOT (R91). -/
def Cell.usesY (c : Cell) : Bool :=
  match c.op.toNat with
  | 0 | 10 | 11 => false
  | 8 => c.fn != 4
  | _ => true

/-- Whether a cell reads its input z: FMA alone (R91). -/
def Cell.usesZ (c : Cell) : Bool := c.op == 1

/-- Whether a cell reads operand `k` of R89 (0 B, 1 C). -/
def Cell.uses (c : Cell) (k : BitVec 2) : Bool := (c.usesY && c.ys == k) || (c.usesZ && c.zs == k)

/-- The highest sub-function that R91 lists for an operation. -/
def Cell.maxFn (c : Cell) : Nat :=
  match c.op.toNat with
  | 1 => 3
  | 2 => 2
  | 3 | 4 | 5 | 7 => 1
  | 6 => 7
  | 8 => 5
  | 9 => 3
  | 10 => 6
  | 11 => 2
  | _ => 0

/-- One cell by its own bits (R89 to R92). R89 fixes ZS where OP takes no z, and R90 every field of a NONE cell; YS of
a cell whose OP takes no y (CVT, PASS, LOGIC NOT) may have any value, and does not count as a use of the operand that
it names (DESIGN CHOICE, log 52). -/
def Cell.legal (int : Bool) (c : Cell) : Bool :=
  c.op.toNat ≤ 11 && c.fn.toNat ≤ c.maxFn && (c.usesZ || c.zs == 0) && (c.op != 0 || c.ys == 0) &&
    (!int || c.op != 10 || c.fn == 4 || c.fn == 5)

/-- Cells after the first NONE are NONE (R90). -/
def cellsOrdered : List Cell → Bool
  | [] => true
  | c :: cs => if c.op = 0 then cs.all (fun d => d.op == 0) else cellsOrdered cs

/-- The chain has a CMP cell. -/
def V0Slot.hasCmp (v : V0Slot) : Bool := v.cells.any fun c => c.op == 6

/-- The chain has a SEL cell. -/
def V0Slot.hasSel (v : V0Slot) : Bool := v.cells.any fun c => c.op == 7

def V0Slot.usesB (v : V0Slot) : Bool := v.cells.any fun c => c.uses 0

def V0Slot.usesC (v : V0Slot) : Bool := v.cells.any fun c => c.uses 1

/-- State class to a 32-bit destination is illegal (R140). -/
def clsOk (dcls : BitVec 2) (f : Fmt) : Bool := !(dcls == 2 && f.bytes == 4)

/-- The V0 slot by its own bits (R88 to R95, R140, R163). -/
def V0Slot.legal (v : V0Slot) : Bool :=
  v.isNop ||
  match Fmt.ofCode v.sfmt, Fmt.ofCode v.cfmt, Fmt.ofCode v.dfmt with
  | some sf, some cf, some df =>
    v.major == 1 && v.rsv == 0 && v.rm != 3 && v.cell1.op != 0 && cellsOrdered v.cells &&
      v.cells.all (Cell.legal sf.isInt) && !sf.isMx && !cf.isMx && !df.isMx &&
      sf.isInt == cf.isInt && sf.isInt == df.isInt && (!sf.isInt || v.wide == 0) &&
      opOk v.a && srcOk v.usesB v.b && srcOk v.usesC v.c && dstOk v.d &&
      (v.hasCmp || v.hasSel || v.kd == 0) && clsOk v.dcls df
  | _, _, _ => false

/-! ### V1 -/

/-- A V1 slot with every bit zero (R80). -/
def V1Slot.isNop (v : V1Slot) : Bool := decide (v =
  ({ rsv := 0, fn := 0, ts := 0, aux := 0, km := 0, rm := 0, dcls := 0, dfmt := 0, sfmt := 0, dst := 0
     src2 := 0, src1 := 0, major := 0 } : V1Slot))

/-- E4M3 and E5M2 alone (R159). -/
def Machine.Fmt.isFp8 : Fmt → Bool
  | .e4m3 | .e5m2 => true
  | _ => false

/-- Fields common to every V1 major: TS, AUX and SRC2 where unused are zero; DST's NW where allowed. -/
def V1Slot.shape (v : V1Slot) (ts aux src2 nw : Bool) : Bool :=
  v.rsv == 0 && v.rm != 3 && (ts || v.ts == 0) && (aux || v.aux == 0) && opOk v.src1 &&
    srcOk src2 v.src2 && dstOk v.dst && (nw || !v.dst.getLsbD 7)

/-- Each V1 major's formats and FN (R97, R159, R196, R221, R222, R290). -/
def V1Slot.legal (v : V1Slot) : Bool :=
  v.isNop ||
  match Fmt.ofCode v.sfmt, Fmt.ofCode v.dfmt with
  | some sf, some df =>
    let fn := v.fn.toNat
    clsOk v.dcls df &&
    match v.major.toNat with
    | 1 => sf.isFloat && df.isFloat && fn ≤ 1 && v.shape true false false true
    | 2 => sf.isFloat && df.isFloat && fn ≤ 1 && v.shape true false true true
    | 3 =>
      match fn with
      | 0 => !sf.isMx && !df.isMx && v.shape false false false true
      | 1 => !sf.isMx && !df.isMx && sf.isFp8 != df.isFp8 && v.shape false false false true
      | 2 => sf.isMx != df.isMx && v.shape false false true true && !(df.isMx && v.src2.getLsbD 7)
      | _ => false
    | 4 =>
      !sf.isMx && !df.isMx && fn % 8 ≤ 4 && (fn / 32) % 4 == 0 && (fn % 8 == 4 || sf.isInt == df.isInt) &&
        !(sf.isInt && v.fn.getLsbD 3) && v.shape false false (v.fn.getLsbD 7) true
    | 5 =>
      sf.isFloat && df.isFloat && fn % 4 ≤ 2 && (v.fn &&& 0x74#8) == 0 && v.ts.toNat < 4 &&
        v.shape true false false true
    | 6 =>
      sf.isFloat && df.isFloat && (v.fn &&& 0x77#8) == 0 && v.ts.toNat < 4 && v.shape true false true true
    | 7 => !sf.isMx && df == sf && fn == 0 && v.rm == 0 && v.shape false false true true
    | 8 => !sf.isMx && df == sf && fn ≤ 1 && v.rm == 0 && v.shape false false false true
    | 9 | 10 => !sf.isMx && df == sf && fn == 0 && v.rm == 0 && v.shape false true false true
    | 11 =>
      !sf.isMx && fn ≤ 7 && (if v.fn.getLsbD 2 then df == .int16 || df == .int32 else df == sf) &&
        v.rm == 0 && v.shape false true true true
    | 12 =>
      sf == .bf16 && df == .bf16 && fn ≤ 1 && v.dcls == 2 && !v.src1.getLsbD 7 && v.src2.getLsbD 7 &&
        v.shape false (fn == 0) true false
    | 13 =>
      sf == .bf16 && df == .f32 && fn ≤ 1 && v.dcls == 1 && !v.src1.getLsbD 7 &&
        v.shape false false false false
    | 14 =>
      (sf == .bf16 || sf == .f16 || sf == .f32) && (df == .bf16 || df == .f16) && fn ≤ 1 && v.dcls == 2 &&
        !v.src1.getLsbD 7 && !v.src2.getLsbD 7 && v.src2.toNat % 16 ≤ 13 && v.shape false false true false
    | _ => false
  | _, _ => false

/-! ### M -/

/-- An M slot with every bit zero. -/
def MSlot.isNop (m : MSlot) : Bool := decide (m =
  ({ rsv := 0, imm := 0, sreg := 0, xs := 0, km := 0, pi := 0, mfmt := 0, esr := 0, dsc := 0, hs := 0
     major := 0 } : MSlot))

/-- The fields that a major uses, as flags; a field that it does not use is zero (R101). -/
structure MUse where
  imm : Bool := false
  sreg : Bool := false
  xs : Bool := false
  km : Bool := false
  pi : Bool := false
  mfmt : Bool := false
  esr : Bool := false
  dsc : Bool := false
  hs : Bool := false
deriving DecidableEq, Repr

/-- Which fields each M major uses (R67, R101, R135). PREF uses what shapes the footprint of a load: DSC, ESR, MFMT and
KM; its IMM, XS, HS and PI must be zero (R101; DESIGN CHOICE, log 57). -/
def MSlot.use (m : MSlot) (mx : Bool) : Option MUse :=
  match m.major.toNat with
  | 1 | 2 => some { hs := true, dsc := true, esr := true, mfmt := true, km := true, pi := true, xs := mx }
  | 3 | 4 => some { hs := true, dsc := true, mfmt := true, km := true, pi := true, xs := true }
  | 5 | 11 | 12 => some { hs := true, imm := true }
  | 6 => some { hs := true }
  | 7 | 8 => some { hs := true, sreg := true, imm := true }
  | 9 | 10 => some { hs := true, sreg := true, mfmt := true }
  | 13 | 17 | 18 => some { dsc := true, imm := true, pi := true }
  | 15 | 16 => some { dsc := true, pi := true }
  | 14 => some { imm := true }
  | 19 => some { dsc := true, esr := true, mfmt := true, km := true }
  | 20 => some {}
  | _ => none

/-- The M slot by its own bits (R100 to R104, R136). A major that uses IMM uses all of it: bits of the field that
it does not name are ignored (DESIGN CHOICE, log 44). XS of an MX LD is a destination field, in which NW is legal
(R83, R84). -/
def MSlot.legal (m : MSlot) : Bool :=
  m.isNop ||
  match Fmt.ofCode m.mfmt with
  | none => false
  | some f =>
    match m.use f.isMx with
    | none => false
    | some u =>
      m.rsv == 0 && (u.imm || m.imm == 0) && (u.sreg || m.sreg == 0) && (u.km || m.km == 0) &&
        (u.pi || m.pi == 0) && (u.mfmt || m.mfmt == 0) && (u.esr || m.esr == 0) && (u.dsc || m.dsc == 0) &&
        srcOk u.hs m.hs && !m.hs.getLsbD 7 && srcOk u.xs m.xs &&
        !(f.isMx && ((m.major.toNat ≤ 2 && m.esr != 0) || m.major == 3 || m.major == 4)) &&
        (!(f.isMx && m.major == 1) || dstOk m.xs)

/-! ### S -/

/-- An S slot with every bit zero. -/
def SSlot.isNop (v : SSlot) : Bool := decide (v = ({ imm := 0, sb := 0, sa := 0, sd := 0, major := 0 } : SSlot))

/-- Which of SD, SA, SB, IMM a major uses (R105, R106). -/
def SSlot.use (v : SSlot) : Option (Bool × Bool × Bool × Bool) :=
  match v.major.toNat with
  | 0x02 | 0x03 | 0x04 | 0x05 | 0x06 | 0x07 | 0x0C | 0x0D => some (true, true, true, false)
  | 0x01 | 0x08 | 0x09 | 0x0A | 0x0B | 0x10 | 0x1A | 0x1B => some (true, true, false, true)
  | 0x11 => some (true, true, false, false)
  | 0x12 | 0x1D => some (false, true, false, true)
  | 0x13 => some (false, true, true, true)
  | 0x14 => some (false, true, false, false)
  | 0x15 => some (true, false, false, false)
  | 0x18 => some (false, false, false, true)
  | 0x19 | 0x1C => some (true, false, false, true)
  | 0x1E => some (false, false, false, false)
  | _ => none

/-- The S slot by its own bits (R105 to R108). A major that uses IMM uses all of it: bits of the field that it does
not name are ignored (DESIGN CHOICE, log 44). -/
def SSlot.legal (v : SSlot) : Bool :=
  v.isNop ||
  match v.use with
  | none => false
  | some (sd, sa, sb, imm) =>
    (sd || v.sd == 0) && (sa || v.sa == 0) && (sb || v.sb == 0) && (imm || v.imm == 0) &&
      !(v.major == 0x10 && v.imm.toNat % 4 == 3) && !(v.major == 0x1A && v.imm.toNat / 256 > 3)

/-- A bundle whose every slot is legal by its own bits (R38). -/
def Bundle.legal (b : Bundle) : Bool := b.v0.legal && b.v1.legal && b.m.legal && b.s.legal

/-- V1 majors that are heavy (R250). -/
def Bundle.heavy (b : Bundle) : Bool :=
  b.v1.major == 1 || b.v1.major == 2 || b.v1.major == 6 || b.v1.major == 12 || b.v1.major == 13

/-! ### Which instruction a slot carries -/

/-- The row of an instruction: its slot and major opcode (R88, R97, R101, R106). -/
inductive Row where
  | nop
  | v0
  | v1 (major : Nat)
  | m (major : Nat)
  | s (major : Nat)
deriving DecidableEq, Repr

/-- Whether the bundle carries the row's instruction. The row NOP stands for a bundle with a no-op slot,
and for one that no row names because a slot's major is unassigned. -/
def Bundle.carries (b : Bundle) : Row → Bool
  | .nop =>
    b.v0.major == 0 || b.v1.major == 0 || b.m.major == 0 || b.s.major == 0 ||
      (b.v0.major != 1 && b.v1.major.toNat > 14 && b.m.major.toNat > 20 && b.s.use.isNone)
  | .v0 => b.v0.major == 1
  | .v1 k => b.v1.major.toNat == k
  | .m k => b.m.major.toNat == k
  | .s k => b.s.major.toNat == k

end Sys2Proof
end

