-- ==== Sys2Proof/Decode.lean ====
section
/-!
DEFINITION. The bundle's bits (R79 to R105) as 256-bit words and as eight store words of 32 bits (R82),
and the table-word decoder of the host: the opcode table gives no row any bits.
-/

namespace Sys2Proof

/-- One cell as its 11 bits (R89). -/
def Cell.encode (c : Cell) : BitVec 11 := c.op ++ c.fn ++ c.ys ++ c.zs

/-- One cell from its 11 bits. -/
def Cell.decode (w : BitVec 11) : Cell :=
  { op := w.extractLsb' 7 4, fn := w.extractLsb' 4 3, ys := w.extractLsb' 2 2, zs := w.extractLsb' 0 2 }

/-- The V0 slot as its 96 bits (R88). -/
def V0Slot.encode (v : V0Slot) : BitVec 96 :=
  v.mp ++ v.km ++ v.kd ++ v.dcls ++ v.rm ++ v.wide ++ v.dfmt ++ v.cfmt ++ v.sfmt ++ v.d ++ v.c ++ v.b ++
    v.a ++ v.rsv ++ v.cell3.encode ++ v.cell2.encode ++ v.cell1.encode ++ v.major

/-- The V0 slot from its 96 bits. -/
def V0Slot.decode (w : BitVec 96) : V0Slot :=
  { mp := w.extractLsb' 95 1, km := w.extractLsb' 92 3, kd := w.extractLsb' 89 3
    dcls := w.extractLsb' 87 2, rm := w.extractLsb' 85 2, wide := w.extractLsb' 84 1
    dfmt := w.extractLsb' 80 4, cfmt := w.extractLsb' 76 4, sfmt := w.extractLsb' 72 4
    d := w.extractLsb' 64 8, c := w.extractLsb' 56 8, b := w.extractLsb' 48 8, a := w.extractLsb' 40 8
    rsv := w.extractLsb' 39 1, cell3 := Cell.decode (w.extractLsb' 28 11)
    cell2 := Cell.decode (w.extractLsb' 17 11), cell1 := Cell.decode (w.extractLsb' 6 11)
    major := w.extractLsb' 0 6 }

/-- The V1 slot as its 64 bits (R96). -/
def V1Slot.encode (v : V1Slot) : BitVec 64 :=
  v.rsv ++ v.fn ++ v.ts ++ v.aux ++ v.km ++ v.rm ++ v.dcls ++ v.dfmt ++ v.sfmt ++ v.dst ++ v.src2 ++
    v.src1 ++ v.major

/-- The V1 slot from its 64 bits. -/
def V1Slot.decode (w : BitVec 64) : V1Slot :=
  { rsv := w.extractLsb' 60 4, fn := w.extractLsb' 52 8, ts := w.extractLsb' 48 4
    aux := w.extractLsb' 45 3, km := w.extractLsb' 42 3, rm := w.extractLsb' 40 2
    dcls := w.extractLsb' 38 2, dfmt := w.extractLsb' 34 4, sfmt := w.extractLsb' 30 4
    dst := w.extractLsb' 22 8, src2 := w.extractLsb' 14 8, src1 := w.extractLsb' 6 8
    major := w.extractLsb' 0 6 }

/-- The M slot as its 64 bits (R100). -/
def MSlot.encode (m : MSlot) : BitVec 64 :=
  m.rsv ++ m.imm ++ m.sreg ++ m.xs ++ m.km ++ m.pi ++ m.mfmt ++ m.esr ++ m.dsc ++ m.hs ++ m.major

/-- The M slot from its 64 bits. -/
def MSlot.decode (w : BitVec 64) : MSlot :=
  { rsv := w.extractLsb' 50 14, imm := w.extractLsb' 42 8, sreg := w.extractLsb' 37 5
    xs := w.extractLsb' 29 8, km := w.extractLsb' 26 3, pi := w.extractLsb' 25 1
    mfmt := w.extractLsb' 21 4, esr := w.extractLsb' 18 3, dsc := w.extractLsb' 14 4
    hs := w.extractLsb' 6 8, major := w.extractLsb' 0 6 }

/-- The S slot as its 32 bits (R105). -/
def SSlot.encode (v : SSlot) : BitVec 32 := v.imm ++ v.sb ++ v.sa ++ v.sd ++ v.major

/-- The S slot from its 32 bits. -/
def SSlot.decode (w : BitVec 32) : SSlot :=
  { imm := w.extractLsb' 21 11, sb := w.extractLsb' 16 5, sa := w.extractLsb' 11 5
    sd := w.extractLsb' 6 5, major := w.extractLsb' 0 6 }

/-- A bundle as its 256 bits (R79). -/
def Bundle.encode (b : Bundle) : BitVec 256 := b.v0.encode ++ b.v1.encode ++ b.m.encode ++ b.s.encode

/-- A bundle from its 256 bits: every pattern is a bundle; legality is a matter of R38. -/
def Bundle.decode (w : BitVec 256) : Bundle :=
  { v0 := V0Slot.decode (w.extractLsb' 160 96), v1 := V1Slot.decode (w.extractLsb' 96 64)
    m := MSlot.decode (w.extractLsb' 32 64), s := SSlot.decode (w.extractLsb' 0 32) }

/-- Bundle `i` of a store image held as 32-bit words, lowest first (R82). -/
def Bundle.ofStore (store : SMap Word) (i : Nat) : Bundle :=
  Bundle.decode (store.get 0 (8 * i + 7) ++ store.get 0 (8 * i + 6) ++ store.get 0 (8 * i + 5) ++
    store.get 0 (8 * i + 4) ++ store.get 0 (8 * i + 3) ++ store.get 0 (8 * i + 2) ++
    store.get 0 (8 * i + 1) ++ store.get 0 (8 * i))

/-- The command that a word spells by the opcode table's bits. No row of the table has bits: none. -/
def decodeTableWord (_nbits _w : Nat) : Option Instr := none

end Sys2Proof
end

