-- ==== Sys2Proof/Machine/Flags.lean ====
section
/-!
DEFINITION. Flags, counters, sticky bits, the guard and the settling of a command (R34, R144, R156, R157,
R306, R307, R400 to R412).
-/

namespace Sys2Proof.Machine

/-! ### Pages -/

/-- The header of a page. -/
def State.page (s : State) (p : Nat) : PageHdr := s.pages[p]?.getD (PageHdr.reset p)

/-- The sticky word of a page (R401). -/
def State.sticky (s : State) (p : Nat) : Word := (s.page p).sticky

def State.setPage (s : State) (p : Nat) (h : PageHdr) : State :=
  { s with pages := s.pages.setIfInBounds p h }

/-- Sets sticky bit `b` of page `p` (R401). -/
def State.mark (s : State) (p b : Nat) : State :=
  s.setPage p { s.page p with sticky := (s.page p).sticky ||| BitVec.ofNat 32 (2 ^ b) }

/-- Sets a sticky bit when `c` holds. -/
def State.markIf (s : State) (c : Bool) (p b : Nat) : State := if c then s.mark p b else s

/-- STORE_BUSY of each page that has one (R397, R421 and the page tables). -/
def State.storeBusy (s : State) (p : Nat) : State :=
  match p with
  | 1 => s.mark 1 11
  | 2 => s.mark 2 3
  | 3 => s.mark 3 3
  | 4 => s.mark 4 6
  | 5 => s.mark 5 6
  | 7 => s.mark 7 12
  | 8 => s.mark 8 3
  | 9 => s.mark 9 7
  | 10 => s.mark 10 6
  | 12 => s.mark 12 2
  | 13 => s.mark 13 6
  | 15 => s.mark 15 2
  | _ => s

/-! ### Counters (R405 to R408) -/

/-- The counters in the order of R405. -/
inductive Ctr where
  | sat (cls : Nat)
  | vanish (cls : Nat)
  | perm
  | gcmpOvf
  | retry
  | corrErr
  | darnLost
  | updNan
  | updBlocked
  | picotDrop
  | hoopCorr
  | stale
  | gone
  | sendDiscard
  | markLost
  | mismatch
  | skip
  | refused
  | sealFail
deriving DecidableEq, Repr

def Ctr.index : Ctr → Nat
  | .sat c => c
  | .vanish c => 4 + c
  | .perm => 8
  | .gcmpOvf => 9
  | .retry => 10
  | .corrErr => 11
  | .darnLost => 12
  | .updNan => 13
  | .updBlocked => 14
  | .picotDrop => 15
  | .hoopCorr => 16
  | .stale => 17
  | .gone => 18
  | .sendDiscard => 19
  | .markLost => 20
  | .mismatch => 21
  | .skip => 22
  | .refused => 23
  | .sealFail => 24

/-- The maximum of counter `i`: the first ten are 48 bits wide (R405). -/
def ctrMax (i : Nat) : Nat := if i < 10 then 2 ^ 48 - 1 else 2 ^ 32 - 1

def State.counter (s : State) (c : Ctr) : Nat := s.trouble.counters[c.index]?.getD 0

/-- Adds `n` events to a counter: it stays at its maximum and CNT_FULL is set when it comes to stand
there (R407). -/
def State.bump (s : State) (c : Ctr) (n : Nat) : State :=
  if n = 0 then s
  else
    let v := min (s.counter c + n) (ctrMax c.index)
    let t := { s with trouble := { s.trouble with counters := s.trouble.counters.setIfInBounds c.index v } }
    t.markIf (v == ctrMax c.index) 14 16

/-! ### The guard and the flags -/

/-- A gradient-class OF or NV, or GUARD_SET (R306, R307). -/
def State.guardRaise (s : State) : State :=
  match s.clock.frozenGuard with
  | some _ => s.mark 14 9
  | none =>
    if s.trouble.guardBit then s
    else ({ s with trouble := { s.trouble with guardBit := true } } : State).mark 14 6

/-- TROUBLE.GUARD as it reads (R402). -/
def State.guardReads (s : State) : Bool := s.clock.frozenGuard.getD s.trouble.guardBit

/-- The nibble of raised flags: [3] OF, [2] UF, [1] NX, [0] NV (R400). -/
def Raises.nibble (r : Raises) : Nat :=
  (if r.ovf then 8 else 0) + (if r.unf then 4 else 0) + (if r.nx then 2 else 0) + (if r.nv then 1 else 0)

/-- Charges raises and counts to a class: 0 activation, 1 gradient, 2 state, 3 other (R157, R400). -/
def State.raise (s : State) (cls : Nat) (r : Raises) : State :=
  let t := { s with trouble := { s.trouble with
    flags := s.trouble.flags ||| BitVec.ofNat 16 (r.nibble * 2 ^ (4 * cls)) } }
  let u := (t.bump (.sat cls) r.sat).bump (.vanish cls) r.van
  if cls = 1 && (r.ovf || r.nv) then u.guardRaise else u

/-- Flag bits raised with no counts. -/
def State.raiseNv (s : State) (cls : Nat) : State := s.raise cls Raises.invalid

/-! ### Capability figures and settling -/

def countTrue {n : Nat} (v : Vector Bool n) : Nat := (v.toList.filter id).length

/-- The number of active panels (R31). -/
def State.active (s : State) : Nat := s.panelMap.length

/-- Whether a hoop is present. -/
def State.hoopPresent (s : State) (h : Nat) : Bool := s.hoopMeta.present[h]?.getD false

/-- The IDENT figures that can fall (R31): ACTIVE, spare panels, hoops present, spare slabs free, spare
leaves, spare scale slots. -/
def State.figures (s : State) : Nat × Nat × List Bool × List Bool × Nat × Nat :=
  (s.active, (s.panels.toList.filter (· == PanelState.spare)).length, s.hoopMeta.present.toList,
    s.hoopMeta.spare.toList.map (· == SpareSlab.free),
    (s.motif.spares.toList.filter (· == SpareLeaf.free)).length, s.scale.spareFree)

/-- CAP_GEN and CAP_CHANGE when a figure has changed since `s0` (R34), unless the events between have already
counted and marked themselves: each event of a command that holds several applies it to itself. -/
def State.settleCap (s0 s : State) : State :=
  if s.figures = s0.figures ∨ (s.capGen ≠ s0.capGen ∧ (s.sticky 0).getLsbD 0 = true) then s
  else ({ s with capGen := s.capGen + 1 } : State).mark 0 0

/-- Every event in the trigger queue is refused: its tile is released and UNBOUND sets (R247). -/
def State.refuseTriggers (s : State) : State :=
  match s.edging.trig with
  | [] => s
  | ts =>
    let own := s.edging.tiles.filter fun x => x.use != .program
    let n := own.length - (ts.filter fun t => !t.arrival).length
    ({ s with edging := { s.edging with
                trig := [], tiles := own.take n ++ s.edging.tiles.filter fun x => x.use == .program }
              outbox := s.outbox ++ (own.drop n).map fun x => .tileRelease x.tag } : State).mark 7 0

/-- ENGINE_DOWN when no panel or no hoop is left (R45), which refuses the waiting triggers. -/
def State.settleDown (s : State) : State :=
  if s.active = 0 || !(s.hoopMeta.present.toList.any id) then
    ({ s with trouble := { s.trouble with engineDown := true } } : State).refuseTriggers
  else s

/-- The lowest bit set in a word. -/
def lowBit (w : Word) : Option Nat := (List.range 32).find? fun i => w.getLsbD i

/-- The lowest page and bit that is set in `s` and clear in `s0` (R404). -/
def State.firstNew (s0 s : State) : Option (Nat × Nat) :=
  (List.range 16).findSome? fun p => (lowBit (s.sticky p &&& ~~~ (s0.sticky p))).map fun b => (p, b)

/-- FIRST records the first new sticky bit while VALID is clear (R404). -/
def State.settleFirst (s0 s : State) : State :=
  if s.trouble.first.getLsbD 31 then s
  else
    match State.firstNew s0 s with
    | none => s
    | some (p, b) =>
      { s with trouble := { s.trouble with
        first := BitVec.ofNat 32 (2 ^ 31 + p * 2 ^ 20 + b), firstStep := s.twist.step } }

/-- What every command does last: the figures, ENGINE_DOWN and FIRST. During a reset nothing settles. -/
def State.settle (s0 s : State) : State :=
  if s.resetting.isSome || !s.powered then s
  else State.settleFirst s0 (State.settleDown (State.settleCap s0 s))

/-- A meaning: the effect on the state, settled. -/
def act (f : State → State) (s : State) : Host.Outcome State Fault Refusal := .next (State.settle s (f s))

/-! ### Interrupt lines (R411, R413) -/

/-- A page's enabled sticky bits that assert the trouble line (R411). -/
def State.asserting (s : State) (p : Nat) : Bool :=
  let w := s.sticky p &&& (s.page p).en
  (if p = 8 then w &&& 0xFFFFFFFE#32 else w) != 0

/-- The trouble line. -/
def State.troubleLine (s : State) : Bool :=
  (List.range 16).any s.asserting || s.trouble.engineDown || s.trouble.laneHard

/-- The partner-change line. -/
def State.partnerLine (s : State) : Bool := (s.sticky 8 &&& (s.page 8).en).getLsbD 0

end Sys2Proof.Machine
end

