-- ==== Sys2Proof/Machine/Mem.lean ====
section
/-!
DEFINITION. Bytes and storage: little-endian codes (R6), ranges of a sparse byte array, the fabric map
(R16) and the check polynomial of a mark frame (R312).
-/

namespace Sys2Proof.Machine

/-- The number that a list of bytes spells, lowest byte first (R6). -/
def leNat : List Byte → Nat
  | [] => 0
  | b :: t => b.toNat + 256 * leNat t

/-- The low `n` bytes of a number, lowest first (R6). -/
def leBytes : Nat → Nat → List Byte
  | 0, _ => []
  | n + 1, v => BitVec.ofNat 8 v :: leBytes n (v / 256)

/-- The words of a list of bytes, four at a time, lowest byte first. -/
def bytesToWords (bs : List Byte) : List Word := (cut 4 bs).map fun g => BitVec.ofNat 32 (leNat g)

/-- The bytes of a list of words (R6). -/
def wordsToBytes (ws : List Word) : List Byte := ws.flatMap fun w => leBytes 4 w.toNat

/-- `n` consecutive bytes of a sparse byte array from `lo`, in one pass over the array: the bytes are laid
out over a list of zeros. -/
def slice (m : SMap Byte) (lo n : Nat) : List Byte :=
  let inside := (m.filter fun c => lo ≤ c.1 && c.1 < lo + n).reverse
  let step := fun (acc : List Byte × Nat) (c : Nat × Byte) =>
    (c.2 :: (List.replicate (acc.2 - (c.1 + 1)) 0 ++ acc.1), c.1)
  let r := inside.foldl step ([], lo + n)
  List.replicate (r.2 - lo) 0 ++ r.1

/-- The cells of consecutive bytes from `lo`, zeros left out. -/
def cellsOf : Nat → List Byte → SMap Byte
  | _, [] => []
  | lo, b :: t => if b = 0 then cellsOf (lo + 1) t else (lo, b) :: cellsOf (lo + 1) t

/-- A sparse byte array with the bytes from `lo` on replaced. -/
def splice (m : SMap Byte) (lo : Nat) (bs : List Byte) : SMap Byte :=
  (m.filter fun c => c.1 < lo) ++ cellsOf lo bs ++ m.filter fun c => lo + bs.length ≤ c.1

/-- The bytes written one after another from `lo`. -/
def setBytes (m : SMap Byte) (lo : Nat) : List Byte → SMap Byte
  | [] => m
  | b :: t => setBytes (m.set 0 lo b) (lo + 1) t

/-- `n` bytes from `lo`, one lookup each. -/
def getBytes (m : SMap Byte) (lo n : Nat) : List Byte := (List.range n).map fun i => m.get 0 (lo + i)

/-- The fabric map (R16). -/
def target (a : Nat) : Target :=
  if a < 0x80000000 then .sram (a / 0x20000000)
  else if 0x10000000000 ≤ a && a < 0x1B2D05E0000 then .dram
  else .unmapped

/-- An address modulo 2^48 (R59, R67). -/
def wrap48 (a : Int) : Nat := (a % 2 ^ 48).toNat

/-- CRC-8 with polynomial 0x07 and initial value 0 over `n` bits of `v`, most significant first (R312). -/
def crc8 : Nat → Nat → Nat → Nat
  | 0, _, c => c
  | n + 1, v, c =>
    let top := (c.testBit 7) != (v.testBit n)
    let c' := (c * 2) % 256
    crc8 n v (if top then c' ^^^ 0x07 else c')

/-- The check of a frame: step, code and SEQ in that order (R312). -/
def Frame.check (f : Frame) : Nat :=
  crc8 60 ((f.step ++ f.code ++ f.seq).toNat) 0

end Sys2Proof.Machine
end

