-- ==== Sys2Proof/Machine/Ops.lean ====
section
/-!
DEFINITION. Named operations over the state: plain registers of the pages, the streams' contexts, masks,
hoops and slabs with their spare, storage errors, fabric bytes, the darn log and the arbiter.
-/

namespace Sys2Proof.Machine

/-! ### Plain page registers -/

/-- Reset values of the plain registers that are not zero (R426, R430, R442, R447, R453, R413). -/
def regReset (p off : Nat) : Word :=
  match p, off with
  | 1, 0x048 => 0x002932E0
  | 3, 0x04C => 16
  | 8, 0x054 => 0x00010000
  | 8, 0x058 => 0x00010000
  | 10, 0x048 => 0x002932E0
  | 13, 0x040 => 0x0007A120
  | 14, 0x050 => 0xF
  | _, _ => 0

/-- A plain register. It is held as its difference from its reset value, so reset lists nothing. -/
def State.reg (s : State) (p off : Nat) : Word := s.regs.get 0 (p * 4096 + off) ^^^ regReset p off

/-- A plain register written. -/
def State.setReg (s : State) (p off : Nat) (v : Word) : State :=
  { s with regs := s.regs.set 0 (p * 4096 + off) (v ^^^ regReset p off) }

/-- Bits [hi:lo] of a word as a number. -/
def bits (w : Word) (hi lo : Nat) : Nat := (w.toNat / 2 ^ lo) % 2 ^ (hi + 1 - lo)

/-- Word `k` of binding `b` (R438). -/
def State.bindWord (s : State) (b k : Nat) : Word := s.reg 7 (0x100 + 64 * b + 4 * k)

/-- ARMED of binding `b`. -/
def State.armed (s : State) (b : Nat) : Bool := (s.bindWord b 0).getLsbD 31

/-- Whether any binding is armed. -/
def State.anyArmed (s : State) : Bool := (List.range 8).any s.armed

/-- The direct port is in use: ME_SRC is OWN and ACC_PORT_EN is 1 (R273). -/
def State.directPort (s : State) : Bool :=
  s.partner.coupling.accPortEn && s.partner.coupling.meSrc == 0xFE#8

/-- The step state is OPEN. -/
def State.stepOpen (s : State) : Bool := s.clock.isOpen

/-- This engine's address word (R282) with stream `st`: package [36:22], WZ [21:15], stream [14:0]. -/
def addrWord (package : BitVec 15) (wz : BitVec 7) (st : BitVec 15) : BitVec 37 := package ++ wz ++ st

/-! ### Widths -/

def EW.bytes : EW → Nat
  | .w8 => 1
  | .w16 => 2
  | .w32 => 4

/-- VLMAX at an element width of `w` bytes (R32). -/
def State.vlmaxAt (s : State) (w : Nat) : Nat := 64 * s.active * (4 / w)

def State.vlmax (s : State) (ew : EW) : Nat := s.vlmaxAt ew.bytes

/-! ### Contexts -/

/-- The context of a stream. -/
def State.ctxOf (s : State) (st : Stream) : Ctx :=
  match st with
  | .main => s.ctx
  | .edge => (s.edging.run.map (·.ctx)).getD Ctx.reset

/-- The context of a stream changed. -/
def State.modCtx (s : State) (st : Stream) (f : Ctx → Ctx) : State :=
  match st with
  | .main => { s with ctx := f s.ctx }
  | .edge => { s with edging := { s.edging with run := s.edging.run.map fun r => { r with ctx := f r.ctx } } }

/-- A scalar register; S0 reads zero (R66). -/
def Ctx.sreg (c : Ctx) (k : BitVec 5) : BitVec 64 := if k = 0 then 0 else c.sregs[k.toNat]?.getD 0

/-- A scalar register written; writes to S0 are discarded (R66). -/
def Ctx.setS (c : Ctx) (k : BitVec 5) (v : BitVec 64) : Ctx :=
  if k = 0 then c else { c with sregs := c.sregs.setIfInBounds k.toNat v }

/-- A stride register; ES0 reads +1 (R59). -/
def Ctx.stride (c : Ctx) (k : Nat) : Word := if k = 0 then 1 else c.es[k]?.getD 1

/-- A stride register written; writes to ES0 are discarded (R59). -/
def Ctx.setEs (c : Ctx) (k : Nat) (v : Word) : Ctx := if k = 0 then c else { c with es := c.es.setIfInBounds k v }

def Ctx.descAt (c : Ctx) (k : Nat) : Desc := c.desc[k]?.getD ⟨0, 0⟩

def Ctx.setDesc (c : Ctx) (k : Nat) (d : Desc) : Ctx := { c with desc := c.desc.setIfInBounds k d }

/-- PITCH added to BASE modulo 2^48 (R67). -/
def Desc.post (d : Desc) : Desc := { d with base := d.base + d.pitch.signExtend 48 }

/-- The clamp of a stream's VL and ROWSHAPE to a fallen VLMAX (R42, R56). -/
def State.clampOne (s : State) (st : Stream) : State :=
  let c := s.ctxOf st
  let m := s.vlmax c.ew
  ((s.modCtx st fun c => { c with vl := min c.vl m, rowshape := min c.rowshape m }).markIf (c.vl > m) 2 0).markIf
    (c.rowshape > m) 2 1

/-- Both streams clamped (R42). -/
def State.clampLengths (s : State) : State := (s.clampOne .main).clampOne .edge

/-- The logical coordinate of element `i` (R87, R249). -/
def Ctx.coord (c : Ctx) (i : Nat) : BitVec 48 :=
  if c.twPitch = 0 then c.base + BitVec.ofNat 48 i
  else c.base + BitVec.ofNat 48 ((i / 128) * c.twPitch.toNat + i % 128)

/-! ### Masks -/

/-- A mask register; K0 reads all ones (R61). -/
def State.mask (s : State) (k : Nat) : BitVec 4096 :=
  if k = 0 then BitVec.allOnes 4096 else s.masks[k]?.getD 0

/-- A mask register written; writes to K0 are discarded (R61). -/
def State.setMask (s : State) (k : Nat) (m : BitVec 4096) : State :=
  if k = 0 then s else { s with masks := s.masks.setIfInBounds k m }

/-- The first `n` bits of a mask as Booleans. -/
def maskBits (m : BitVec 4096) (n : Nat) : List Bool := (List.range n).map fun i => m.getLsbD i

/-- A mask whose first bits are replaced where the list gives a bit (R54, R62). -/
def maskWrite (old : BitVec 4096) (vals : List (Option Bool)) : BitVec 4096 :=
  let n := vals.length
  let low := vals.zipIdx.foldl
    (fun acc (p : Option Bool × Nat) => if p.1.getD (old.getLsbD p.2) then acc + 2 ^ p.2 else acc) 0
  ((old >>> n) <<< n) ||| BitVec.ofNat 4096 low

/-! ### Hoops -/

/-- The physical slab that holds slab `k` of hoop `h`: 16 is the spare (R73). -/
def State.physSlab (s : State) (h k : Nat) : Nat :=
  match s.hoopMeta.spare[h]? with
  | some (.inUse j) => if j = k then 16 else k
  | _ => k

/-- The byte index of a physical slab. -/
def slabKey (h phys : Nat) : Nat := (h * 17 + phys) * 4096

def State.slabBase (s : State) (h k : Nat) : Nat := slabKey h (s.physSlab h k)

/-- The first `n` bytes of a slab. -/
def State.slabBytes (s : State) (h k n : Nat) : List Byte := slice s.hoops (s.slabBase h k) n

/-- The bits of a 64-bit word with its check bits that a write of the bytes that `on` names leaves as they are:
none of them when no byte is named (log 10). -/
def keptBits (on : Nat → Bool) : BitVec 72 :=
  if (List.range 8).any on then
    (List.range 8).foldl (fun (m : BitVec 72) j => if on j then m else m ||| (0xFF#72 <<< (8 * j))) 0
  else BitVec.allOnes 72

/-- Storage errors of an array after a write of the bytes that `on` names: a written byte loses its flips, the
check bits are formed afresh, and a kept byte keeps its flips (R62, R70, log 10). -/
def soundBytes (l : List EccErr) (t : EccTarget) (on : Nat → Bool) : List EccErr :=
  l.filterMap fun e =>
    if e.target == t then
      (let f := e.flips &&& keptBits fun j => on (e.word * 8 + j)
       if f = 0 then none else some { e with flips := f })
    else some e

/-- Bytes from the start of a slab replaced: each byte written is sound (log 10). -/
def State.writeSlab (s : State) (h k : Nat) (bs : List Byte) : State :=
  let lo := s.slabBase h k
  { s with hoops := splice s.hoops lo bs, ecc := soundBytes s.ecc .hoop fun a => lo ≤ a && a < lo + bs.length }

/-- A 32-bit word written: its bytes are sound, with the check bits formed afresh (log 10). -/
def State.soundHalf (s : State) (t : EccTarget) (i : Nat) : State :=
  { s with ecc := soundBytes s.ecc t fun a => a / 4 == i }

/-- Bytes from the start of a slab replaced, of which only those that `on` names are written (R62). -/
def State.mergeSlab (s : State) (h k : Nat) (bs : List Byte) (on : Nat → Bool) : State :=
  let lo := s.slabBase h k
  { s with hoops := splice s.hoops lo bs
           ecc := soundBytes s.ecc .hoop fun a => lo ≤ a && a < lo + bs.length && on (a - lo) }

/-- An operand field: hoop, slab, and bit 7. -/
structure Opnd where
  h : Nat
  k : Nat
  bc : Bool
deriving DecidableEq, Repr

def Opnd.of (f : BitVec 8) : Opnd := { h := f.toNat / 16 % 8, k := f.toNat % 16, bc := f.getLsbD 7 }

/-! ### The alias of held tiles (R257) -/

/-- Rows of a 128-column tile to a slab at element width `w` (R258). -/
def State.rowsPerSlab (s : State) (w : Nat) : Nat := s.vlmaxAt w / 128

/-- Slabs per tile at width `w` (R257); 0 when no row fits a slab. -/
def State.tileSlabs (s : State) (w : Nat) : Nat :=
  let r := s.rowsPerSlab w
  if r = 0 then 0 else (128 + r - 1) / r

/-- Width of a TAPFMT code in bytes. -/
def tapBytes (b : Word) : Nat := ((Fmt.ofCode (BitVec.ofNat 4 (bits b 23 20))).getD .f32).bytes

/-- The hold hoops of a binding in ascending number (R257). -/
def State.holdHoops (s : State) (b : Nat) : List Nat :=
  (List.range 6).filter fun h => (s.bindWord b 2).getLsbD (8 + h)

/-- Whole tiles per hold hoop. -/
def State.tilesPerHoop (s : State) (b : Nat) : Nat :=
  let t := s.tileSlabs (tapBytes (s.bindWord b 2))
  if t = 0 then 0 else 16 / t

/-- HOLD_CAP (R257). -/
def State.holdCap (s : State) (b : Nat) : Nat := s.tilesPerHoop b * (s.holdHoops b).length

/-- MODE of binding `b`. -/
def State.bindMode (s : State) (b : Nat) : Nat := bits (s.bindWord b 0) 27 26

/-- ROWLEN of binding `b`. -/
def State.rowLen (s : State) (b : Nat) : Nat := bits (s.bindWord b 3) 20 0

/-- A slab name as a run of binding `b` at hold position `pos` means it (R257): none for a slab of ALIAS
beyond the tile. -/
def State.resolveHold (s : State) (b pos h k : Nat) : Option (Nat × Nat) :=
  if s.bindMode b = 2 && h = bits (s.bindWord b 2) 18 16 then
    let t := s.tileSlabs (tapBytes (s.bindWord b 2))
    let per := s.tilesPerHoop b
    let cap := s.holdCap b
    let hoops := s.holdHoops b
    if per = 0 then some (hoops.head?.getD h, k)
    else
      let p := if s.rowLen b > 128 * cap || pos ≥ cap then 0 else pos
      if k ≥ t then none else some (hoops[p / per]?.getD h, (p % per) * t + k)
  else some (h, k)

/-- A slab name as the stream means it. -/
def State.resolve (s : State) (st : Stream) (h k : Nat) : Option (Nat × Nat) :=
  match st, s.edging.run with
  | .edge, some r => s.resolveHold r.binding r.pos h k
  | _, _ => some (h, k)

/-! ### The darn log (R336, R337) -/

/-- A darn entry word. -/
def darnEntry (kind cause unit : Nat) : Word := BitVec.ofNat 32 (kind * 2 ^ 28 + cause * 2 ^ 24 + unit)

/-- An entry appended to the darn log, or lost when it is full. -/
def State.logDarn (s : State) (kind cause unit : Nat) : State :=
  if s.trouble.darnLog.length ≥ 32 then (s.mark 14 11).bump .darnLost 1
  else ({ s with trouble := { s.trouble with
    darnLog := s.trouble.darnLog ++ [darnEntry kind cause unit] } } : State).mark 14 14

/-! ### The arbiter (R369 to R372) -/

/-- The first queued or held start runs when nothing is running: darnings first (R333), held starts enter
the queue as entries free, hoops before slots (R371). During a RESTITCH queued starts stay queued (R341). -/
def State.arbNext (s : State) : State :=
  let a := s.arb
  match a.running with
  | some _ => s
  | none =>
    match a.darns with
    | p :: t => { s with arb := { a with running := some ⟨.darning p, .engine⟩, darns := t } }
    | [] =>
      match (if s.trouble.restitchBusy then [] else a.queue) with
      | [] => s
      | q :: t =>
        match a.heldHoops, a.heldSlots with
        | h :: hs, _ =>
          { s with arb := { a with running := some q, queue := t ++ [⟨h, .engine⟩], heldHoops := hs } }
        | [], l :: ls =>
          { s with arb := { a with running := some q, queue := t ++ [⟨l, .engine⟩], heldSlots := ls } }
        | [], [] => { s with arb := { a with running := some q, queue := t } }

/-- Insertion of a held start in ascending order of its unit. -/
def insertAct (key : Act → Nat) (x : Act) : List Act → List Act
  | [] => [x]
  | y :: t => if key x < key y then x :: y :: t else y :: insertAct key x t

def Act.key : Act → Nat
  | .darning p => p
  | .spareIn h k _ => 16 * h + k
  | .leafRepair sl b => 2 * sl + (if b then 1 else 0)
  | _ => 0

/-- Whether an activity is running, queued or held. -/
def Arbiter.has (a : Arbiter) (x : Act) : Bool :=
  (a.running.map (·.act)) == some x || a.queue.any (fun q => q.act == x) || a.heldHoops.contains x ||
    a.heldSlots.contains x

/-- An activity that ended under an aborted bundle, and takes effect at the boundary after it (R326). -/
def State.actWaits (s : State) (x : Act) : Bool :=
  match s.issue.retry with
  | some r => r.acts.contains x
  | none => false

/-- Whether an activity is running, queued or held, or its effect is still to come. -/
def State.acting (s : State) (x : Act) : Bool := s.arb.has x || s.actWaits x

/-- Staged darning runs, or is still to take effect (R326, R338). -/
def State.staging (s : State) : Bool := s.arb.running.map (·.act) == some .staged || s.actWaits .staged

/-- A structural start (R370, R371): runs, queues, is held, or is refused. -/
def State.startStruct (s : State) (x : Start) : State :=
  let a := s.arb
  if a.running.isNone && a.queue.isEmpty && a.darns.isEmpty then { s with arb := { a with running := some x } }
  else if a.queue.length < 4 then { s with arb := { a with queue := a.queue ++ [x] } }
  else
    match x.src, x.act with
    | .engine, .spareIn .. => { s with arb := { a with heldHoops := insertAct Act.key x.act a.heldHoops } }
    | .engine, _ => { s with arb := { a with heldSlots := insertAct Act.key x.act a.heldSlots } }
    | _, _ => (s.mark 12 0).bump .refused 1

/-- The structural activity running ends; the next one starts. -/
def State.endStruct (s : State) : State := ({ s with arb := { s.arb with running := none } } : State).arbNext

/-! ### Hoop errors and retirement (R70 to R76) -/

/-- Every arrival slot freed; one whose record an aborted NRECV takes is freed at the boundary after it (R326). -/
def State.freeRecords (s : State) : State :=
  match s.issue.retry with
  | some r =>
    match r.takes with
    | some (.slot k) =>
      { s with
        net := { s.net with slots := Vector.ofFn fun j : Fin 16 => if j.val = k then s.net.slots[j.val] else none }
        issue := { s.issue with retry := some { r with freed := true } } }
    | _ => { s with net := { s.net with slots := Vector.replicate 16 none } }
  | none => { s with net := { s.net with slots := Vector.replicate 16 none } }

/-- A hoop retired (R34, R76, R446): its bit clears, and a port that holds it closes. -/
def State.retireHoop (s : State) (h cause : Nat) (log : Bool) : State :=
  let t := { s with hoopMeta := { s.hoopMeta with present := s.hoopMeta.present.setIfInBounds h false } }
  let u := (if log then t.logDarn 4 cause h else t).mark 3 2
  let v :=
    if u.net.rxEn && u.net.rxHoop.toNat = h then
      (State.freeRecords { u with net := { u.net with rxEn := false } }).mark 9 8
    else u
  State.settleCap s v

/-- A slab needs a spare-in (R73, R75, R76). The rules do not say whether a spare counts as in use while a
spare-in of another slab of the hoop is running, queued or held: here it does, and the hoop is retired at once
(DESIGN CHOICE, log 45). -/
def State.needSpareIn (s : State) (h k cause : Nat) : State :=
  if !s.hoopPresent h || k ≥ 16 then s
  else
    match s.hoopMeta.spare[h]? with
    | some .free =>
      if (List.range 5).any (fun c => s.acting (.spareIn h k c)) then s
      else if (List.range 16).any (fun j => (List.range 5).any fun c => s.acting (.spareIn h j c)) then
        s.retireHoop h cause true
      else s.startStruct ⟨.spareIn h k cause, .engine⟩
    | _ => s.retireHoop h cause true

/-- The number of flipped bits of an error. -/
def EccErr.count (e : EccErr) : Nat := ((List.range 72).filter fun i => e.flips.getLsbD i).length

/-- One flipped bit is correctable (R70); more are not (log 10). -/
def EccErr.hard (e : EccErr) : Bool := e.count ≥ 2

/-- The slab number 0 to 16 (16 the spare) of a physical slab as the HOOPS page names it. -/
def State.slabName (s : State) (h phys : Nat) : Nat :=
  if phys = 16 then (match s.hoopMeta.spare[h]? with | some (.inUse j) => j | _ => 16) else phys

/-- A read found the error `e` of a hoop word (R70, R73, R75): it is corrected and counted, or recorded and
its slab spared in. HOOP_UE is set by the reads of instructions alone (R72, R403). -/
def State.hoopErr (s : State) (e : EccErr) : State :=
  let h := e.word / (17 * 512)
  let phys := e.word / 512 % 17
  let k := s.slabName h phys
  if e.hard then
    let rec_ := BitVec.ofNat 32 (2 ^ 31 + h * 2 ^ 18 + phys * 2 ^ 12 + (e.word % 512) * 8)
    ({ s with hoopMeta := { s.hoopMeta with ueRecord := rec_ } } : State).needSpareIn h k 1
  else
    let key := h * 17 + phys
    let n := s.hoopMeta.ceCount.get 0 key + 1
    let t := ({ s with ecc := s.ecc.filter (· != e)
                       hoopMeta := { s.hoopMeta with ceCount := s.hoopMeta.ceCount.set 0 key n } } : State).bump
      .hoopCorr 1
    let lim := bits (t.reg 3 0x04C) 15 0
    if lim ≠ 0 && n ≥ lim then (t.mark 3 1).needSpareIn h k 2 else t

/-- A storage error before another in ascending hoop, slab and word (R372). -/
def insertErr {α : Type} (key : α → Nat) (x : α) : List α → List α
  | [] => [x]
  | y :: t => if key x ≤ key y then x :: y :: t else y :: insertErr key x t

/-- Storage errors in ascending hoop, slab and word (R372). -/
def sortErrs {α : Type} (key : α → Nat) (l : List α) : List α := l.foldr (insertErr key) []

/-! ### Scalars of partners -/

/-- Whether the target of a fabric address is usable (R266, R285). -/
def State.targetPresent (s : State) (t : Target) : Bool :=
  match t with
  | .sram d => s.partner.sram[d]?.getD false
  | .dram => s.partner.dram
  | .unmapped => false

/-- The targets of the fabric that are absent, as a transfer handed now finds them (R285). -/
def State.absentNow (s : State) : List LostTarget :=
  ((((List.range 4).map Target.sram) ++ [Target.dram]).filter fun t => !s.targetPresent t).map fun t => ⟨t, none⟩

/-- Element `i` of a transfer is delivered at a target: never where the target was absent from the start; where it was
marked absent in flight, if the free value says that it was delivered before (R285, R286, log 15). -/
def State.delivers (s : State) (lost : List LostTarget) (t : Target) (i : Nat) : Bool :=
  match lost.find? fun x => x.target == t with
  | some x => (x.draw.map fun n => (Config.freeGot n).testBit i).getD false
  | none => s.targetPresent t

/-- A transfer in flight when its target is marked absent; the first loss of a target counts (R286). -/
def Xfer.lose (x : Xfer) (t : Target) (n : Nat) : Xfer :=
  if x.arrived || x.lost.any (fun y => y.target == t) then x else { x with lost := x.lost ++ [⟨t, some n⟩] }

/-- The outstanding transfers when a target is marked absent (R286). -/
def State.loseTarget (s : State) (t : Target) : State :=
  { s with xfers := (s.xfers.zipIdx).map fun p => p.1.lose t (s.freeCount + p.2)
           freeCount := s.freeCount + s.xfers.length }

/-- GONE for one instruction (R285). -/
def State.goneOnce (s : State) : State := (s.mark 8 1).bump .gone 1

/-- Whether a package is reachable: the own package always is (R444). -/
def State.reachable (s : State) (p : BitVec 15) : Bool :=
  p == s.package ||
    ((s.partner.reach.get 0 (p.toNat / 32)).getLsbD (p.toNat % 32) && !s.partner.marked.contains p)

/-- Something was sent to or received from a package in this step (R267). -/
def State.exchanged (s : State) (p : BitVec 15) : State :=
  if s.partner.recent.contains p then s
  else { s with partner := { s.partner with recent := s.partner.recent ++ [p] } }

/-- The buddy is bound and its package reachable (R266). -/
def State.buddyUp (s : State) : Bool := (s.partner.buddy.map s.reachable).getD false

/-! ### Interrupt routes (R413) -/

/-- The trouble line as it reaches control core d (bit 0 of IRQ_ROUTE) or the host (bit 1) (R413). -/
def State.troubleTo (s : State) (host : Bool) : Bool :=
  s.troubleLine && (s.reg 14 0x050).getLsbD (if host then 1 else 0)

/-- The partner-change line as it reaches control core d (bit 2 of IRQ_ROUTE) or the host (bit 3) (R413). -/
def State.partnerTo (s : State) (host : Bool) : Bool :=
  s.partnerLine && (s.reg 14 0x050).getLsbD (if host then 3 else 2)

end Sys2Proof.Machine
end

