-- ==== Sys2Proof/Machine/Operands.lean ====
section
/-!
DEFINITION. Operand forms: which slabs a bundle names and how (R49, R57, R83, R98, R252, R290), reading and
writing their elements, masked destinations (R62), and the effective rounding (R163).
-/

namespace Sys2Proof.Machine

/-- What a bundle executes on: the state before it, its stream, and the captured twist inputs (R65, R170). -/
structure Env where
  s : State
  st : Stream
  b : Bundle
  cap : TwCap
deriving DecidableEq, Repr

def Env.ctx (e : Env) : Ctx := e.s.ctxOf e.st

def Env.vl (e : Env) : Nat := e.ctx.vl

def Env.mp (e : Env) : Bool := e.b.v0.mp == 1

/-- The format of a code; reserved codes do not reach execution. -/
def fmtOf (c : BitVec 4) : Fmt := (Fmt.ofCode c).getD .f32

/-- Active elements below VL under mask K(km). -/
def Env.active (e : Env) (km : BitVec 3) : List Bool := maskBits (e.s.mask km.toNat) e.vl

/-! ### Slab uses -/

/-- One slab operand of a bundle: its slot, run and alignment in slabs, width, direction, the mask whose
elements it serves (none where every element below VL is used), whether it holds one byte per 32 elements,
and, where bytes are used whatever VL holds, how many. -/
structure SlabUse where
  slot : Nat
  o : Opnd
  run : Nat
  align : Nat
  w : Nat
  rd : Bool
  wr : Bool
  km : Option (BitVec 3)
  blk : Bool
  len : Option Nat
deriving DecidableEq, Repr

/-- Slabs of the run of an operand of width `w` at element width `ew` (R49). -/
def runLen (ew w : Nat) : Nat := max 1 (w / ew)

/-- Slabs of an accumulator run (R252). -/
def State.accRun (s : State) : Nat :=
  let v := s.vlmaxAt 4
  if v = 0 then 16 else (1024 + v - 1) / v

/-- The smallest power of two not below `r`, for r up to 16. -/
def pow2Above (r : Nat) : Nat := ([1, 2, 4, 8, 16].find? (r ≤ ·)).getD 16

/-- An operand of elements. -/
def elemUse (slot ew : Nat) (f : BitVec 8) (w : Nat) (rd wr : Bool) (km : BitVec 3) : SlabUse :=
  { slot := slot, o := Opnd.of f, run := runLen ew w, align := runLen ew w, w := w, rd := rd, wr := wr
    km := some km, blk := false, len := none }

/-- A slab of which `n` bytes are used. -/
def wholeUse (slot : Nat) (f : BitVec 8) (n : Nat) (rd wr : Bool) : SlabUse :=
  { slot := slot, o := Opnd.of f, run := 1, align := 1, w := 1, rd := rd, wr := wr, km := none, blk := false
    len := some n }

/-- A slab of block scales (R50). -/
def scaleUse (slot : Nat) (f : BitVec 8) (rd wr : Bool) (km : BitVec 3) : SlabUse :=
  { wholeUse slot f 0 rd wr with km := some km, blk := true, len := none }

def v0Uses (ew : Nat) (v : V0Slot) : List SlabUse :=
  if v.isNop then []
  else
    let sw := (fmtOf v.sfmt).bytes
    [elemUse 0 ew v.a sw true false v.km] ++
      (if v.usesB then [elemUse 0 ew v.b sw true false v.km] else []) ++
      (if v.usesC then [elemUse 0 ew v.c (fmtOf v.cfmt).bytes true false v.km] else []) ++
      (if v.d.getLsbD 7 then [] else [elemUse 0 ew v.d (fmtOf v.dfmt).bytes false true v.km])

/-- The slab operands of V1. PERM, XPOSE and EXPD read source elements that are not those of the mask's index
(R236): every source element below VL counts as active for R72 (DESIGN CHOICE, log 46). -/
def v1Uses (ew : Nat) (v : V1Slot) : List SlabUse :=
  let sf := fmtOf v.sfmt
  let df := fmtOf v.dfmt
  let src (f : BitVec 8) (w : Nat) : SlabUse := elemUse 1 ew f w true false v.km
  let dst : List SlabUse := if v.dst.getLsbD 7 then [] else [elemUse 1 ew v.dst df.bytes false true v.km]
  match v.major.toNat with
  | 0 => []
  | 2 | 6 | 11 => [src v.src1 sf.bytes, src v.src2 sf.bytes] ++ dst
  | 3 =>
    [src v.src1 sf.bytes] ++ dst ++
      (if v.fn = 2 then [scaleUse 1 v.src2 sf.isMx df.isMx v.km] else [])
  | 4 =>
    [{ src v.src1 sf.bytes with rd := v.fn.toNat % 8 != 4 }] ++
      (if v.fn.getLsbD 7 then [{ wholeUse 1 v.src2 4 true false with run := runLen ew 4, align := runLen ew 4 }] else []) ++
      (if v.dst.getLsbD 7 then []
       else if v.fn.getLsbD 4 then dst
       else [{ elemUse 1 ew v.dst df.bytes false true v.km with km := none }])
  | 7 => [{ src v.src1 sf.bytes with km := none }, src v.src2 (if ew = 4 then 4 else 2)] ++ dst
  | 8 | 10 => [{ src v.src1 sf.bytes with km := none }] ++ dst
  | 12 => [elemUse 1 ew v.src1 2 true true v.km, src v.src2 4, wholeUse 1 v.dst 4096 true true]
  | 13 => [wholeUse 1 v.src1 4096 true false, elemUse 1 ew v.dst 4 true true v.km]
  | 14 =>
    [src v.src1 sf.bytes, elemUse 1 ew v.dst df.bytes true true v.km, elemUse 1 ew v.src2 2 true true v.km] ++
      [elemUse 1 ew (v.src2 + 1) 2 (v.fn = 1) (v.fn = 1) v.km, wholeUse 1 (v.src2 + 2) 32 true false]
  | _ => [src v.src1 sf.bytes] ++ dst

/-- The slab operands of M. MOVS and GETS name one element of a single slab (R58), so their run is 1 and needs no
alignment even where MFMT is wider than EW (DESIGN CHOICE, log 47); an XS with NW names no slab (R83). -/
def mUses (s : State) (ew : Nat) (m : MSlot) : List SlabUse :=
  let f := fmtOf m.mfmt
  match m.major.toNat with
  | 1 =>
    [elemUse 2 ew m.hs f.bytes false true m.km] ++
      (if f.isMx && !m.xs.getLsbD 7 then [scaleUse 2 m.xs false true m.km] else [])
  | 2 =>
    [elemUse 2 ew m.hs f.bytes true false m.km] ++ (if f.isMx then [scaleUse 2 m.xs true false m.km] else [])
  | 3 => [elemUse 2 ew m.hs f.bytes false true m.km, elemUse 2 ew m.xs 4 true false m.km]
  | 4 => [elemUse 2 ew m.hs f.bytes true false m.km, elemUse 2 ew m.xs 4 true false m.km]
  | 5 | 6 => [{ wholeUse 2 m.hs 0 false true with run := s.accRun, align := pow2Above s.accRun }]
  | 8 | 9 | 11 => [wholeUse 2 m.hs 0 false true]
  | 7 => [wholeUse 2 m.hs 4096 true false]
  | 10 => [wholeUse 2 m.hs f.bytes true false]
  | 12 => [wholeUse 2 m.hs 512 true false]
  | _ => []

/-- Every slab operand of a bundle. -/
def slabUses (s : State) (ew : Nat) (b : Bundle) : List SlabUse :=
  v0Uses ew b.v0 ++ v1Uses ew b.v1 ++ mUses s ew b.m

/-- The slabs of a use as (hoop, slab) after alias resolution; none where ALIAS has no such slab (R257). -/
def SlabUse.slabs (s : State) (st : Stream) (u : SlabUse) : List (Option (Nat × Nat)) :=
  (List.range u.run).map fun j => s.resolve st u.o.h (u.o.k + j)

/-! ### Elements -/

/-- `n` codes of width `w` from a run (R48, R49), lowest element first; a broadcast repeats element 0 (R57). -/
def readRun (s : State) (st : Stream) (o : Opnd) (w n : Nat) : List Nat :=
  let vm := s.vlmaxAt w
  let part (j cnt : Nat) : List Nat :=
    match s.resolve st o.h (o.k + j) with
    | some (h, k) => (cut w (s.slabBytes h k (cnt * w))).map leNat
    | none => List.replicate cnt 0
  if n = 0 || vm = 0 then []
  else if o.bc then List.replicate n ((part 0 1).head?.getD 0)
  else (List.range ((n + vm - 1) / vm)).flatMap fun j => part j (min vm (n - j * vm))

/-- Bytes of a slab with the codes given replaced; none keeps an element. -/
def mergeBytes (w : Nat) (old : List Byte) (vals : List (Option Nat)) : List Byte :=
  ((cut w old).zip vals).flatMap fun p =>
    match p.2 with
    | some v => leBytes w v
    | none => p.1

/-- The codes given are written to the run that a destination field names, on `acc`, names resolved as in
`s`; none leaves an element unchanged, NW writes nothing (R49, R83). -/
def writeTo (s acc : State) (st : Stream) (f : BitVec 8) (w : Nat) (vals : List (Option Nat)) : State :=
  let o := Opnd.of f
  let vm := s.vlmaxAt w
  if f.getLsbD 7 || vm = 0 then acc
  else
    ((cut vm vals).zipIdx).foldl (fun (t : State) (p : List (Option Nat) × Nat) =>
      match s.resolve st o.h (o.k + p.2) with
      | some (h, k) => t.mergeSlab h k (mergeBytes w (t.slabBytes h k (p.1.length * w)) p.1) fun j =>
          (p.1.getD (j / w) none).isSome
      | none => t) acc

/-- Source codes of an operand field for the VL elements. -/
def Env.codes (e : Env) (f : BitVec 8) (w : Nat) : List Nat := readRun e.s e.st (Opnd.of f) w e.vl

/-- A masked destination element: kept, or zero under MP 1 (R62). -/
def Env.masked (e : Env) : Option Nat := if e.mp then some 0 else none

/-- The destination list: an active element takes its result, a masked one follows R62. -/
def Env.policy (e : Env) (act : List Bool) (vals : List Nat) : List (Option Nat) :=
  (act.zip vals).map fun p => if p.1 then some p.2 else e.masked

/-- A destination mask under the policy. -/
def Env.maskPolicy (e : Env) (act : List Bool) (vals : List Bool) : List (Option Bool) :=
  (act.zip vals).map fun p => if p.1 then some p.2 else if e.mp then some false else none

/-! ### Rounding to a destination -/

/-- The draw of element `i` under tensor identifier `tid` (R166). -/
def Env.draw (e : Env) (tid : BitVec 16) (i : Nat) : BitVec 16 :=
  twist e.cap.s0 e.cap.s1 e.cap.step tid (e.ctx.coord i)

/-- The effective rounding of element `i` (R163). -/
def Env.rnd (e : Env) (rm dcls : BitVec 2) (i : Nat) : Rnd :=
  if dcls = 1 || dcls = 2 || rm = 2 then .sr (e.draw e.ctx.tid i) else if rm = 1 then .rz else .rne

/-- Whether the effective rounding is RNE (R163, R197). -/
def isRne (rm dcls : BitVec 2) : Bool := rm == 0 && dcls != 1 && dcls != 2

/-- Sums of what elements raised. -/
def raisesOf {α : Type} (l : List (Res α)) : Raises := l.foldl (fun a x => a.add x.r) Raises.none

/-- Per-element results where active, with element numbers; masked elements give `d` and raise nothing. -/
def perElem {β : Type} (act : List Bool) (d : β) (f : Nat → Res β) : List (Res β) :=
  act.zipIdx.map fun p => if p.1 then f p.2 else .pure d

end Sys2Proof.Machine
end

