-- ==== Sys2Proof/Machine/Chain.lean ====
section
/-!
DEFINITION. The V0 cell chain (R88 to R95).
-/

namespace Sys2Proof.Machine

/-- The chain format (R92). -/
def V0cf (v : V0Slot) : CF := if (fmtOf v.sfmt).isInt then .i32 else if v.wide = 1 then .e10 else .f32

/-- One active element of a chain: its result code in DFMT and its predicate (R90 to R95). -/
def chainElem (e : Env) (i a b c : Nat) (kd : Bool) : Res (Nat × Option Bool) :=
  let v := e.b.v0
  let cf := V0cf v
  let sf := fmtOf v.sfmt
  let rz := v.rm == 1 && v.dcls != 1 && v.dcls != 2
  (loadLane cf sf a).bind fun la =>
    (if v.usesB then loadLane cf sf b else .pure Lane.zero).bind fun lb =>
      (if v.usesC then loadLane cf (fmtOf v.cfmt) c else .pure Lane.zero).bind fun lc =>
        (chainEval cf rz ⟨la, lb, lc⟩ kd v.cells la none).bind fun y =>
          if v.d.getLsbD 7 then .pure (0, y.2)
          else ((fmtOf v.dfmt).round (cf.value y.1) (e.rnd v.rm v.dcls i)).map (·, y.2)

/-- CHAIN: every active element through the cells, written to D, the predicate to KD (R95). -/
def chainEffect (e : Env) (t : State) : State :=
  let v := e.b.v0
  if e.b.v0.major ≠ 1 || e.vl = 0 then t
  else
    let act := e.active v.km
    let as := e.codes v.a (fmtOf v.sfmt).bytes
    let bs := e.codes v.b (fmtOf v.sfmt).bytes
    let cs := e.codes v.c (fmtOf v.cfmt).bytes
    let kd := maskBits (e.s.mask v.kd.toNat) e.vl
    let src := as.zip (bs.zip (cs.zip kd))
    let res := ((act.zip src).zipIdx).map fun p =>
      if p.1.1 then chainElem e p.2 p.1.2.1 p.1.2.2.1 p.1.2.2.2.1 p.1.2.2.2.2 else .pure (0, none)
    let t1 := writeTo e.s t e.st v.d (fmtOf v.dfmt).bytes (e.policy act (res.map fun r => r.val.1))
    let t2 :=
      if v.hasCmp then
        t1.setMask v.kd.toNat
          (maskWrite (e.s.mask v.kd.toNat) (e.maskPolicy act (res.map fun r => r.val.2.getD false)))
      else t1
    t2.raise v.dcls.toNat (raisesOf res)

end Sys2Proof.Machine
end

