-- ==== Sys2Proof/Machine/Rows.lean ====
section
/-!
DEFINITION. Row work of the V1 slot: RED, SCAN, LSCAN, PERM, XPOSE, CPRS, EXPD and TSEL (R221 to R240).
-/

namespace Sys2Proof.Machine

/-- The accumulation format of a reduction or scan (R222). -/
def accCf (v : V1Slot) : CF :=
  if (fmtOf v.sfmt).isInt then .i32 else if v.fn.getLsbD 3 then .e10 else .f32

/-- Elements of a segment (R55). -/
def Env.segLen (e : Env) : Nat := if e.ctx.rowshape = 0 then e.vl else e.ctx.rowshape

/-- Source lanes of active elements behind the gate (R141, R64). -/
def lanesOf (cf : CF) (f : Fmt) (act : List Bool) (codes : List Nat) : List (Option (Res Lane)) :=
  (act.zip codes).map fun p => if p.1 then some (loadLane cf f p.2) else none

/-- Presence lists and their raises separated. -/
def splitLanes {α : Type} (l : List (Option (Res α))) : List (Option α) × Raises :=
  (l.map fun x => x.map (·.val), raisesOf (l.filterMap id))

/-! ### RED -/

/-- The node of a reduction: 0 and 1 sum, 2 maximum, 3 minimum, 4 count (R153, R155, R223). -/
def redNode (cf : CF) (op : Nat) (a b : Lane) : Res Lane :=
  match op with
  | 2 => nodeEval cf .max a b
  | 3 => nodeEval cf .min a b
  | 4 => (satInt 32 (int32 a.code + int32 b.code)).map fun c => ⟨c, false⟩
  | _ => nodeEval cf .add a b

/-- The identity of a segment with no active element, as a DFMT code (R224). -/
def redIdentity (df : Fmt) (op : Nat) : Nat :=
  match op with
  | 2 => df.maxCode true
  | 3 => df.maxCode false
  | 4 => 0
  | _ => if df.isInt then 0 else 2 ^ (8 * df.bytes - 1)

/-- RED (R223 to R225). -/
def redEffect (e : Env) (t : State) : State :=
  let v := e.b.v1
  if e.vl = 0 then t
  else
    let op := v.fn.toNat % 8
    let sf := fmtOf v.sfmt
    let df := fmtOf v.dfmt
    let cf := if op = 4 then CF.i32 else accCf v
    let act := e.active v.km
    let loaded : List (Option (Res Lane)) :=
      if op = 4 then act.map fun a => if a then some (.pure ⟨1, false⟩) else none
      else (lanesOf cf sf act (e.codes v.src1 sf.bytes)).map fun x =>
        x.map fun r => if op = 1 then r.bind fun l => (mulLane cf l l).map fun c => ⟨c, false⟩ else r
    let (items, r0) := splitLanes loaded
    let carry : Option (Res Lane) :=
      if v.fn.getLsbD 7 then
        some (loadLane cf cf.fmt ((readRun e.s e.st { Opnd.of v.src2 with bc := false } 4 1).head?.getD 0))
      else none
    let segs := (cut e.segLen items).zipIdx
    let res := segs.map fun p =>
      reduceSegment (redNode cf op) (if p.2 = 0 then carry.map (·.val) else none) p.1
    let final (x : Option Lane) (i : Nat) : Res Nat :=
      match x with
      | none => .pure (redIdentity df op)
      | some l => df.round (cf.value l.code) (e.rnd v.rm v.dcls i)
    let nw := v.dst.getLsbD 7
    let rs := (r0.add (carry.map (·.r) |>.getD .none)).add (raisesOf res)
    if nw then t.raise v.dcls.toNat rs
    else if v.fn.getLsbD 4 then
      let per := (res.map (·.val)).flatMap fun x => List.replicate e.segLen x
      let out := ((act.zip per).zipIdx).map fun p => if p.1.1 then final p.1.2 p.2 else .pure 0
      (writeTo e.s t e.st v.dst df.bytes (e.policy act (out.map (·.val)))).raise v.dcls.toNat
        (rs.add (raisesOf out))
    else
      let out := (res.zipIdx).map fun p => final p.1.val p.2
      (writeTo e.s t e.st v.dst df.bytes (out.map fun r => some r.val)).raise v.dcls.toNat
        (rs.add (raisesOf out))

/-! ### SCAN and LSCAN -/

/-- The carry that a scan names. -/
def State.carry (s : State) (c : Nat) : Carry := s.carries[c]?.getD Carry.reset

/-- The carry that enters a continued scan, behind the gate (R68). -/
def Env.carryIn (e : Env) (cf : CF) : Option (Res Lane) :=
  let v := e.b.v1
  let c := e.s.carry (v.ts.toNat % 4)
  if v.fn.getLsbD 7 && c.valid then some (loadLane cf cf.fmt c.value.toNat) else none

/-- The identity written to a carry with nothing to hold (R229). -/
def scanIdentity (cf : CF) (op : Nat) : Nat :=
  match op with
  | 0 => 2 ^ 31
  | 1 => cf.fmt.maxCode true
  | 2 => if cf = .e10 then 0x3FE00000 else 0x3F800000
  | _ => 0

/-- Segments scanned one after another; the carried value enters segment 0 only (R226, R227). -/
def scanSegs {α : Type} (op : α → α → Res α) (fin : Option Lane → Option α → Res (Option Lane))
    (carry : Option Lane) (n : Nat) (items : List (Option α)) : Res (List (Option Lane) × Option Lane) :=
  foldRes (fun (acc : List (Option Lane) × Option Lane) (p : List (Option α) × Nat) =>
    (scanSegment op fin (if p.2 = 0 then carry else none) p.1).map fun y => (acc.1 ++ y.1, y.2))
    ([], carry) ((cut n items).zipIdx)

/-- What a scan writes: the prefixes rounded to DFMT, and its carry (R68, R226). -/
def scanFinish (e : Env) (t : State) (cf : CF) (op : Nat) (act : List Bool) (r0 : Raises)
    (y : Res (List (Option Lane) × Option Lane)) : State :=
  let v := e.b.v1
  let df := fmtOf v.dfmt
  let out := ((act.zip y.val.1).zipIdx).map fun p =>
    match p.1.1 && !v.dst.getLsbD 7, p.1.2 with
    | true, some l => df.round (cf.value l.code) (e.rnd v.rm v.dcls p.2)
    | _, _ => .pure 0
  let t1 := writeTo e.s t e.st v.dst df.bytes (e.policy act (out.map (·.val)))
  let c : Carry :=
    { value := BitVec.ofNat 32 ((y.val.2.map (·.code)).getD (scanIdentity cf op)), wide := v.fn.getLsbD 3
      valid := true }
  ({ t1 with carries := t1.carries.setIfInBounds (v.ts.toNat % 4) c } : State).raise v.dcls.toNat
    ((r0.add y.r).add (raisesOf out))

/-- SCAN (R226). -/
def scanEffect (e : Env) (t : State) : State :=
  let v := e.b.v1
  if e.vl = 0 then t
  else
    let cf := accCf v
    let op := v.fn.toNat % 4
    let act := e.active v.km
    let (items, r0) := splitLanes (lanesOf cf (fmtOf v.sfmt) act (e.codes v.src1 (fmtOf v.sfmt).bytes))
    let cin := e.carryIn cf
    let node := nodeEval cf (if op = 0 then .add else if op = 1 then .max else .mul)
    scanFinish e t cf op act (r0.add ((cin.map (·.r)).getD .none))
      (scanSegs node (carryOn node) (cin.map (·.val)) e.segLen items)

/-- LSCAN (R227). -/
def lscanEffect (e : Env) (t : State) : State :=
  let v := e.b.v1
  if e.vl = 0 then t
  else
    let cf := accCf v
    let sf := fmtOf v.sfmt
    let act := e.active v.km
    let (as, ra) := splitLanes (lanesOf cf sf act (e.codes v.src1 sf.bytes))
    let (bs, rb) := splitLanes (lanesOf cf sf act (e.codes v.src2 sf.bytes))
    let items := (as.zip bs).map fun p =>
      match p.1, p.2 with
      | some a, some b => some (ScanPair.mk a b)
      | _, _ => none
    let cin := e.carryIn cf
    scanFinish e t cf 3 act ((ra.add rb).add ((cin.map (·.r)).getD .none))
      (scanSegs (pairCombine cf) (pairApply cf) (cin.map (·.val)) e.segLen items)

/-! ### Moves (R236 to R240) -/

/-- A value moved: gated, and a NaN written canonical with NV (R236). -/
def moved (f : Fmt) (code : Nat) : Res Nat :=
  (f.gate code).bind fun c =>
    match f.value c with
    | .nan => ⟨f.nanCode, .invalid⟩
    | _ => .pure c

/-- What moved values raise: NW writes no NaN, so it leaves only what the gate raised (R236, R467). -/
def movedRaises (v : V1Slot) (out : List (Res Nat)) : Raises :=
  let r := raisesOf out
  { r with nv := r.nv && !v.dst.getLsbD 7 }

/-- The elements given by source index: none is out of range and receives zero (R237). -/
def moveBy (e : Env) (t : State) (src : List Nat) : State :=
  let v := e.b.v1
  let f := fmtOf v.sfmt
  let act := e.active v.km
  let cs := e.codes v.src1 f.bytes
  let out := (act.zip src).map fun p =>
    if p.1 then (if p.2 < e.vl then moved f (cs[p.2]?.getD 0) else .pure 0) else .pure 0
  let bad := ((act.zip src).filter fun p => p.1 && e.vl ≤ p.2).length
  ((writeTo e.s t e.st v.dst f.bytes (e.policy act (out.map (·.val)))).markIf (bad != 0) 2 2).bump .perm bad
    |>.raise v.dcls.toNat (movedRaises v out)

/-- PERM (R237): the indices are unsigned, so a negative index is out of range. -/
def permEffect (e : Env) (t : State) : State :=
  if e.vl = 0 then t
  else moveBy e t (e.codes e.b.v1.src2 (if e.ctx.ew = .w32 then 4 else 2))

/-- The source element of XPOSE (R238). -/
def xposeSrc (i r b : Nat) : Nat :=
  let row := i / r
  let c := i % r
  ((row / b) * b + c % b) * r + (c / b) * b + row % b

/-- XPOSE (R238). -/
def xposeEffect (e : Env) (t : State) : State :=
  if e.vl = 0 then t
  else
    let b := if e.b.v1.fn = 0 then 8 else 16
    let r := if e.ctx.rowshape = 0 then b else e.ctx.rowshape
    moveBy e t ((List.range e.vl).map fun i => xposeSrc i r b)

/-- The selection of CPRS and EXPD: K(AUX) and KM (R239). -/
def Env.selected (e : Env) : List Bool :=
  ((e.active e.b.v1.km).zip (maskBits (e.s.mask e.b.v1.aux.toNat) e.vl)).map fun p => p.1 && p.2

/-- A packed list written from element 0, the rest below VL as masked destinations. -/
def Env.packed (e : Env) (vals : List Nat) : List (Option Nat) :=
  vals.map some ++ List.replicate (e.vl - vals.length) e.masked

/-- CPRS (R239). -/
def cprsEffect (e : Env) (t : State) : State :=
  let v := e.b.v1
  if e.vl = 0 then t
  else
    let f := fmtOf v.sfmt
    let out := (e.selected.zip (e.codes v.src1 f.bytes)).filterMap fun p =>
      if p.1 then some (moved f p.2) else none
    (writeTo e.s t e.st v.dst f.bytes (e.packed (out.map (·.val)))).raise v.dcls.toNat (movedRaises v out)

/-- The selected positions take the values in order. -/
def spread (m : Option Nat) : List Bool → List (Res Nat) → List (Option Nat)
  | [], _ => []
  | false :: t, vs => m :: spread m t vs
  | true :: t, [] => m :: spread m t []
  | true :: t, v :: vs => some v.val :: spread m t vs

/-- EXPD (R239). -/
def expdEffect (e : Env) (t : State) : State :=
  let v := e.b.v1
  if e.vl = 0 then t
  else
    let f := fmtOf v.sfmt
    let n := (e.selected.filter id).length
    let out := ((e.codes v.src1 f.bytes).take n).map (moved f)
    (writeTo e.s t e.st v.dst f.bytes (spread e.masked e.selected out)).raise v.dcls.toNat (movedRaises v out)

/-- The comparison of TSEL on gated values (R240). -/
def tselHit (fn : Nat) (x t : Num) : Bool :=
  let y := if fn % 4 < 2 then x.abs else x
  !x.isNan && !t.isNan && (if fn % 2 = 0 then t.le y else t.lt y)

/-- TSEL (R240). -/
def tselEffect (e : Env) (t : State) : State :=
  let v := e.b.v1
  if e.vl = 0 then t
  else
    let f := fmtOf v.sfmt
    let df := fmtOf v.dfmt
    let act := e.active v.km
    let src := (e.codes v.src1 f.bytes).zip (e.codes v.src2 f.bytes)
    let gated : List (Res (Nat × Nat)) := (act.zip src).map fun p =>
      if p.1 then (f.gate p.2.1).bind fun x => (f.gate p.2.2).map fun y => (x, y) else .pure (0, 0)
    let hits := (act.zip gated).map fun p =>
      p.1 && tselHit (v.fn.toNat % 4) (f.value p.2.val.1) (f.value p.2.val.2)
    let vals := ((hits.zip gated).zipIdx).filterMap fun p =>
      if p.1.1 then some (if v.fn.getLsbD 2 then p.2 else p.1.2.val.1) else none
    let t1 := writeTo e.s t e.st v.dst df.bytes (e.packed vals)
    (t1.setMask v.aux.toNat (maskWrite (e.s.mask v.aux.toNat) (e.maskPolicy act hits))).raise v.dcls.toNat
      (raisesOf gated)

end Sys2Proof.Machine
end

