-- ==== Sys2Proof/Machine/Motif.lean ====
section
/-!
DEFINITION. Motif tables: the three evaluation paths (R197 to R208, R219), FUNC and GACT, the load checks
(R203, R210, R211), leaves and swaps (R212 to R217).
-/

namespace Sys2Proof.Machine

/-! ### Slots and leaves -/

def State.mslot (s : State) (i : Nat) : MotifSlot := s.motif.slots[i]?.getD MotifSlot.reset

def State.setMslot (s : State) (i : Nat) (x : MotifSlot) : State :=
  { s with motif := { s.motif with slots := s.motif.slots.setIfInBounds i x } }

def MotifSlot.leaf (x : MotifSlot) (b : Bool) : Leaf := if b then x.leafB else x.leafA

def MotifSlot.setLeaf (x : MotifSlot) (b : Bool) (l : Leaf) : MotifSlot :=
  if b then { x with leafB := l } else { x with leafA := l }

/-- Whether a leaf is lost (R217). -/
def MotifSlot.lost (x : MotifSlot) (b : Bool) : Bool := if b then x.lostB else x.lostA

def MotifSlot.isSingle (x : MotifSlot) : Bool := x.lostA != x.lostB

def MotifSlot.isNoLeaf (x : MotifSlot) : Bool := x.lostA && x.lostB

/-- The leaf that a TBLD loads and a swap activates: the inactive one, or the only one (R213, R217). -/
def MotifSlot.target (x : MotifSlot) : Bool := if x.isSingle then x.lostA else !x.active

/-- The leaf in use when it holds a loaded table (R99). -/
def MotifSlot.table (x : MotifSlot) : Option Leaf :=
  let l := x.leaf x.active
  if l.state = .ready && !x.isNoLeaf then some l else none

def Leaf.word (l : Leaf) (i : Nat) : Word := l.image.get 0 i

/-! ### Fields of the image (R210) -/

def Leaf.kind (l : Leaf) : Nat := bits (l.word 1) 15 12
def Leaf.sym (l : Leaf) : Nat := bits (l.word 1) 11 10
def Leaf.mono (l : Leaf) : Nat := bits (l.word 1) 9 8
def Leaf.neg (l : Leaf) : Nat := bits (l.word 1) 7 6
def Leaf.flushSel (l : Leaf) : Nat := bits (l.word 1) 5 4
def Leaf.add (l : Leaf) : Bool := (l.word 1).getLsbD 3
def Leaf.lo (l : Leaf) : Int := signedValue 8 (bits (l.word 2) 31 24)
def Leaf.nb (l : Leaf) : Nat := bits (l.word 2) 23 16
def Leaf.scl (l : Leaf) : Int := signedValue 8 (bits (l.word 2) 15 8)
def Leaf.mb (l : Leaf) : Nat := bits (l.word 2) 7 0
def Leaf.ws (l : Leaf) : Int := signedValue 8 (bits (l.word 11) 7 0)

/-- An F32 word of the image as a value. -/
def Leaf.f32 (l : Leaf) (i : Nat) : Num := fpF32.value (l.word i).toNat

def Leaf.base (l : Leaf) (j : Nat) : Num := l.f32 (16 + 2 * j)
def Leaf.slope (l : Leaf) (j : Nat) : Num := l.f32 (17 + 2 * j)

/-! ### Evaluation -/

/-- Silent rounding to F32 by RNE (R199, R201). -/
def rneF32 (x : Num) : Num :=
  match x with
  | .fin .. => fpF32.value (roundFp fpF32 x .rne).val
  | _ => .nan

/-- base + slope × d with its two roundings (R199). -/
def Leaf.seg (l : Leaf) (j : Nat) (d : Num) : Num := rneF32 ((l.base j).add (rneF32 ((l.slope j).mul d)))

/-- A nonzero magnitude within its binade cut into `n` parts (n a power of two): the part and the offset. -/
def binadeCut (mag : Nat) (exp : Int) (n : Nat) : Nat × Num :=
  let l := Nat.log2 mag
  let k := (mag - 2 ^ l) * n / 2 ^ l
  (k, .fin false (mag * n - 2 ^ l * n - k * 2 ^ l) (exp - Nat.log2 n))

/-- A part index and the offset within it of a value in the unit interval cut into `n` parts. -/
def unitCut (r : Num) (n : Nat) : Nat × Num :=
  let k := ((r.scale (Nat.log2 n)).floor).toNat
  (k, r.sub (.fin false k (-(Nat.log2 n : Int))))

/-- A value that exceeds every finite value of every format (R200). -/
def hugeNum (neg : Bool) : Num := .fin neg 1 1048576

/-- DIRECT: the value and the segment used (R199). -/
def Leaf.direct (l : Leaf) (x : Num) : Num × Option Nat :=
  match x with
  | .fin s mag exp =>
    let z := if l.sym = 0 then x else x.abs
    let e := floorLog2 mag exp
    let y : Num × Option Nat :=
      if mag = 0 || e < l.lo then (rneF32 ((l.f32 4).add (rneF32 ((l.f32 5).mul z))), none)
      else if l.lo + l.nb ≤ e then ((if l.sym = 0 && s then l.f32 7 else l.f32 6), none)
      else
        let spb := (if l.sym = 0 then 32 else 64) / l.nb
        let (k, d) := binadeCut mag exp spb
        let j := (e - l.lo).toNat * spb + k + (if l.sym = 0 && !s then 32 else 0)
        (l.seg j d, some j)
    (if l.sym = 1 && s then y.1.neg else y.1, y.2)
  | _ => (.nan, none)

/-- MANT, with its zero and negative inputs (R199, R200). -/
def Leaf.mant (l : Leaf) (x : Num) : Num × Option Nat :=
  match x with
  | .fin s mag exp =>
    if mag = 0 then
      if l.scl = 0 then (l.base 0, some 0)
      else if l.add then (hugeNum (0 < l.scl), none)
      else if l.scl < 0 then (hugeNum (l.neg == 1 && s), none)
      else (.fin false 0 0, none)
    else if s && l.neg = 0 then (.nan, none)
    else
      let e := floorLog2 mag exp
      let mb : Int := if l.mb = 0 then 1 else l.mb
      let q := e.fdiv mb
      let b := (e - mb * q).toNat
      let spb := 64 / mb.toNat
      let (k, d) := binadeCut mag (exp - mb * q) spb
      let j := b * spb + k
      let y := l.seg j d
      let v := if l.add then y.add (Num.ofInt (l.scl * q)) else y.scale (l.scl * q)
      (if s then v.neg else v, some j)
  | _ => (.nan, none)

/-- FRAC (R199). -/
def Leaf.frac (l : Leaf) (x : Num) : Num × Option Nat :=
  let n := x.floor
  let (k, d) := unitCut (x.sub (Num.ofInt n)) 64
  ((l.seg k d).scale (l.scl * n), some k)

/-- LOGISTIC (R199): the segments of both parts. -/
def Leaf.logistic (l : Leaf) (x : Num) : Num × List Nat :=
  let w := rneF32 (x.abs.mul (l.f32 8))
  match w with
  | .fin .. =>
    let n := w.floor
    let (k, d) := unitCut (w.sub (Num.ofInt n)) 32
    let u := (l.seg k d).scale (-n)
    match u with
    | .fin .. =>
      let i := (max 0 (min 31 ((u.scale 5).floor))).toNat
      let h := l.seg (32 + i) (u.sub (.fin false i (-5)))
      (if x.isNeg && !x.isZero then u.mul h else h, [k, 32 + i])
    | _ => (.nan, [k])
  | _ => (.nan, [])

/-- chop of R219: toward zero to F32, a magnitude below 2^-126 as zero. -/
def chop (x : Num) : Num :=
  match x with
  | .fin s mag exp =>
    if mag = 0 || floorLog2 mag exp < -126 then .fin s 0 0 else fpF32.value (roundFp fpF32 x .rz).val
  | _ => .nan

/-- The heirloom path (R219). -/
def Leaf.heirloom (l : Leaf) (x : Num) : Num × Nat :=
  let t := (x.sub (l.f32 10)).scale (-l.ws)
  if t.isNan then (.nan, 0)
  else
    let (j, t12) : Nat × Nat :=
      if t.isNeg && !t.isZero then (0, 0)
      else
        let f := t.floor
        if 32 ≤ f then (31, 4095)
        else (f.toNat, (((t.sub (Num.ofInt f)).scale 12).floor).toNat)
    (chop ((l.base j).add (chop ((l.slope j).mul (.fin false t12 (-12))))), j)

/-- The table value of a finite input and the segments read. -/
def Leaf.eval (l : Leaf) (x : Num) : Num × List Nat :=
  match l.kind with
  | 0 => let y := l.direct x; (y.1, y.2.toList)
  | 1 => let y := l.mant x; (y.1, y.2.toList)
  | 2 => let y := l.frac x; (y.1, y.2.toList)
  | 3 => l.logistic x
  | _ => let y := l.heirloom x; (y.1, [y.2])

/-- The flush threshold (R202): none when nothing is flushed. -/
def Leaf.threshold (l : Leaf) (df : Fmt) : Option Num :=
  match l.flushSel with
  | 0 => if df = .e10m21 then some (e10Value 1) else some (.fin false 1 (1 - (df.fp.bias : Int)))
  | 1 => some (e10Value (l.word 9).toNat)
  | _ => none

/-- Flush and the one rounding to DFMT (R201, R202). -/
def Leaf.finish (l : Leaf) (df : Fmt) (x : Num) (m : Rnd) : Res Nat :=
  match x with
  | .fin s mag _ =>
    let small := match l.threshold df with | some t => x.abs.lt t | none => false
    if small then ⟨df.maxCode s - df.maxCode false, { nx := mag != 0 }⟩ else df.round x m
  | _ => ⟨df.nanCode, .invalid⟩

/-- The rounding of a heirloom result (R219). -/
def Leaf.mode (l : Leaf) (m : Rnd) : Rnd :=
  match m with
  | .rne => if l.kind = 8 then .rz else .rne
  | _ => m

/-- The exact table for a pair of formats, when the leaf holds it (R207). -/
def Leaf.exactTable (l : Leaf) (sf df : Fmt) : Option Nat :=
  let i? := match sf with | .e4m3 => some 0 | .e5m2 => some 1 | _ => none
  let o? := match df with | .bf16 => some 0 | .f16 => some 1 | .e4m3 => some 2 | .e5m2 => some 3 | _ => none
  match i?, o? with
  | some i, some o => if (l.word 3).getLsbD (4 * i + o) then some (4 * i + o) else none
  | _, _ => none

/-- An exact-table entry as a result (R207). -/
def exactEntry (w : Word) : Res Nat :=
  ⟨bits w 15 0, { ovf := w.getLsbD 31, unf := w.getLsbD 30, nx := w.getLsbD 29, nv := w.getLsbD 28
                  sat := if w.getLsbD 31 then 1 else 0 }⟩

/-- The exact path applies (R197). -/
def useExact (v : V1Slot) (l : Leaf) : Option Nat :=
  if l.kind != 8 && v.major == 1 && v.fn == 0 && isRne v.rm v.dcls then
    l.exactTable (fmtOf v.sfmt) (fmtOf v.dfmt)
  else none

/-- One active element of FUNC (R196 to R202, R207). A NaN gives the canonical NaN on the exact path of a user table too,
whatever its entry holds (R198 against R207; DESIGN CHOICE, log 57). -/
def funcElem (e : Env) (l : Leaf) (i a : Nat) : Res Nat :=
  let v := e.b.v1
  let sf := fmtOf v.sfmt
  let df := fmtOf v.dfmt
  (sf.gate a).bind fun c =>
    match sf.value c with
    | .nan => ⟨df.nanCode, .invalid⟩
    | x =>
      match useExact v l with
      | some t => exactEntry (l.word (144 + 256 * t + c))
      | none =>
        let y := (l.eval x).1
        l.finish df (if v.fn = 0 then y else x.mul y) (l.mode (e.rnd v.rm v.dcls i))

/-- One active element of GACT (R208). Where the table's value exceeds every finite value (R200), g = 0 times it is 0
(DESIGN CHOICE, log 55). -/
def gactElem (e : Env) (l : Leaf) (i a g : Nat) : Res Nat :=
  let v := e.b.v1
  let sf := fmtOf v.sfmt
  let df := fmtOf v.dfmt
  (sf.gate a).bind fun ca =>
    (sf.gate g).bind fun cg =>
      match sf.value ca, sf.value cg with
      | .nan, _ => ⟨df.nanCode, .invalid⟩
      | _, .nan => ⟨df.nanCode, .invalid⟩
      | x, y =>
        let p := y.mul (l.eval x).1
        l.finish df (if v.fn = 0 then p else x.mul p) (l.mode (e.rnd v.rm v.dcls i))

/-- The result where the slot has no loaded table (R99), after the gate's reads `gates` (R125). NW writes no
NaN, so it sets no NV (R467; DEDUCED, log 33). -/
def emptySlot (e : Env) (t : State) (act : List Bool) (gates : List (Res Nat)) : State :=
  let v := e.b.v1
  let df := fmtOf v.dfmt
  let t1 := writeTo e.s t e.st v.dst df.bytes (e.policy act (act.map fun _ => df.nanCode))
  (t1.mark 4 0).raise v.dcls.toNat ((raisesOf gates).add (if act.any id && !v.dst.getLsbD 7 then .invalid else .none))

/-- The element results written to DST; NW writes and rounds nothing (R467). -/
def finishFunc (e : Env) (t : State) (act : List Bool) (out : List (Res Nat)) (gates : List (Res Nat)) : State :=
  let v := e.b.v1
  if v.dst.getLsbD 7 then t.raise v.dcls.toNat (raisesOf gates)
  else
    (writeTo e.s t e.st v.dst (fmtOf v.dfmt).bytes (e.policy act (out.map (·.val)))).raise v.dcls.toNat
      (raisesOf out)

/-- FUNC (R196). -/
def funcEffect (e : Env) (t : State) : State :=
  let v := e.b.v1
  if e.vl = 0 then t
  else
    let act := e.active v.km
    let sf := fmtOf v.sfmt
    let src := ((act.zip (e.codes v.src1 sf.bytes)).zipIdx)
    let gates := src.map fun p => if p.1.1 then sf.gate p.1.2 else .pure 0
    match (e.s.mslot v.ts.toNat).table with
    | none => emptySlot e t act gates
    | some l => finishFunc e t act (src.map fun p => if p.1.1 then funcElem e l p.2 p.1.2 else .pure 0) gates

/-- GACT (R208). -/
def gactEffect (e : Env) (t : State) : State :=
  let v := e.b.v1
  if e.vl = 0 then t
  else
    let act := e.active v.km
    let sf := fmtOf v.sfmt
    let src := ((act.zip ((e.codes v.src1 sf.bytes).zip (e.codes v.src2 sf.bytes))).zipIdx)
    let gates := src.map fun p =>
      if p.1.1 then (sf.gate p.1.2.1).bind fun _ => sf.gate p.1.2.2 else .pure 0
    match (e.s.mslot v.ts.toNat).table with
    | none => emptySlot e t act gates
    | some l =>
      finishFunc e t act (src.map fun p => if p.1.1 then gactElem e l p.2 p.1.2.1 p.1.2.2 else .pure 0) gates

/-- The leaf words that a bundle's FUNC or GACT reads (R216): the header words and, for each active
element, its segments or exact entry. -/
def funcWords (e : Env) (l : Leaf) : List Nat :=
  let v := e.b.v1
  let sf := fmtOf v.sfmt
  let per := ((e.active v.km).zip (e.codes v.src1 sf.bytes)).flatMap fun p =>
    if p.1 then
      let c := (sf.gate p.2).val
      match sf.value c with
      | .nan => []
      | x =>
        match useExact v l with
        | some t => [144 + 256 * t + c]
        | none => (l.eval x).2.flatMap fun j => [16 + 2 * j, 17 + 2 * j]
    else []
  List.range 16 ++ per

/-! ### Load checks (R195, R203, R210, R211) -/

def isF32Inf (w : Word) : Bool := match fpF32.value w.toNat with | .inf _ => true | _ => false

def isF32Nan (w : Word) : Bool := (fpF32.value w.toNat).isNan

/-- Segments that a kind uses. -/
def Leaf.segs (l : Leaf) : List Nat := List.range (if l.kind = 8 then 32 else 64)

/-- Parameter words (C0, S0, TP, TN, MULC, XLO) that a kind uses. A DIRECT image uses TN with SYM 0 alone, so with SYM 1
or 2 it must be zero (R210; DESIGN CHOICE, log 57). -/
def Leaf.params (l : Leaf) : List Nat :=
  match l.kind with
  | 0 => [4, 5, 6] ++ (if l.sym = 0 then [7] else [])
  | 3 => [8]
  | 8 => [10]
  | _ => []

/-- Table words that a kind uses. -/
def Leaf.used (l : Leaf) : List Word :=
  (l.params ++ l.segs.flatMap fun j => [16 + 2 * j, 17 + 2 * j]).map l.word

/-- A field reserved or out of range (REASON 2). -/
def Leaf.fieldsOk (l : Leaf) : Bool :=
  let id := bits (l.word 1) 23 16
  let kind := l.kind
  (id ≤ 5 || 0x80 ≤ id) && (kind ≤ 3 || kind == 8) && l.mono != 3 && l.flushSel != 3 &&
    (l.flushSel != 1 || !((l.word 9).getLsbD 31 || (e10Value (l.word 9).toNat).isNan)) &&
    (kind != 0 ||
      (l.sym != 3 && [1, 2, 4, 8, 16, 32].contains l.nb && -126 ≤ l.lo && l.lo + l.nb ≤ 128)) &&
    (kind != 1 || (l.neg ≤ 1 && (l.mb == 1 || l.mb == 2))) &&
    (!(kind == 1 || kind == 2) || (-4 ≤ l.scl && l.scl ≤ 4)) && (kind != 8 || l.mono == 0)

/-- Reserved fields and fields that the kind does not use are zero (REASON 6). -/
def Leaf.zerosOk (l : Leaf) : Bool :=
  let kind := l.kind
  bits (l.word 1) 2 0 == 0 && (kind == 0 || l.sym == 0) && (kind == 1 || (l.neg == 0 && !l.add)) &&
    (kind == 0 || bits (l.word 2) 31 16 == 0) && (kind == 1 || kind == 2 || bits (l.word 2) 15 8 == 0) &&
    (kind == 1 || l.mb == 0) && bits (l.word 3) 31 8 == 0 &&
    ([4, 5, 6, 7, 8, 10].all fun i => l.params.contains i || l.word i == 0) &&
    bits (l.word 11) 31 8 == 0 && (kind == 8 || l.word 11 == 0) && ([13, 14, 15].all fun i => l.word i == 0) &&
    (kind != 8 || (List.range 64).all fun i => l.word (80 + i) == 0) &&
    (kind == 8 || (List.range 8).all fun t =>
      !((l.word 3).getLsbD t) || (List.range 256).all fun i =>
        let w := l.word (144 + 256 * t + i)
        bits w 27 16 == 0 && (t % 4 < 2 || bits w 15 8 == 0))

/-- One run of segments under a declared direction: slopes and shared seams (R203 conditions 1 and 2). -/
def Leaf.runOk (l : Leaf) (up : Bool) (width : Nat → Num) (first n : Nat) : Bool :=
  let z : Num := .fin false 0 0
  (List.range n).all (fun i => let sl := l.slope (first + i); if up then !(sl.lt z) else !(z.lt sl)) &&
    (List.range (n - 1)).all fun i => (l.base (first + i + 1)).eqv (l.seg (first + i) (width i))

/-- E of the last segment of a run. -/
def Leaf.runEnd (l : Leaf) (width : Nat → Num) (first n : Nat) : Num := l.seg (first + n - 1) (width (n - 1))

/-- The checks of R203 for a leaf whose MONO is not zero. -/
def Leaf.monoOk (l : Leaf) : Bool :=
  let up := l.mono == 1
  let le (a b : Num) : Bool := if up then a.le b else b.le a
  let z : Num := .fin false 0 0
  let part (n : Nat) : Num := .fin false 1 (-(n : Int))
  !(l.used.any isF32Nan) &&
  match l.kind with
  | 0 =>
    let n := if l.sym = 0 then 32 else 64
    let spb := n / l.nb
    let width (i : Nat) : Num := .fin false 1 (l.lo + (i / spb : Nat) - Nat.log2 spb)
    let low (neg : Bool) : Num := rneF32 ((l.f32 4).add (rneF32 ((l.f32 5).mul (.fin neg 1 l.lo))))
    let first := if l.sym = 0 then 32 else 0
    (if up then !((l.f32 5).lt z) else !(z.lt (l.f32 5))) && l.runOk up width first n &&
      (low false).eqv (l.base first) && le (l.runEnd width first n) (l.f32 6) &&
      (l.sym != 0 || (l.runOk (!up) width 0 32 && (low true).eqv (l.base 0) &&
        le (l.f32 7) (l.runEnd width 0 32)))
  | 1 =>
    let spb := 64 / l.mb
    let width (i : Nat) : Num := .fin false 1 ((i / spb : Nat) - (Nat.log2 spb : Int))
    let w := if l.add then (l.base 0).add (Num.ofInt l.scl) else (l.base 0).scale l.scl
    l.runOk up width 0 64 && le (l.runEnd width 0 64) w && (if up then 0 ≤ l.scl else l.scl ≤ 0)
  | 2 =>
    l.runOk up (fun _ => part 6) 0 64 && le (l.runEnd (fun _ => part 6) 0 64) ((l.base 0).scale l.scl) &&
      (if up then 0 ≤ l.scl else l.scl ≤ 0)
  | _ =>
    l.runOk up (fun _ => part 5) 0 32 && l.runOk up (fun _ => part 5) 32 32 &&
      le (l.runEnd (fun _ => part 5) 0 32) ((l.base 0).scale (-1))

/-- The REASON of a failed load into a slot, 0 when every check passes (R211, R433). -/
def Leaf.loadReason (l : Leaf) (slot : Nat) : Nat :=
  if l.word 0 ≠ 0x4D544631 || bits (l.word 1) 31 24 ≠ 1 then 1
  else if !l.fieldsOk then 2
  else if slot ≤ 5 && bits (l.word 1) 23 16 ≠ slot then 3
  else if !l.zerosOk then 6
  else if l.used.any isF32Inf then 4
  else if l.mono ≠ 0 && !l.monoOk then 5
  else 0

/-! ### Loads and swaps -/

/-- A leaf repair runs on the slot (R369), or is still to take effect. -/
def State.repairing (s : State) (i : Nat) : Bool :=
  (match s.arb.running with
    | some ⟨.leafRepair j _, _⟩ => j == i
    | _ => false) || s.actWaits (.leafRepair i false) || s.actWaits (.leafRepair i true)

/-- A slot whose swap is refused: it has no leaf, or the leaf to be activated is EMPTY or BAD (R213). -/
def MotifSlot.refuses (x : MotifSlot) : Bool :=
  x.isNoLeaf || (x.leaf x.target).state == .empty || (x.leaf x.target).state == .bad

/-- A pending swap that can no longer be made is refused (R213). One whose inactive leaf is lost stays pending while the
slot has a leaf, and is then a swap to the only leaf (R217; DESIGN CHOICE, log 55). -/
def State.decideSwap (s : State) (i : Nat) : State :=
  let x := s.mslot i
  if x.pending && x.refuses then (s.setMslot i { x with pending := false, reason := 9 }).mark 4 2 else s

/-- A swap request of a slot (R213, R214). Under a leaf repair of the slot it waits, and is decided when the repair
ends (R373). -/
def State.requestSwap (s : State) (i : Nat) : State :=
  let x := s.mslot i
  if x.pending then s.mark 4 3
  else
    let t := s.setMslot i { x with pending := true }
    if s.repairing i then t else t.decideSwap i

/-- The leaf becomes READY or BAD by its verdict; a pending swap to a BAD leaf is refused (R212, R213), under a leaf
repair of the slot when that ends (R373). -/
def State.leafVerdict (s : State) (i : Nat) (b good : Bool) (reason : BitVec 4) : State :=
  let x := s.mslot i
  let l := x.leaf b
  if good then s.setMslot i (x.setLeaf b { l with state := .ready })
  else
    let y := { x.setLeaf b { l with state := .bad } with reason := reason }
    if x.pending && x.target = b && !s.repairing i then (s.setMslot i { y with pending := false }).mark 4 2 else s.setMslot i y

/-- A pending swap takes effect (R213). -/
def State.doSwap (s : State) (i : Nat) : State :=
  let x := s.mslot i
  if x.pending && (x.leaf x.target).state = .ready then
    s.setMslot i { x with active := x.target, pending := false, reload := false }
  else s

/-- A TBLD starts: the leaf is LOADING, TAG and LOADSEQ read 0 (R212, R215). -/
def State.startLoad (s : State) (i : Nat) : State :=
  let x := s.mslot i
  if x.isNoLeaf then s
  else
    let y := x.setLeaf x.target { Leaf.reset with state := .loading }
    s.setMslot i { y with reload := x.isSingle || x.reload }

/-- The words of a storage error's leaf: slot × 2 leaves × 1,096 words of 64 bits. -/
def leafErrOf (e : EccErr) : Nat × Bool × Nat := (e.word / 2192, (e.word / 1096) % 2 == 1, e.word % 1096)

end Sys2Proof.Machine
end

