-- ==== Sys2Proof/Machine/Records.lean ====
section
/-!
DEFINITION. Record headers (R296, R344), the mirror queue and the descriptor buffer (R310, R345, R348).
-/

namespace Sys2Proof.Machine

/-- Header words 0 to 15 of a record (R296); words 10 to 15 are zero for an exchange record. -/
def headerWords (kind : Nat) (src dst : BitVec 37) (tag : Word) (step : BitVec 48) (rcount : Word)
    (rest : List Word) : List Word :=
  [BitVec.ofNat 32 (2 ^ 24 + kind * 2 ^ 20), src.truncate 32, (src >>> 32).truncate 32, dst.truncate 32,
    (dst >>> 32).truncate 32, tag, step.truncate 32, (step >>> 32).truncate 32, rcount, 4096] ++ rest

def hdr (h : List Word) (i : Nat) : Word := h[i]?.getD 0

/-- STEP of a header. -/
def hdrStep (h : List Word) : BitVec 48 := (BitVec.ofNat 16 (bits (hdr h 7) 15 0)) ++ hdr h 6

/-- The source address word of a header. -/
def hdrSrc (h : List Word) : BitVec 37 := (BitVec.ofNat 5 (bits (hdr h 2) 4 0)) ++ hdr h 1

/-- The destination address word of a header. -/
def hdrDst (h : List Word) : BitVec 37 := (BitVec.ofNat 5 (bits (hdr h 4) 4 0)) ++ hdr h 3

def addrPackage (a : BitVec 37) : BitVec 15 := a.extractLsb' 22 15
def addrWz (a : BitVec 37) : BitVec 7 := a.extractLsb' 15 7
def addrStream (a : BitVec 37) : BitVec 15 := a.extractLsb' 0 15

/-- This engine's address on stream `st`. -/
def State.self (s : State) (st : BitVec 15) : BitVec 37 := addrWord s.package s.wz st

/-- The mirror stream number. -/
def State.mirrorStream (s : State) : BitVec 15 := BitVec.ofNat 15 (bits (s.reg 10 0x044) 14 0)

/-- Bytes of a slab, zeros beyond. -/
def padBytes (n : Nat) (bs : List Byte) : List Byte := bs.take n ++ List.replicate (n - bs.length) 0

/-- A mirror record: TAG with MKIND, ROLE, FMT and PART, words 11 to 15; DST, RCOUNT and MSEQ are entered when it is sent
(R296, R346). -/
def State.mirrorRec (s : State) (mkind role fmt part : Nat) (w11 : Word) (pos : BitVec 48) (group count : Word)
    (body : List Byte) : MirrorRec :=
  { hdr := headerWords 1 (s.self s.mirrorStream) (addrWord s.partner.buddyId s.wz s.mirrorStream)
      (BitVec.ofNat 32 (mkind * 2 ^ 28 + role * 2 ^ 24 + fmt * 2 ^ 20 + part * 2 ^ 16)) s.twist.step
      0 [0, w11, pos.truncate 32, (pos >>> 32).truncate 32, group, count]
    body := padBytes 4096 body }

/-- Mirror records handed over while the buddy is absent are discarded: MSEQ and RCOUNT count them, GAP sets (R285,
R296, R346, R349); a buddy bound to an identifier that no package has sets NET_RANGE too (R24). -/
def State.mirrorDiscard (s : State) (n : Nat) : State :=
  let far : Bool := match s.partner.buddy with | some p => Config.maxPackage < p.toNat | none => false
  (({ s with mirror := { s.mirror with mseq := s.mirror.mseq + BitVec.ofNat 32 n, gap := true }
             net := { s.net with rcount := s.net.rcount + BitVec.ofNat 32 n } } : State).goneOnce.bump
    .sendDiscard n).markIf far 14 2

/-- Records enter the mirror queue, or are discarded (R310, R348). -/
def State.mirrorPush (s : State) (rs : List MirrorRec) : State :=
  if s.buddyUp then { s with mirror := { s.mirror with queue := s.mirror.queue ++ rs } }
  else s.mirrorDiscard rs.length

/-- The descriptor buffer is sent as one DESC record and emptied (R345). -/
def State.sendDesc (s : State) : State :=
  match s.mirror.descs with
  | [] => s
  | d :: ds =>
    let r := s.mirrorRec 1 0 0 0 0 0 (hdr d 0) (BitVec.ofNat 32 (ds.length + 1)) (wordsToBytes ((d :: ds).flatten))
    ({ s with mirror := { s.mirror with descs := [] } } : State).mirrorPush [r]

/-- A descriptor enters the buffer; a full buffer is sent (R345). -/
def State.pushDesc (s : State) (d : List Word) : State :=
  let t := { s with mirror := { s.mirror with descs := s.mirror.descs ++ [d] } }
  if t.mirror.descs.length ≥ 64 then t.sendDesc else t

/-- Records of a UPD's group: one or two gradient slabs, weights and one or two moments (R310). -/
def groupSize (ew : Nat) (v : V1Slot) : Nat := runLen ew (fmtOf v.sfmt).bytes + (if v.fn = 1 then 3 else 2)

/-- Whether the mirror queue has room for a UPD's group, and for the DESC record that it may fill (R310). -/
def State.mirrorRoom (s : State) (n : Nat) : Bool :=
  !s.buddyUp || s.mirror.queue.length + n + (if s.mirror.descs.length ≥ 63 then 1 else 0) ≤ Config.mirrorQueue

end Sys2Proof.Machine
end

