-- ==== Sys2Proof/Machine/Exchange.lean ====
section
/-!
DEFINITION. Gradient compression, decoding and the optimiser update: GCMP (R290 to R295), GDEC (R302) and
UPD (R303 to R310).
-/

namespace Sys2Proof.Machine

/-- The words of a slab named by an operand field. -/
def Env.slabWords (e : Env) (f : BitVec 8) : List Word :=
  let o := Opnd.of f
  match e.s.resolve e.st o.h o.k with
  | some (h, k) => bytesToWords (e.s.slabBytes h k 4096)
  | none => List.replicate 1024 0

/-- A whole slab written. -/
def Env.putSlab (e : Env) (t : State) (f : BitVec 8) (bs : List Byte) : State :=
  let o := Opnd.of f
  match e.s.resolve e.st o.h o.k with
  | some (h, k) => t.writeSlab h k bs
  | none => t

/-- The block and the offset of element `i` (R291). -/
def Env.block (e : Env) (i : Nat) : Nat := (e.ctx.coord i).toNat / 4096
def Env.offset (e : Env) (i : Nat) : Nat := (e.ctx.coord i).toNat % 4096

/-- A BF16 value kept as a residual: gated, a NaN canonical with NV (R292). -/
def keepBf16 (code : Nat) : Res Nat :=
  match fpBf16.value code with
  | .nan => ⟨0x7FC0, .invalid⟩
  | _ => .pure code

/-! ### GCMP -/

/-- The progress of a top-k GCMP: pairs held, pair words of this call in reverse, residuals and mask bits in
reverse, FULL, SPAN, the overflow count and the raises. -/
structure TopK where
  count : Nat
  pairs : List Word
  out : List (Option Nat)
  sel : List (Option Bool)
  full : Bool
  span : Bool
  ovf : Nat
  r : Raises
deriving DecidableEq, Repr

/-- One element of a top-k GCMP (R292). -/
def topkStep (e : Env) (blk : Nat) (a : TopK) (p : (Bool × Nat × Nat) × Nat) : TopK :=
  let i := p.2
  if !p.1.1 then
    { a with out := e.masked :: a.out, sel := (if e.mp then some false else none) :: a.sel }
  else
    let g := Fmt.bf16.gate p.1.2.1
    let h := Fmt.f32.gate p.1.2.2
    let x := Fmt.bf16.value g.val
    let tau := Fmt.f32.value h.val
    let r := (a.r.add g.r).add h.r
    let kept := keepBf16 g.val
    let keep : TopK := { a with out := some kept.val :: a.out, sel := some false :: a.sel, r := r.add kept.r }
    if x.isNan || tau.isNan || x.abs.lt tau then keep
    else if a.count ≥ 1022 then { keep with full := true, ovf := a.ovf + 1 }
    else if e.block i % 2 ^ 32 ≠ blk then { keep with span := true }
    else
      { a with count := a.count + 1, pairs := BitVec.ofNat 32 (e.offset i * 2 ^ 16 + g.val) :: a.pairs
               out := some 0 :: a.out, sel := some true :: a.sel, r := r }

/-- The residuals written to SRC1. Where SRC1 is also the payload slab, no rule says which of the two writes
a byte keeps: each residual written is a free value (R290; DESIGN CHOICE, log 15). -/
def Env.putResiduals (e : Env) (t : State) (vals : List (Option Nat)) : State :=
  let v := e.b.v1
  if v.src1 = v.dst then
    writeTo e.s { t with freeCount := t.freeCount + 1 } e.st v.src1 2 ((vals.zipIdx).map fun p =>
      p.1.map fun _ => (Config.freeClash t.freeCount (2 * p.2) ++ Config.freeClash t.freeCount (2 * p.2 + 1)).toNat)
  else writeTo e.s t e.st v.src1 2 vals

/-- GCMP with FN 0 (R292, R293). -/
def gcmpTopk (e : Env) (t : State) : State :=
  let v := e.b.v1
  let old := e.slabWords v.dst
  let fresh := bits (hdr old 0) 31 28 ≠ 1
  let w := if fresh then
      [0x10000000#32, BitVec.ofNat 32 (e.block 0 % 2 ^ 32)] ++ List.replicate 1022 0
    else old
  let n := bits (hdr w 0) 9 0
  let act := e.active v.km
  let src := (act.zip ((e.codes v.src1 2).zip (e.codes v.src2 4))).zipIdx
  let a := src.foldl (topkStep e (hdr w 1).toNat)
    { count := n, pairs := [], out := [], sel := [], full := false, span := false, ovf := 0, r := .none }
  let w0 := (hdr w 0 &&& 0xFFFFFC00#32) ||| BitVec.ofNat 32 a.count
  let body := (w0 :: (w.drop 1).take (1 + n)) ++ a.pairs.reverse
  let words := body ++ w.drop body.length
  let t1 := e.putSlab t v.dst (wordsToBytes words)
  let t2 := e.putResiduals t1 a.out.reverse
  let t3 := t2.setMask v.aux.toNat (maskWrite (e.s.mask v.aux.toNat) a.sel.reverse)
  ((t3.markIf a.full 9 0).markIf a.span 9 1 |>.bump .gcmpOvf a.ovf).raise v.dcls.toNat a.r

/-- The progress of a sign GCMP. -/
structure SignAcc where
  words : List Word
  nblk : Nat
  out : List (Option Nat)
  full : Bool
  r : Raises
deriving DecidableEq, Repr

/-- One element of a sign GCMP (R294). The scale word takes the bits of s as they stand behind the gate: a NaN keeps its
own bits there (R294; DEDUCED, log 53). -/
def signStep (e : Env) (first : Nat) (a : SignAcc) (p : (Bool × Nat × Nat) × Nat) : SignAcc :=
  let i := p.2
  if !p.1.1 then { a with out := e.masked :: a.out }
  else
    let g := Fmt.bf16.gate p.1.2.1
    let h := Fmt.f32.gate p.1.2.2
    let r := (a.r.add g.r).add h.r
    let b := (e.block i + 2 ^ 32 - first) % 2 ^ 32
    if 6 < b then
      let k := keepBf16 g.val
      { a with out := some k.val :: a.out, full := true, r := r.add k.r }
    else
      let neg := g.val.testBit 15
      let k := e.offset i
      let wi := 16 + 128 * b + k / 32
      let old := hdr a.words wi
      let bit := BitVec.ofNat 32 (2 ^ (k % 32))
      let x := Fmt.bf16.value g.val
      let s := Fmt.f32.value h.val
      let res := Fmt.bf16.round (if neg then x.add s else x.sub s) (.sr (e.draw e.ctx.tid i))
      { words := (a.words.set wi (if neg then old ||| bit else old &&& ~~~bit)).set (2 + b) (BitVec.ofNat 32 h.val)
        nblk := max a.nblk (b + 1), out := some res.val :: a.out, full := a.full, r := r.add res.r }

/-- GCMP with FN 1 (R294, R295). -/
def gcmpSign (e : Env) (t : State) : State :=
  let v := e.b.v1
  let old := e.slabWords v.dst
  let fresh := bits (hdr old 0) 31 28 ≠ 2
  let w := if fresh then
      [0x20000000#32, BitVec.ofNat 32 (e.block 0 % 2 ^ 32)] ++ List.replicate 1022 0
    else old
  let act := e.active v.km
  let src := (act.zip ((e.codes v.src1 2).zip (e.codes v.src2 4))).zipIdx
  let a := src.foldl (signStep e (hdr w 1).toNat)
    { words := w, nblk := bits (hdr w 0) 2 0, out := [], full := false, r := .none }
  let w0 := (hdr w 0 &&& 0xFFFFFFF8#32) ||| BitVec.ofNat 32 a.nblk
  let t1 := e.putSlab t v.dst (wordsToBytes (a.words.set 0 w0))
  ((e.putResiduals t1 a.out.reverse).markIf a.full 9 0).raise v.dcls.toNat a.r

/-- GCMP (R290). -/
def gcmpEffect (e : Env) (t : State) : State :=
  if e.vl = 0 then t else if e.b.v1.fn = 0 then gcmpTopk e t else gcmpSign e t

/-! ### GDEC -/

/-- A payload that GDEC refuses (R302). -/
def payloadBad (fn : Nat) (w : List Word) : Bool :=
  let w0 := hdr w 0
  if fn = 0 then
    let n := bits w0 9 0
    bits w0 31 28 != 1 || 1022 < n || bits w0 27 10 != 0 ||
      ((w.drop 2).take n).any (fun x => bits x 31 28 != 0) || (w.drop (2 + n)).any (· != 0)
  else
    let n := bits w0 2 0
    bits w0 31 28 != 2 || n == 0 || bits w0 27 3 != 0 || ((w.drop 9).take 7).any (· != 0) ||
      (w.drop 912).any (· != 0)

/-- The contributions to element `i`, gated (R302). -/
def contributions (e : Env) (w : List Word) (i : Nat) : List (Res Num) :=
  if e.b.v1.fn = 0 then
    let blk := (hdr w 1).toNat
    (((w.drop 2).take (bits (hdr w 0) 9 0)).filter fun x =>
        (blk * 4096 + bits x 27 16) % 2 ^ 48 = (e.ctx.coord i).toNat).map fun x =>
      (Fmt.bf16.gate (bits x 15 0)).map Fmt.bf16.value
  else
    let first := (hdr w 1).toNat
    let blk := e.block i
    if first ≤ blk && blk < first + bits (hdr w 0) 2 0 then
      let b := blk - first
      let k := e.offset i
      let neg := (hdr w (16 + 128 * b + k / 32)).getLsbD (k % 32)
      [(Fmt.f32.gate (hdr w (2 + b)).toNat).map fun c => if neg then (Fmt.f32.value c).neg else Fmt.f32.value c]
    else []

/-- One element of an accepted GDEC: none where nothing is added. -/
def gdecElem (e : Env) (w : List Word) (i d : Nat) : Res (Option Nat) :=
  match contributions e w i with
  | [] => .pure none
  | cs =>
    (Fmt.f32.gate d).bind fun g =>
      ⟨(cs.foldl (fun a c => a.add c.val) (Fmt.f32.value g)), raisesOf cs⟩ |> fun (x : Res Num) =>
        x.bind fun s => (Fmt.f32.round s (.sr (e.draw e.ctx.tid i))).map some

/-- GDEC (R302). -/
def gdecEffect (e : Env) (t : State) : State :=
  let v := e.b.v1
  if e.vl = 0 then t
  else
    let w := e.slabWords v.src1
    let act := e.active v.km
    if payloadBad v.fn.toNat w then
      ((writeTo e.s t e.st v.dst 4 (e.policy act (act.map fun _ => 0x7FC00000))).mark 9 6).raiseNv v.dcls.toNat
    else
      let out := ((act.zip (e.codes v.dst 4)).zipIdx).map fun p =>
        if p.1.1 then gdecElem e w p.2 p.1.2 else .pure e.masked
      (writeTo e.s t e.st v.dst 4 (out.map (·.val))).raise v.dcls.toNat (raisesOf out)

/-! ### UPD -/

/-- The hyperparameters P0 to P7 behind the gate, and their raw words (R303). -/
def Env.hyper (e : Env) : List (Res Lane) × List Word :=
  let w := (e.slabWords (e.b.v1.src2 + 2)).take 8
  (w.map fun x => loadLane .f32 .f32 x.toNat, w)

/-- What an element of UPD computed: w1, m1, v1 in F32 and whether any value was NaN. -/
structure UpdVal where
  w : Nat
  m : Nat
  v : Nat
  nan : Bool
  empty : Bool
deriving DecidableEq, Repr

def fmul (a b : Lane) : Res Lane := (mulLane .f32 a b).map fun c => ⟨c, false⟩
def fadd (a b : Lane) : Res Lane := (addLane .f32 a.code b.code).map fun c => ⟨c, false⟩
def fsub (a b : Lane) : Res Lane :=
  ((negLane .f32 b.code).bind fun n => addLane .f32 a.code n).map fun c => ⟨c, false⟩

/-- rsqrt5 (R304): slot 5's leaf with DFMT F32, rounded by RNE; the canonical NaN from an empty slot. -/
def rsqrt5 (l : Option Leaf) (x : Lane) : Res Lane :=
  match l with
  | none => ⟨⟨0x7FC00000, false⟩, .invalid⟩
  | some l =>
    match fpF32.value x.code with
    | .nan => ⟨⟨0x7FC00000, false⟩, .invalid⟩
    | n => (l.finish .f32 (l.eval n).1 (l.mode .rne)).map fun c => ⟨c, false⟩

def laneNan (x : Lane) : Bool := (fpF32.value x.code).isNan

/-- The element computation of R304 in form 0. -/
def updMomentum (p : Nat → Lane) (g0 w m : Lane) : Res UpdVal :=
  (fmul (p 7) g0).bind fun g =>
    (fmul (p 1) m).bind fun a =>
      (fadd a g).bind fun m1 =>
        (fmul (p 4) w).bind fun d =>
          (fadd m1 d).bind fun q =>
            (fmul (p 0) q).bind fun z =>
              (fsub w z).map fun w1 => ⟨w1.code, m1.code, 0, laneNan m1 || laneNan w1, false⟩

/-- The element computation of R304 in form 1. -/
def updSecond (p : Nat → Lane) (k1 k2 : Lane) (leaf : Option Leaf) (g0 w m v : Lane) : Res UpdVal :=
  (fmul (p 7) g0).bind fun g =>
    (fmul (p 1) m).bind fun a => (fmul k1 g).bind fun b => (fadd a b).bind fun m1 =>
      (fmul (p 2) v).bind fun c => (fmul g g).bind fun gg => (fmul k2 gg).bind fun f => (fadd c f).bind fun v1 =>
        (fmul (p 6) v1).bind fun h => (fadd h (p 3)).bind fun arg => (rsqrt5 leaf arg).bind fun d =>
          (fmul (p 5) m1).bind fun mc => (fmul mc d).bind fun u =>
            (fmul (p 4) w).bind fun dec => (fadd u dec).bind fun q => (fmul (p 0) q).bind fun z =>
              (fsub w z).map fun w1 =>
                ⟨w1.code, m1.code, v1.code, laneNan m1 || laneNan v1 || laneNan d || laneNan w1, leaf.isNone⟩

/-- One element written back: weights, first and second moment codes, none where it is kept (R304, R305). -/
def updWrite (e : Env) (i : Nat) (x : Res UpdVal) : Res (Option (Nat × Nat × Nat)) :=
  if x.val.nan then ⟨none, x.r.add .invalid⟩
  else
    let v := e.b.v1
    let tid := e.ctx.tid
    x.bind fun y =>
      ((fmtOf v.dfmt).round (fpF32.value y.w) (.sr (e.draw tid i))).bind fun w =>
        (Fmt.bf16.round (fpF32.value y.m) (.sr (e.draw (tid + 1) i))).bind fun m =>
          if v.fn = 0 then .pure (some (w, m, 0))
          else (Fmt.bf16.round (fpF32.value y.v) (.sr (e.draw (tid + 2) i))).map fun q => some (w, m, q)

/-- A slab's bytes for a mirror record. -/
def Env.slabOf (e : Env) (t : State) (f : BitVec 8) (j : Nat) : List Byte :=
  let o := Opnd.of f
  match e.s.resolve e.st o.h (o.k + j) with
  | some (h, k) => t.slabBytes h k 4096
  | none => []

/-- The mirror group of an effective UPD, for which room is kept no longer (R310, R344, R345, R348). -/
def updMirror (e : Env) (t : State) (praw : List Word) : State :=
  let v := e.b.v1
  let ctx := e.ctx
  let g := t.mirror.group
  let row (tid : BitVec 16) : Word := tid ++ BitVec.ofNat 16 e.vl
  let rec_ (role fmt part : Nat) (tid : BitVec 16) (bs : List Byte) : MirrorRec :=
    t.mirrorRec 0 role fmt part (row tid) ctx.base g 0 bs
  let n := runLen 2 (fmtOf v.sfmt).bytes
  let recs := ((List.range n).map fun j => rec_ 5 v.sfmt.toNat j ctx.tid (e.slabOf e.s v.src1 j)) ++
    [rec_ 1 v.dfmt.toNat 0 ctx.tid (e.slabOf t v.dst 0), rec_ 2 1 0 (ctx.tid + 1) (e.slabOf t v.src2 0)] ++
    (if v.fn = 1 then [rec_ 3 1 0 (ctx.tid + 2) (e.slabOf t (v.src2 + 1) 0)] else [])
  let d : List Word :=
    [g, t.mirror.mseq + BitVec.ofNat 32 t.mirror.queue.length, row ctx.tid, ctx.base.truncate 32,
      v.dfmt ++ v.sfmt ++ v.fn ++ (ctx.base >>> 32).truncate 16, BitVec.ofNat 32 recs.length, 0, 0] ++ praw
  let t1 := t.mirrorPush recs
  ({ t1 with mirror := { t1.mirror with group := g + 1, owed := none } } : State).pushDesc d

/-- An effective UPD at VL above zero (R303 to R305). -/
def updRun (e : Env) (t : State) : State :=
  let v := e.b.v1
  let (ps, praw) := e.hyper
  let p (k : Nat) : Lane := ((ps[k]?).map (·.val)).getD Lane.zero
  let one : Lane := ⟨0x3F800000, false⟩
  let k1 := if v.fn = 1 then fsub one (p 1) else .pure one
  let k2 := if v.fn = 1 then fsub one (p 2) else .pure one
  let leaf := (e.s.mslot 5).table
  let act := e.active v.km
  let sf := fmtOf v.sfmt
  let df := fmtOf v.dfmt
  let src := (act.zip ((e.codes v.src1 sf.bytes).zip ((e.codes v.dst df.bytes).zip
    ((e.codes v.src2 2).zip (e.codes (v.src2 + 1) 2))))).zipIdx
  let out := src.map fun q =>
    if !q.1.1 then .pure none
    else
      let x :=
        (loadLane .f32 sf q.1.2.1).bind fun g =>
          (loadLane .f32 df q.1.2.2.1).bind fun w =>
            (loadLane .f32 .bf16 q.1.2.2.2.1).bind fun m =>
              if v.fn = 0 then updMomentum p g w m
              else (loadLane .f32 .bf16 q.1.2.2.2.2).bind fun y => updSecond p k1.val k2.val leaf g w m y
      updWrite e q.2 x
  let nans := ((act.zip out).filter fun q => q.1 && q.2.val.isNone).length
  let vals := out.map (·.val)
  let t1 := writeTo e.s t e.st v.dst df.bytes (vals.map fun x => x.map (·.1))
  let t2 := writeTo e.s t1 e.st v.src2 2 (vals.map fun x => x.map (·.2.1))
  let t3 := if v.fn = 1 then writeTo e.s t2 e.st (v.src2 + 1) 2 (vals.map fun x => x.map (·.2.2)) else t2
  let t4 := (t3.bump .updNan nans).markIf (v.fn == 1 && leaf.isNone) 4 0
  updMirror e (t4.raise 2 ((((raisesOf ps).add k1.r).add k2.r).add (raisesOf out))) praw

/-- UPD (R303 to R308): a no-op that is counted unless the guard is frozen clear. -/
def updEffect (e : Env) (t : State) : State :=
  if e.vl = 0 then t
  else
    match e.cap.guard with
    | some false => updRun e t
    | some true => (t.bump .updBlocked 1).mark 14 7
    | none => (t.bump .updBlocked 1).mark 14 8

end Sys2Proof.Machine
end

