-- ==== Sys2Proof/Machine/Cipher.lean ====
section
/-!
DEFINITION. AES-256 and AES-256-GCM as the spec names them (R376, R378). PRESUMED: the algorithms are those
of FIPS 197 and NIST SP 800-38D, which the spec cites and does not restate (log 8).
-/

namespace Sys2Proof.Machine

/-! ### AES-256 -/

/-- Multiplication by x in the field of AES. -/
def xtime (b : Byte) : Byte := (b <<< 1) ^^^ (if b.getLsbD 7 then 0x1B else 0)

/-- Multiplication in the field of AES. -/
def gfMul (a b : Byte) : Byte :=
  ((List.range 8).foldl (fun (acc : Byte × Byte) i =>
    (if b.getLsbD i then acc.1 ^^^ acc.2 else acc.1, xtime acc.2)) (0, a)).1

/-- The inverse, as the 254th power; 0 for 0. -/
def gfInv (a : Byte) : Byte :=
  ((List.range 7).foldl (fun (acc : Byte × Byte) _ =>
    let sq := gfMul acc.2 acc.2
    (gfMul acc.1 sq, sq)) (1, a)).1

/-- The substitution of AES. -/
def subByte (a : Byte) : Byte :=
  let i := gfInv a
  i ^^^ i.rotateLeft 1 ^^^ i.rotateLeft 2 ^^^ i.rotateLeft 3 ^^^ i.rotateLeft 4 ^^^ 0x63

def byteAt (l : List Byte) (i : Nat) : Byte := l[i]?.getD 0

/-- Rows of the column-ordered state shifted. -/
def shiftRows (s : List Byte) : List Byte := (List.range 16).map fun i => byteAt s ((i + 4 * (i % 4)) % 16)

/-- Columns mixed. -/
def mixColumns (s : List Byte) : List Byte :=
  (List.range 16).map fun i =>
    let c := 4 * (i / 4)
    let g (k : Nat) : Byte := byteAt s (c + (i + k) % 4)
    gfMul 2 (g 0) ^^^ gfMul 3 (g 1) ^^^ g 2 ^^^ g 3

def xorBytes (a b : List Byte) : List Byte := List.zipWith (· ^^^ ·) a b

/-- The round constant of key-schedule step `n`. -/
def rcon (n : Nat) : Byte := (List.range (n - 1)).foldl (fun b _ => xtime b) 1

/-- One word of the key schedule after the eighth, from the words so far in reverse. -/
def nextKeyWord (rev : List (List Byte)) : List Byte :=
  let i := rev.length
  let prev := rev.head?.getD []
  let t :=
    if i % 8 = 0 then
      xorBytes ((prev.drop 1 ++ prev.take 1).map subByte) [rcon (i / 8), 0, 0, 0]
    else if i % 8 = 4 then prev.map subByte
    else prev
  xorBytes (rev[7]?.getD []) t

/-- The fifteen round keys of a 32-byte key. -/
def roundKeys (key : List Byte) : List (List Byte) :=
  let rev := (List.range 52).foldl (fun (r : List (List Byte)) _ => nextKeyWord r :: r) ((cut 4 key).reverse)
  (cut 4 rev.reverse).map List.flatten

/-- One block under the round keys. -/
def aesBlock (ks : List (List Byte)) (blk : List Byte) : List Byte :=
  let k (i : Nat) : List Byte := ks[i]?.getD []
  let s := (List.range 13).foldl (fun (s : List Byte) r =>
    xorBytes (mixColumns (shiftRows (s.map subByte))) (k (r + 1))) (xorBytes blk (k 0))
  xorBytes (shiftRows (s.map subByte)) (k 14)

/-! ### GCM -/

/-- Bytes, most significant first. -/
def beBytes (n v : Nat) : List Byte := (leBytes n v).reverse

def beNat (bs : List Byte) : Nat := leNat bs.reverse

/-- Multiplication in the field of GCM; bit 127 of the vector is the first bit. -/
def ghMul (x y : BitVec 128) : BitVec 128 :=
  ((List.range 128).foldl (fun (acc : BitVec 128 × BitVec 128) i =>
    (if x.getLsbD (127 - i) then acc.1 ^^^ acc.2 else acc.1,
      (acc.2 >>> 1) ^^^ (if acc.2.getLsbD 0 then 0xE1000000000000000000000000000000#128 else 0)))
    (0, y)).1

/-- Blocks of 16 bytes as vectors, the last filled with zeros. -/
def ghBlocks (bs : List Byte) : List (BitVec 128) :=
  (cut 16 bs).map fun b => BitVec.ofNat 128 (beNat (b ++ List.replicate (16 - b.length) 0))

/-- The hash of additional data and ciphertext. -/
def ghash (h : BitVec 128) (aad ct : List Byte) : BitVec 128 :=
  (ghBlocks aad ++ ghBlocks ct ++ [BitVec.ofNat 64 (8 * aad.length) ++ BitVec.ofNat 64 (8 * ct.length)]).foldl
    (fun y b => ghMul (y ^^^ b) h) 0

/-- The key stream applied to data, from counter 2. -/
def gcmStream (ks : List (List Byte)) (iv bs : List Byte) : List Byte :=
  ((cut 16 bs).zipIdx).flatMap fun p => xorBytes p.1 (aesBlock ks (iv ++ beBytes 4 (p.2 + 2)))

/-- The tag of a ciphertext. -/
def gcmTag (ks : List (List Byte)) (iv aad ct : List Byte) : BitVec 128 :=
  let h := BitVec.ofNat 128 (beNat (aesBlock ks (List.replicate 16 0)))
  ghash h aad ct ^^^ BitVec.ofNat 128 (beNat (aesBlock ks (iv ++ beBytes 4 1)))

end Sys2Proof.Machine
end

