-- ==== Sys2Proof/Machine/Seal.lean ====
section
/-!
DEFINITION. Key slots, sender keys, sealing and verification of records (R375 to R381), and measurement
streams (R382, R383).
-/

namespace Sys2Proof.Machine

/-! ### Key slots -/

def State.key (s : State) (k : Nat) : KeySlot := s.keys.keys[k]?.getD KeySlot.reset

def State.setKey (s : State) (k : Nat) (x : KeySlot) : State :=
  { s with keys := { s.keys with keys := s.keys.keys.setIfInBounds k x } }

/-- The inbound senders held for purpose `p` replaced. -/
def State.setInbound (s : State) (p : Nat) (l : List (BitVec 22)) : State :=
  { s with keys := { s.keys with inbound := s.keys.inbound.setIfInBounds p l } }

/-- An inbound sender key is used: it is the latest of the 64 held, and the least recently used one goes (R376). -/
def State.useInbound (s : State) (p : Nat) (a : BitVec 22) : State :=
  s.setInbound p ((a :: ((s.keys.inbound[p]?.getD []).filter (· != a))).take 64)

/-- The next key moves into slot `p`, its own slot becomes EMPTY, and the inbound keys of the purpose go (R377). -/
def State.promote (s : State) (p : Nat) : State :=
  ((s.setKey p (s.key (p + 2))).setKey (p + 2) KeySlot.reset).setInbound p []

/-- A restarted nonce counter spends the slot that sealed in the step now held (R377). -/
def State.spend (s : State) (p : Nat) : State :=
  let k := s.key p
  if k.state = .live && k.lastStep = some s.twist.step then s.setKey p { k with state := .spent } else s

/-- The key that seals purpose `p` next (R377, R379), after a promotion; none when the record is discarded. -/
def State.sealKey (s : State) (p : Nat) : Option (BitVec 256) × State :=
  match (s.key p).state with
  | .live => (some (s.key p).key, s)
  | .spent =>
    if (s.key (p + 2)).state = .live then
      let t := s.promote p
      (some (t.key p).key, t)
    else (none, s.mark 13 1)
  | .empty => (none, s.mark 13 2)

/-! ### Records on the wire -/

/-- The sender key of R376 for slot key `k`, purpose and the address bits [36:15]. -/
def senderKey (k : BitVec 256) (purpose : Nat) (a : BitVec 22) : List Byte :=
  let ks := roundKeys (beBytes 32 k.toNat)
  let blk (n : Nat) : List Byte := beBytes 2 (n * 256 + purpose) ++ beBytes 3 a.toNat ++ List.replicate 11 0
  aesBlock ks (blk 1) ++ aesBlock ks (blk 2)

/-- KIND of a header: true for a mirror record. -/
def hdrMirror (h : List Word) : Bool := bits (hdr h 0) 23 20 == 1

/-- The 96-bit IV of a record (R378). -/
def recIv (h : List Word) : List Byte :=
  let kind : Nat := if hdrMirror h then 1 else 0
  beBytes 6 (hdrStep h).toNat ++ beBytes 2 (kind * 2 ^ 15 + (addrStream (hdrSrc h)).toNat) ++
    beBytes 4 (hdr h (if hdrMirror h then 10 else 8)).toNat

/-- The round keys under which a record with header `h` travels. -/
def recKeys (k : BitVec 256) (h : List Word) : List (List Byte) :=
  roundKeys (senderKey k (if hdrMirror h then 1 else 0) ((hdrSrc h).extractLsb' 15 22))

/-- A sealed record (R378). -/
def sealRec (k : BitVec 256) (h : List Word) (body : List Byte) : WireRec :=
  let ks := recKeys k h
  let ct := gcmStream ks (recIv h) body
  { hdr := h, body := ct, tag := gcmTag ks (recIv h) (wordsToBytes h) ct }

/-- Whether a record verifies under a slot key. -/
def recOk (k : BitVec 256) (r : WireRec) : Bool :=
  gcmTag (recKeys k r.hdr) (recIv r.hdr) (wordsToBytes r.hdr) r.body == r.tag

/-- The payload of a verified record. -/
def openRec (k : BitVec 256) (r : WireRec) : List Byte := gcmStream (recKeys k r.hdr) (recIv r.hdr) r.body

/-- Verification of an inbound record (R380, R381): the payload, or none when it is dropped. A key under which
the record passes is used; a drop records no field of the record, so it leaves the held keys as they were. -/
def State.verify (s : State) (r : WireRec) : Option (List Byte) × State :=
  let p := if hdrMirror r.hdr then 1 else 0
  let k := s.key p
  let n := s.key (p + 2)
  let a : BitVec 22 := (hdrSrc r.hdr).extractLsb' 15 22
  if k.state ≠ .empty && recOk k.key r then (some (openRec k.key r), s.useInbound p a)
  else if n.state = .live && recOk n.key r then (some (openRec n.key r), (s.promote p).useInbound p a)
  else (none, (s.mark 13 3).bump .sealFail 1)

/-! ### The outbound port -/

/-- A record discarded on its way out (R283, R285, R379); a mirror record sets GAP (R349). -/
def State.discardOut (s : State) (mirror : Bool) : State :=
  let t := s.bump .sendDiscard 1
  if mirror then { t with mirror := { t.mirror with gap := true } } else t

/-- A record sealed under its purpose's key enters the outbound port, or is discarded (R377 to R379). -/
def State.sendRecord (s : State) (h : List Word) (body : List Byte) (st : Stream) (index : Nat) : State :=
  let mirror := hdrMirror h
  let p := if mirror then 1 else 0
  match s.sealKey p with
  | (none, t) => t.discardOut mirror
  | (some k, t) =>
    let u := t.setKey p { t.key p with lastStep := some (hdrStep h) }
    let pk := addrPackage (hdrDst h)
    let o : OutRec := { mirror := mirror, package := pk, counter := hdr h (if mirror then 10 else 8)
                        wire := sealRec k h body, stream := st, index := index }
    ({ u with net := { u.net with outQ := u.net.outQ ++ [o] } } : State).exchanged pk

/-! ### Measurement -/

/-- The prefix and content of a measurement stream as words (R382). -/
def State.measureWords (s : State) (t : MeasTarget) : List Word :=
  match t with
  | .leaf sl b =>
    let l := (s.motif.slots[sl.toNat]?.getD MotifSlot.reset)
    let im := (if b then l.leafB else l.leafA).image
    [0x4D535231, BitVec.ofNat 32 (1 + 256 * sl.toNat + (if b then 65536 else 0)), 8768, 0] ++
      (List.range Config.leafWords).map fun i => im.get 0 i
  | .store =>
    [0x4D535231, 2, 8192, 0] ++ (List.range (8 * Config.edgingBundles)).map fun i => s.estore.get 0 i

/-- The next requested stream begins when none is being sent (R383). -/
def State.measNext (s : State) : State :=
  match s.keys.sending, s.keys.requested with
  | none, t :: ts => { s with keys := { s.keys with sending := some t, requested := ts } }
  | _, _ => s

/-- A stream is requested (R382); a repeat of one that is unsent merges with it (R453). -/
def State.measRequest (s : State) (t : MeasTarget) : State :=
  if s.keys.requested.contains t || s.keys.sending = some t then s
  else
    ({ s with keys := { s.keys with requested := s.keys.requested ++ [t] } } : State).measNext

/-- A measurement is cancelled: its stream is no longer sent, and the verdict on one that has gone out is discarded
(R383). -/
def State.measCancel (s : State) (t : MeasTarget) : State :=
  let k := s.keys
  ({ s with keys := { k with requested := k.requested.filter (· != t), awaiting := k.awaiting.filter (· != t)
                             stale := k.stale ++ k.awaiting.filter (· == t)
                             sending := if k.sending = some t then none else k.sending } } : State).measNext

end Sys2Proof.Machine
end

