-- ==== Sys2Proof/Machine/Transfers.lean ====
section
/-!
DEFINITION. The M slot: fabric transfers captured at issue (R59, R60, R67, R101, R135 to R138), network
transfers (R281 to R285, R296, R301), the matrix engine's tiles (R252, R272, R274), and moves between
scalars, masks and slabs (R58, R101, R102).
-/

namespace Sys2Proof.Machine

/-! ### Elements of a transfer -/

/-- Whether every one of `n` bytes from an address is mapped (R17, R18). -/
def mapped (a n : Nat) : Bool := (List.range n).all fun j => target (wrap48 (a + j)) != .unmapped

/-- The byte of the hoop name space that holds element `i` of width `w` of an operand field. -/
def Env.hoopByte (e : Env) (f : BitVec 8) (w i : Nat) : Option Nat :=
  let o := Opnd.of f
  let vm := e.s.vlmaxAt w
  (e.s.resolve e.st o.h (o.k + i / vm)).map fun p => (p.1 * 16 + p.2) * 4096 + i % vm * w

/-- The descriptor named by DSC, and D' after it (R135). -/
def Env.dscN (e : Env) : Nat := e.b.m.dsc.toNat
def Env.desc (e : Env) : Desc := e.ctx.descAt e.dscN
def Env.desc' (e : Env) : Desc := e.ctx.descAt ((e.dscN + 1) % 16)

/-- The byte address of element `i` (R59, R101). -/
def Env.elemAddr (e : Env) (idx : List Nat) (w i : Nat) : Nat :=
  let m := e.b.m
  let base : Int := (e.desc.base.toNat : Int)
  if m.major = 3 || m.major = 4 then wrap48 (base + signedValue 32 (idx[i]?.getD 0) * w)
  else wrap48 (base + (i : Int) * (e.ctx.stride m.esr.toNat).toInt * w)

/-- What one element of a load does: an access, or the bytes that it writes as zero and whether its address
was unmapped. -/
def loadPart (src n : Nat) (bytes : Nat) (dst : Option Nat) (ok : Bool) : Option LoadEl × List Nat × Bool :=
  match dst with
  | none => (none, [], false)
  | some d => if ok then (some ⟨src, n, d⟩, [], false) else (none, (List.range bytes).map (d + ·), true)

/-- A masked destination element of a load: zero under MP 1 (R62). -/
def Env.maskedPart (e : Env) (w : Nat) (dst : Option Nat) : Option LoadEl × List Nat × Bool :=
  match dst with
  | some d => if e.mp then (none, (List.range w).map (d + ·), false) else (none, [], false)
  | none => (none, [], false)

/-- The parts of a load as one operation. -/
def loadOf (parts : List (Option LoadEl × List Nat × Bool)) (both : List Nat) : XferOp :=
  .load (parts.filterMap (·.1)) (parts.flatMap (·.2.1)) (parts.any (·.2.2)) both

/-- First bytes written by the parts of a load. -/
def partBytes (parts : List (Option LoadEl × List Nat × Bool)) : List Nat :=
  parts.flatMap fun p => (match p.1 with | some x => [x.dst] | none => []) ++ p.2.1

/-- The indices of a GATHER or SCATTER. -/
def Env.indices (e : Env) : List Nat :=
  if e.b.m.major = 3 || e.b.m.major = 4 then e.codes e.b.m.xs 4 else []

/-- LD and GATHER of plain formats. -/
def Env.loadPlain (e : Env) : XferOp :=
  let m := e.b.m
  let w := (fmtOf m.mfmt).bytes
  let idx := e.indices
  loadOf (((e.active m.km).zipIdx).map fun p =>
    let dst := e.hoopByte m.hs w p.2
    if p.1 then
      let a := e.elemAddr idx w p.2
      loadPart (8 * a) (8 * w) w dst (mapped a w)
    else e.maskedPart w dst) []

/-- Blocks that hold an active element. -/
def liveBlocks (act : List Bool) : List Bool := (cut 32 act).map fun b => b.any id

/-- Two operand fields name one slab, the alias of held tiles resolved (R257). -/
def Env.sameSlab (e : Env) (f g : BitVec 8) : Bool :=
  let at_ (x : BitVec 8) : Option (Nat × Nat) := e.s.resolve e.st (Opnd.of x).h (Opnd.of x).k
  !f.getLsbD 7 && !g.getLsbD 7 && at_ f == at_ g

/-- LD of an MX format (R135, R137). Where XS names the slab of HS, no rule says which of the two writes a
byte keeps: such bytes are free values (R137; DESIGN CHOICE, log 15). An XS with NW writes no scale (R83; log 48). -/
def Env.loadMx (e : Env) (t : MxElt) : XferOp :=
  let m := e.b.m
  let n : Nat := t.bits
  let act := e.active m.km
  let base := e.desc.base.toNat
  let sbase := e.desc'.base.toNat
  let elems := act.zipIdx.map fun p =>
    let dst := e.hoopByte m.hs 1 p.2
    if p.1 then
      let lo := 8 * base + p.2 * n
      loadPart lo n 1 dst (mapped (lo / 8) ((lo + n - 1) / 8 - lo / 8 + 1))
    else e.maskedPart 1 dst
  let scales := (liveBlocks act).zipIdx.map fun p =>
    if p.1 && !m.xs.getLsbD 7 then
      loadPart (8 * (sbase + p.2)) 8 1 (e.hoopByte m.xs 1 p.2) (mapped (sbase + p.2) 1)
    else (none, [], false)
  loadOf (elems ++ scales)
    (if e.sameSlab m.hs m.xs then (partBytes scales).filter fun d => (partBytes elems).contains d else [])

/-- Stored elements, those at unmapped addresses left out (R17). -/
def storeOf (els : List StoreEl) : XferOp :=
  let ok := els.filter fun x => mapped x.addr x.bytes.length
  .store ok (ok.length != els.length)

/-- ST and SCATTER of plain formats. -/
def Env.storePlain (e : Env) : XferOp :=
  let m := e.b.m
  let w := (fmtOf m.mfmt).bytes
  let idx := e.indices
  storeOf ((((e.active m.km).zip (e.codes m.hs w)).zipIdx).filterMap fun p =>
    if p.1.1 then some ⟨e.elemAddr idx w p.2, leBytes w p.1.2⟩ else none)

/-- ST of an MX format: every byte that holds a bit of an active element, formed from the hoop (R138). A byte of
memory that the store names both as a packed element byte and as a scale byte takes a free value, since no rule
says which of the two it keeps; `draw` numbers it (R138; DESIGN CHOICE, log 15). -/
def Env.storeMx (e : Env) (t : MxElt) (draw : Nat) : XferOp :=
  let m := e.b.m
  let n : Nat := t.bits
  let act := e.active m.km
  let total := (e.vl + 31) / 32 * 32
  let vm := e.s.vlmaxAt 1
  let codes := (readRun e.s e.st (Opnd.of m.hs) 1 (min total vm)).map fun c => c % 2 ^ n
  let stream : Nat := codes.foldr (fun (c acc : Nat) => acc * 2 ^ n + c) 0
  let owns (k : Nat) : Bool := (List.range 8).any fun j => act[(8 * k + j) / n]?.getD false
  let data := ((List.range (total * n / 8)).filter owns).map fun (k : Nat) =>
    (⟨wrap48 (e.desc.base.toNat + k), [BitVec.ofNat 8 (stream / 2 ^ (8 * k))]⟩ : StoreEl)
  let live := liveBlocks act
  let scs := readRun e.s e.st (Opnd.of m.xs) 1 live.length
  let scales := ((live.zip scs).zipIdx).filterMap fun p =>
    let a := wrap48 (e.desc'.base.toNat + p.2)
    let v := if data.any fun x => x.addr == a then Config.freeClash draw p.2 else BitVec.ofNat 8 p.1.2
    if p.1.1 then some (⟨a, [v]⟩ : StoreEl) else none
  storeOf (data ++ scales)

/-- An MX ST names some byte of memory both as a packed element byte and as a scale byte (R138, log 15). -/
def Env.storeClash (e : Env) (t : MxElt) : Bool :=
  match e.storeMx t 0 with
  | .store els _ => !decide (els.map (·.addr)).Nodup
  | _ => false

/-- Words stored from an address, each an element of its own bytes (R17). -/
def storeWords (a : Nat) (ws : List Word) : XferOp :=
  let els := ((wordsToBytes ws).zipIdx).map fun p => (⟨wrap48 (a + p.2), [p.1]⟩ : StoreEl)
  storeOf els

/-! ### The row ledger in memory (R262) -/

/-- Word 0x4C of an entry. -/
def LedgerEntry.flagWord (x : LedgerEntry) : Word :=
  BitVec.ofBool x.nonempty ++ BitVec.ofBool x.long ++ (0#10) ++ x.count

def LedgerEntry.words (x : LedgerEntry) : List Word := [x.sum, x.sumsq, x.max, x.flagWord]

def State.bank (s : State) (k : Nat) : Bank := s.edging.banks[k]?.getD Bank.reset

def State.setBank (s : State) (k : Nat) (x : Bank) : State :=
  { s with edging := { s.edging with banks := s.edging.banks.setIfInBounds k x } }

def State.entry (s : State) (i : Nat) : LedgerEntry := s.edging.entries.get LedgerEntry.reset i

def State.setEntry (s : State) (i : Nat) (x : LedgerEntry) : State :=
  { s with edging := { s.edging with entries := s.edging.entries.set LedgerEntry.reset i x } }

/-- The record of a bank's entries from `first` on (R262). -/
def State.ledgerRecord (s : State) (first : Nat) : List Word :=
  let k := first / 128
  let b := s.bank k
  [0x4C475231, BitVec.ofNat 32 (2 ^ 24 + b.binding * 2 ^ 21 + b.cols), b.band,
    BitVec.ofNat 32 (s.rowLen b.binding), s.twist.step.truncate 32, (s.twist.step >>> 32).truncate 32,
    if b.long then 1 else 0] ++ List.replicate 9 0 ++
    (List.range (128 * (k + 1) - first)).flatMap fun i => (s.entry (first + i)).words

/-! ### Network -/

/-- The address word that SREG and IMM designate (R282). -/
def Env.netAddr (e : Env) : BitVec 37 :=
  let r := e.ctx.sreg e.b.m.sreg
  r.extractLsb' 15 22 ++ r.extractLsb' 8 7 ++ e.b.m.imm

/-- The earliest released record of a source and stream (R301). -/
def State.nextArrival (s : State) (a : BitVec 37) : Option (Nat × Arrival) :=
  (List.range 16).foldl (fun best k =>
    match s.net.slots[k]?.getD none with
    | some x =>
      if x.released && hdrSrc x.hdr == a then
        match best with
        | some (_, y) => if x.seq < y.seq then some (k, x) else best
        | none => some (k, x)
      else best
    | none => best) none

/-- A GONE release of records of the source and stream that never came is next (R300). -/
def State.nextGone (s : State) (a : BitVec 37) : Bool :=
  match s.net.gones.find? fun g => g.src == a with
  | some g => match s.nextArrival a with | some (_, x) => g.seq ≤ x.seq | none => true
  | none => false

/-- One GONE release of a source and stream used up. -/
def takeGone (a : BitVec 37) : List GoneRelease → List GoneRelease
  | [] => []
  | g :: gs =>
    if g.src = a then (if g.left ≤ 1 then gs else { g with left := g.left - 1 } :: gs) else g :: takeGone a gs

/-- The next GONE release of a source and stream is used up (R300). -/
def State.dropGone (s : State) (a : BitVec 37) : State := { s with net := { s.net with gones := takeGone a s.net.gones } }

/-- An arrival slot freed. -/
def State.freeSlot (s : State) (k : Nat) : State :=
  { s with net := { s.net with slots := s.net.slots.setIfInBounds k none } }

/-- The bytes of the slab that HS names. -/
def Env.hsBytes (e : Env) (n : Nat) : List Byte :=
  let o := Opnd.of e.b.m.hs
  match e.s.resolve e.st o.h o.k with
  | some (h, k) => e.s.slabBytes h k n
  | none => List.replicate n 0

/-- Index of the bundle that the stream issues. -/
def State.pcOf (s : State) (st : Stream) : Nat :=
  match st with
  | .main => s.issue.pc
  | .edge => (s.edging.run.map (·.pc)).getD 0

/-- NSEND (R24, R282, R283, R285, R296): a record built and handed to the port, or discarded; after NET_LIMIT in its
wait for credit it is discarded too (R40, R283). It carries RCOUNT as it stood before the bundle, whose UPD may count
discarded records of its own (R111; DEDUCED, log 42). -/
def nsendEffect (e : Env) (t : State) (timeout : Bool) : State :=
  let dst := e.netAddr
  let pk := addrPackage dst
  let tag : Word :=
    match e.st, e.s.edging.run with
    | .edge, some r => r.tag
    | _, _ => BitVec.ofNat 32 (bits e.s.net.rcount 15 0)
  let h := headerWords 0 (t.self (addrStream dst)) dst tag e.cap.step e.s.net.rcount (List.replicate 6 0)
  let counted (u : State) : State := { u with net := { u.net with rcount := u.net.rcount + 1 } }
  if pk.toNat > Config.maxPackage then (t.mark 14 2).bump .sendDiscard 1
  else if timeout then counted ((t.discardOut false).mark 8 2)
  else if !t.reachable pk then counted (t.goneOnce.discardOut false)
  else
    let u := { t with net := { t.net with credit := t.net.credit.set 0 pk.toNat (t.net.credit.get 0 pk.toNat - 1) } }
    counted (u.sendRecord h (e.hsBytes 4096) e.st (e.s.pcOf e.st))

/-- NRECV with a released record: its payload, as it stood before the bundle (R111), to HS and its slot freed; a
GONE release moves nothing (R300, R301). Otherwise HS is unchanged: the source is absent, or the wait timed out. -/
def nrecvEffect (e : Env) (t : State) (timeout : Bool) : State :=
  let a := e.netAddr
  if timeout then t.mark 9 5
  else if t.nextGone a then (t.dropGone a).goneOnce
  else
    match t.nextArrival a with
    | some (k, x) =>
      let u := t.freeSlot k
      if x.goneRelease then u.goneOnce
      else (e.putSlab u e.b.m.hs (e.s.slabBytes t.net.rxHoop.toNat k 4096)).exchanged (addrPackage a)
    | none => t.goneOnce

/-! ### The matrix engine's tiles -/

/-- A matrix engine is bound: only a present one can be, and losing it unbinds it (R266, R268, R276). -/
def State.meUp (s : State) : Bool := s.partner.coupling.meSrc != 0xFF#8

/-- Accumulator slab `k` of a tile: rows 8k to 8k + 7 (R252). -/
def Tile.slab (x : Tile) (k : Nat) : List Word := (List.range 1024).map fun i => x.data.get 0 (1024 * k + i)

/-- 1,024 F32 elements written as a run from HS (R252). -/
def Env.putAcc (e : Env) (t : State) (ws : List Word) : State :=
  writeTo e.s t e.st e.b.m.hs 4 (ws.map fun w => some w.toNat)

/-- The earliest tile whose completion event entered the trigger queue: during a run that it started, its tile
(R271, R274). -/
def State.runTile (s : State) : Option Tile := s.edging.tiles.find? fun x => x.use != .program

/-- The head tile of the queue in program use (R274). -/
def State.programTile (s : State) : Option Tile := s.edging.tiles.find? fun x => x.use == .program

/-- MOVA (R252, R272, R285). -/
def movaEffect (e : Env) (t : State) : State :=
  match t.runTile with
  | some x => e.putAcc t (x.slab (e.b.m.imm.toNat % 16))
  | none => t

/-- The earliest tile with an event is released to the matrix engine (R271). -/
def State.releaseTile (s : State) : State :=
  match s.runTile with
  | some x =>
    { s with edging := { s.edging with tiles := s.edging.tiles.eraseP fun y => y.use != .program }
             outbox := s.outbox ++ [.tileRelease x.tag] }
  | none => s

/-- The head tile in program use after a pop: it leaves the queue with its sixteenth slab (R274). -/
def popTile : List Tile → List Tile
  | [] => []
  | x :: xs =>
    if x.use = .program then (if x.popped + 1 ≥ 16 then xs else { x with popped := x.popped + 1 } :: xs)
    else x :: popTile xs

/-- POPQ: the next slab of the head tile in program use (R274, R275); without a matrix engine at its issue HS is
unchanged (R285, R326). -/
def popqEffect (e : Env) (t : State) (timeout : Bool) : State :=
  if timeout then t.mark 1 6
  else
    match t.programTile with
    | some x =>
      if !e.cap.me then t.goneOnce
      else
        let u := e.putAcc t (x.slab x.popped)
        { u with edging := { u.edging with tiles := popTile u.edging.tiles } }
    | none => t.goneOnce

/-! ### Moves -/

/-- The bits of an element of a format: the upper bits of an MXFP6 or MXFP4 byte are none of them (R134). -/
def Fmt.eltBits (f : Fmt) : Nat :=
  match f with
  | .mx t => t.bits
  | _ => 8 * f.bytes

/-- MOVS (R58): an element of an MX format is written with its upper bits zero (R134). -/
def movsEffect (e : Env) (t : State) : State :=
  let f := fmtOf e.b.m.mfmt
  e.putSlab t e.b.m.hs (leBytes f.bytes ((e.ctx.sreg e.b.m.sreg).toNat % 2 ^ f.eltBits))

/-- GETS (R101): the upper bits of an MX element are ignored (R134). -/
def getsEffect (e : Env) (t : State) : State :=
  let f := fmtOf e.b.m.mfmt
  t.modCtx e.st fun c => c.setS e.b.m.sreg (BitVec.ofNat 64 (leNat (e.hsBytes f.bytes) % 2 ^ f.eltBits))

/-- KST (R102). -/
def kstEffect (e : Env) (t : State) : State :=
  e.putSlab t e.b.m.hs (leBytes 512 (e.s.mask (e.b.m.imm.toNat % 8)).toNat)

/-- KLD (R102). -/
def kldEffect (e : Env) (t : State) : State :=
  t.setMask (e.b.m.imm.toNat % 8) (BitVec.ofNat 4096 (leNat (e.hsBytes 512)))

/-! ### The slot -/

/-- The slab names that a load will write. -/
def Env.loadSlabs (e : Env) : List Nat :=
  ((mUses e.s e.ctx.ew.bytes e.b.m).filter (·.wr)).flatMap fun u =>
    (SlabUse.slabs e.s e.st u).filterMap fun p => p.map fun q => q.1 * 16 + q.2

/-- A fabric transfer enters the outstanding transfers, with the targets that it finds absent (R114, R285). -/
def Env.push (e : Env) (t : State) (op : XferOp) (slabs : List Nat) : State :=
  { t with xfers := t.xfers ++ [{ stream := e.st, index := e.s.pcOf e.st, count := e.s.issue.count, op := op, slabs := slabs, arrived := false, lost := t.absentNow }] }

/-- A TBLD is handed: it loads the leaf that the slot does not use (R211). -/
def tbldStart (e : Env) (t : State) : State :=
  let i := e.b.m.imm.toNat % 16
  e.push t (.tbld i (t.mslot i).target e.desc.base.toNat) []

/-- A load of the leaf is outstanding. -/
def State.loadingLeaf (s : State) (i : Nat) (b : Bool) : Bool :=
  s.xfers.any fun x => match x.op with | .tbld j c _ => j == i && c == b | _ => false

/-- The TBLD that the M slot has handed makes its leaf LOADING, and cancels a measurement of it, when its bundle writes
back: an aborted bundle reads its tables again as they were (R111, R212, R217, R326, R383). -/
def State.beginLoad (s : State) (m : MSlot) : State :=
  let i := m.imm.toNat % 16
  let b := (s.mslot i).target
  if m.major = 13 && s.loadingLeaf i b then (s.startLoad i).measCancel (.leaf (BitVec.ofNat 4 i) b) else s

/-- The part of the M slot that is handed to a port (R326): fabric transfers and NSEND; `o` is how its wait ended. -/
def mHand (e : Env) (o : MOut) (t : State) : State :=
  let m := e.b.m
  let a := e.desc.base.toNat
  match m.major.toNat, fmtOf m.mfmt with
  | 1, .mx x => e.push t (e.loadMx x) e.loadSlabs
  | 1, _ => e.push t e.loadPlain e.loadSlabs
  | 2, .mx x =>
    let op := e.storeMx x t.freeCount
    e.push (if e.storeClash x then { t with freeCount := t.freeCount + 1 } else t) op []
  | 2, _ => e.push t e.storePlain []
  | 3, _ => e.push t e.loadPlain e.loadSlabs
  | 4, _ => e.push t e.storePlain []
  | 7, _ => nsendEffect e t (o == .sendTimeout)
  | 13, _ => tbldStart e t
  | 15, _ => e.push t (.scld a) []
  | 16, _ => e.push t (.scst a) []
  | 17, _ => e.push t (.lgst m.imm.toNat a) []
  | 18, _ => e.push t (.lgld m.imm.toNat a) []
  | _, _ => t

/-- The part of the M slot that executes at writeback: moves, requests and the post-increment (R67). -/
def mRest (e : Env) (o : MOut) (t : State) : State :=
  let m := e.b.m
  let u :=
    match m.major.toNat with
    | 5 => movaEffect e t
    | 6 => popqEffect e t (o == .popqTimeout)
    | 8 => nrecvEffect e t (o == .recvTimeout)
    | 9 => movsEffect e t
    | 10 => getsEffect e t
    | 11 => kstEffect e t
    | 12 => kldEffect e t
    | 14 => t.requestSwap (m.imm.toNat % 16)
    | _ => t
  if m.pi = 1 then
    let mx := (fmtOf m.mfmt).isMx && m.major.toNat ≤ 2
    let n := e.dscN
    let n' := (n + 1) % 16
    u.modCtx e.st fun c =>
      let d := c.setDesc n e.desc.post
      if mx then d.setDesc n' e.desc'.post else d
  else u

end Sys2Proof.Machine
end

