-- ==== Sys2Proof/Machine/Scalar.lean ====
section
/-!
DEFINITION. The S slot: scalar arithmetic and settings (R52, R56, R66, R67, R87, R106, R152), the position of
a stream (R107, R110, R254), waits (R108, R116, R117), picots (R115) and HALT (R119).
-/

namespace Sys2Proof.Machine

/-! ### Position -/

def State.modIssue (s : State) (f : IssueUnit → IssueUnit) : State := { s with issue := f s.issue }

def State.modRun (s : State) (f : Run → Run) : State :=
  { s with edging := { s.edging with run := s.edging.run.map f } }

/-- The position of a stream set. -/
def State.setPc (s : State) (st : Stream) (n : Nat) : State :=
  match st with
  | .main => s.modIssue fun u => { u with pc := n }
  | .edge => s.modRun fun r => { r with pc := n }

/-- A pending stop of the main program with its STOP_PC (R114). -/
def State.stopAt (s : State) (why : StopReason) (at_ : Nat) : State :=
  s.modIssue fun u => { u with stop := some why, stopPc := at_ }

/-- The active run aborts at the bundle it stands at (R255). -/
def State.abortRun (s : State) (why : RunStatus) : State :=
  s.modRun fun r => if r.ended.isSome then r else { r with ended := some why, abortAt := r.pc }

/-- What passing the last bundle does: PC_END (R110), or the normal end of a run (R254). So ends a WAIT or WAITDIR in
the last bundle too that a STOP abandons, whose next index does not fit STOP_PC (DESIGN CHOICE, log 17). -/
def State.passEnd (s : State) (st : Stream) : State :=
  match st with
  | .main =>
    if s.issue.pc ≥ Config.programBundles then (s.stopAt .pcEnd (Config.programBundles - 1)).mark 1 5 else s
  | .edge =>
    s.modRun fun r => if r.ended.isNone && r.pc ≥ r.first + r.len then { r with ended := some .ok } else r

/-- The next bundle of a stream. -/
def State.goTo (s : State) (st : Stream) (n : Nat) : State := (s.setPc st n).passEnd st

/-! ### Waits -/

def State.setWait (s : State) (st : Stream) (w : Option Wait) : State :=
  match st with
  | .main => s.modIssue fun u => { u with wait := w }
  | .edge => s.modRun fun r => { r with wait := w }

def State.waitOf (s : State) (st : Stream) : Option Wait :=
  match st with
  | .main => s.issue.wait
  | .edge => s.edging.run.bind (·.wait)

/-- A waiting stream goes on with `v` in the register that its WAIT or WAITDIR names. -/
def State.endWait (s : State) (st : Stream) (v : BitVec 64) : State :=
  match s.waitOf st with
  | none => s
  | some w => ((s.setWait st none).modCtx st fun c => c.setS w.sd v).passEnd st

/-- A waiting WAIT or WAITDIR abandoned: its SD receives what its timeout would give (R119). -/
def State.abandonWait (s : State) (st : Stream) : State :=
  match s.waitOf st with
  | some w => s.endWait st (if w.kind = .dir then BitVec.allOnes 64 else 1)
  | none => s

/-- Entry point `i` (R116). -/
def State.entryPoint (s : State) (i : Nat) : Nat := (s.reg 1 (0x060 + 4 * i)).toNat % 2048

/-- A direction word taken by a WAITDIR: to SD, and issue goes on at the entry point (R116). -/
def State.takeDir (s : State) (sd : BitVec 5) (w : Word) : State :=
  (s.modCtx .main fun c => c.setS sd (w.zeroExtend 64)).setPc .main (s.entryPoint (bits w 2 0))

/-- The bobbin queue holds a tile (R108, R274). -/
def State.queueTile (s : State) : Bool := s.edging.tiles.any fun x => x.use != .direct

/-- A picot that does not reach the mailbox (R115). -/
def State.dropPicot (s : State) (st : Stream) (sd : BitVec 5) : State :=
  ((s.modCtx st fun c => c.setS sd 1).mark 1 10).bump .picotDrop 1

/-! ### Arithmetic -/

/-- FADD and FMUL on the low words (R152). -/
def scalarF32 (mul : Bool) (a b : BitVec 64) : Res (BitVec 64) :=
  ((loadLane .f32 .f32 (a.toNat % 2 ^ 32)).bind fun x =>
    (loadLane .f32 .f32 (b.toNat % 2 ^ 32)).bind fun y =>
      if mul then mulLane .f32 x y else addLane .f32 x.code y.code).map (BitVec.ofNat 64)

/-- The value that an integer or F32 major gives SD (R106); none for the other majors. -/
def scalarValue (v : SSlot) (a b : BitVec 64) : Option (Res (BitVec 64)) :=
  let k := v.imm.toNat % 64
  match v.major.toNat with
  | 0x01 => some (.pure (a + v.imm.signExtend 64))
  | 0x02 => some (.pure (a + b))
  | 0x03 => some (.pure (a - b))
  | 0x04 => some (.pure (a * b))
  | 0x05 => some (.pure (a &&& b))
  | 0x06 => some (.pure (a ||| b))
  | 0x07 => some (.pure (a ^^^ b))
  | 0x08 => some (.pure (a <<< k))
  | 0x09 => some (.pure (a >>> k))
  | 0x0A => some (.pure (a.sshiftRight k))
  | 0x0B => some (.pure ((a <<< 11) ||| v.imm.zeroExtend 64))
  | 0x0C => some (scalarF32 false a b)
  | 0x0D => some (scalarF32 true a b)
  | _ => none

/-- The element width of SETVL. -/
def ewOf (imm : BitVec 11) : EW :=
  match imm.toNat % 4 with
  | 0 => .w8
  | 1 => .w16
  | _ => .w32

/-- SETVL (R52, R56). -/
def setvlEffect (e : Env) (t : State) (a : BitVec 64) : State :=
  let v := e.b.s
  let ew := ewOf v.imm
  let m := t.vlmax ew
  let grant := (max 0 (min a.toInt (m : Int))).toNat
  let u := t.modCtx e.st fun c =>
    ({ c with ew := ew, vl := grant, rowshape := min c.rowshape m } : Ctx).setS v.sd (BitVec.ofNat 64 grant)
  (u.markIf (decide ((m : Int) < a.toInt)) 2 0).markIf (decide (m < e.ctx.rowshape)) 2 1

/-- SETROW (R56). -/
def setrowEffect (e : Env) (t : State) (a : BitVec 64) : State :=
  let m := t.vlmax e.ctx.ew
  let grant := (max 0 (min a.toInt (m : Int))).toNat
  (t.modCtx e.st fun c => ({ c with rowshape := grant } : Ctx).setS e.b.s.sd (BitVec.ofNat 64 grant)).markIf
    (decide ((m : Int) < a.toInt) || decide (a.toInt < 0)) 2 1

/-- A WAIT after its bundle has issued (R108, R285). -/
def waitEffect (e : Env) (t : State) (a : BitVec 64) : State :=
  let v := e.b.s
  let go (x : BitVec 64) : State := (t.modCtx e.st fun c => c.setS v.sd x).passEnd e.st
  let hold (k : WaitKind) : State := t.setWait e.st (some ⟨k, v.sd, false⟩)
  match v.imm.toNat / 256 with
  | 0 => hold (.fabric e.s.xfers.length)
  | 1 => if e.s.meUp then hold .bobbin else go 1
  | 2 => hold (.mark (BitVec.ofNat 4 v.imm.toNat))
  | _ => if 0 < a.toInt then hold .cycles else go 0

/-- The S slot at writeback: registers, then the position of the stream. A picot of a run carries the index of its
bundle in the edging store, since that bundle has none in the program store (R115; DESIGN CHOICE, log 54). -/
def sEffect (e : Env) (t : State) : State :=
  let v := e.b.s
  let pc := e.s.pcOf e.st
  let a := e.ctx.sreg v.sa
  let b := e.ctx.sreg v.sb
  let on (u : State) : State := u.goTo e.st (pc + 1)
  match scalarValue v a b with
  | some r => on ((t.modCtx e.st fun c => c.setS v.sd r.val).raise 3 r.r)
  | none =>
    match v.major.toNat with
    | 0x10 => on (setvlEffect e t a)
    | 0x11 => on (setrowEffect e t a)
    | 0x12 => on (t.modCtx e.st fun c => c.setEs (v.imm.toNat % 8) (a.truncate 32))
    | 0x13 => on (t.modCtx e.st fun c => c.setDesc (v.imm.toNat % 16) ⟨a.truncate 48, b.truncate 32⟩)
    | 0x14 => on (t.modCtx e.st fun c => { c with tid := a.extractLsb' 48 16, base := a.truncate 48 })
    | 0x15 => on (t.modCtx e.st fun c => c.setS v.sd (BitVec.ofNat 64 e.vl))
    | 0x18 => t.goTo e.st v.imm.toNat
    | 0x19 =>
      let x := e.ctx.sreg v.sd
      if x = 0 then on t
      else
        let u := t.modCtx e.st fun c => c.setS v.sd (x - 1)
        if x = 1 then on u else u.goTo e.st v.imm.toNat
    | 0x1A => waitEffect e (t.setPc e.st (pc + 1)) a
    | 0x1B =>
      if t.partner.core then
        on (t.modIssue fun u => { u with posts := u.posts ++ [⟨e.st, v.sd, a, v.imm.truncate 8, pc⟩] })
      else on (t.dropPicot e.st v.sd)
    | 0x1C =>
      match t.issue.dirLatch with
      | some w => (t.modIssue fun u => { u with dirLatch := none }).takeDir v.sd w
      | none =>
        if t.partner.core then (t.setPc e.st (pc + 1)).setWait e.st (some ⟨.dir, v.sd, false⟩)
        else on ((t.modCtx e.st fun c => c.setS v.sd (BitVec.allOnes 64)).mark 1 7)
    | 0x1D => on (t.setReg 1 (0x060 + 4 * (v.imm.toNat % 8)) (a.truncate 32 &&& 0x7FF#32))
    | 0x1E => t.stopAt .halt pc
    | _ => on t

end Sys2Proof.Machine
end

