-- ==== Sys2Proof/Machine/Scale.lean ====
section
/-!
DEFINITION. Scale slots and conversions: lookup, exponents, observation, the commit walk, cold slots, slot
failures, the scale image (R173 to R193) and the CVT instruction (R159 to R162).
-/

namespace Sys2Proof.Machine

def State.slot (s : State) (i : Nat) : ScaleSlot := s.scale.slots.get ScaleSlot.reset i

def State.setSlot (s : State) (i : Nat) (x : ScaleSlot) : State :=
  { s with scale := { s.scale with slots := s.scale.slots.set ScaleSlot.reset i x } }

/-- The lowest-numbered valid slot with the key (R174). -/
def State.findSlot (s : State) (key : BitVec 16) : Option Nat :=
  (s.scale.slots.find? fun p => p.2.valid && p.2.key == key).map (·.1)

/-- KEY_DUP when slot `i` is valid and another valid slot holds its key (R174). Where more than two slots share the
key, DUP_SLOT names the highest of them (DESIGN CHOICE, log 55). -/
def State.dupCheck (s : State) (i : Nat) : State :=
  let x := s.slot i
  match s.scale.slots.filter fun p => p.1 != i && p.2.valid && x.valid && p.2.key == x.key with
  | [] => s
  | ps =>
    let hi := (ps.map (·.1)).foldl max i
    ({ s with scale := { s.scale with dupSlot := BitVec.ofNat 11 hi } } : State).mark 5 1

def clampK (k : Int) : Int := max (-511) (min 511 k)

/-- Whole binades of decay. -/
def ScaleSlot.decayBinades (x : ScaleSlot) : Nat := if x.decay = 15 then 0 else x.age / 2 ^ x.decay.toNat

/-- warm_k of R175. -/
def ScaleSlot.warmK (x : ScaleSlot) (emax : Int) : Int :=
  match e10Value x.est.toNat with
  | .fin _ mag exp =>
    if mag = 0 then 0
    else
      let c := ceilLog2 mag exp - (x.decayBinades : Int)
      clampK (emax - c - ((x.h.toNat : Int) + (if x.boost ≠ 0 then 1 else 0)))
  | _ => 0

/-- The exponent of a cold quantising conversion with headroom `h` and region amax `a` (R182). -/
def coldK (emax : Int) (h : Nat) (a : Num) : Int :=
  match a with
  | .fin _ mag exp => if mag = 0 then 0 else clampK (emax - ceilLog2 mag exp - ((h : Int) + 2))
  | _ => 0

/-- emax of R175: 8 for E4M3, 15 for E5M2. -/
def fp8Emax (f : Fmt) : Int := if f = .e5m2 then 15 else 8

/-- A finite code read for an amax: infinities as the largest finite value, NaN skipped. -/
def amaxStep (f : Fmt) (a : Num) (code : Nat) : Num := a.maxAbs (f.value (f.gate code).val)

/-- The slabs of the source tile region of SRC1 (R183). -/
def Env.regionSlabs (e : Env) (f : Fmt) (src : BitVec 8) : List (Nat × Nat) :=
  let o := Opnd.of src
  let (h, k) := (e.s.resolve e.st o.h o.k).getD (o.h, o.k)
  let n := 4 * f.bytes
  (List.range n).map fun j => (h, k / n * n + j)

/-- The amax over the source tile region of SRC1 (R183). -/
def Env.regionAmax (e : Env) (f : Fmt) (src : BitVec 8) : Num :=
  let w := f.bytes
  (e.regionSlabs f src).foldl (fun a p =>
    ((cut w (e.s.slabBytes p.1 p.2 (e.s.vlmaxAt w * w))).map leNat).foldl (amaxStep f) a)
    (.fin false 0 0)

/-- A magnitude rounded up to E10M21 (R177). -/
def roundUpE10 (x : Num) : Word :=
  match x with
  | .fin _ mag exp =>
    if mag = 0 then 0
    else
      let k := floorLog2 mag exp
      let (r, exact) := roundWeight mag exp (k - 21) .rz
      let code : Int := (k + 511) * 2 ^ 21 + ((r : Int) - 2 ^ 21) + (if exact then 0 else 1)
      BitVec.ofNat 32 (max 1 (min code 0x7FDFFFFF)).toNat
  | _ => 0

/-- An observation combined into a slot (R177). -/
def ScaleSlot.observe (x : ScaleSlot) (o : Option Num) (ovf : Bool) : ScaleSlot :=
  let y :=
    match o with
    | none => x
    | some a =>
      let c := roundUpE10 a
      { x with obs := if (e10Value x.obs.toNat).lt (e10Value c.toNat) then c else x.obs, used := true }
  if ovf then { y with ovf := true } else y

/-- One slot of the commit walk (R178); a pinned slot never becomes warm (R189). WARMUP is a field of 3 bits: a cold
slot that was loaded with WARMUP 4 does not become warm by counting to 5. -/
def ScaleSlot.walk (x : ScaleSlot) : ScaleSlot :=
  let est := e10Value x.est.toNat
  let obs := e10Value x.obs.toNat
  let y :=
    if x.cold then
      let z := if x.used && est.lt obs then { x with est := x.obs } else x
      let w := (z.warmup + 1) % 8
      if w = 4 then (if z.pinned then { z with warmup := 3 } else { z with warmup := 4, cold := false, age := 0 })
      else { z with warmup := w }
    else if x.used && (est.scale (-(x.decayBinades : Int))).le obs then { x with est := x.obs, age := 0 }
    else { x with age := min (x.age + 1) 0xFFFF }
  let b := y.boost - 1
  { y with boost := if x.ovf then 64 else b, obs := 0, used := false, ovf := false }

/-- The staged fields cleared (R179, R181). -/
def ScaleSlot.unstage (x : ScaleSlot) : ScaleSlot := { x with obs := 0, used := false, ovf := false }

/-- `f` on every slot; a slot that nothing has written is a fixed point of every `f` used. -/
def State.mapSlots (s : State) (f : ScaleSlot → ScaleSlot) : State :=
  s.scale.slots.foldl (fun t p => t.setSlot p.1 (f p.2)) s

/-- A commit walk is due or runs (R180). -/
def State.walkHolds (s : State) : Bool := !s.scale.walkDue.isEmpty || s.scale.walkBusy

/-- A slot whose other fields failed becomes cold, its KEY, VALID, H and DECAY kept (R189). -/
def ScaleSlot.coldKeep (x : ScaleSlot) : ScaleSlot :=
  { ScaleSlot.reset with valid := x.valid, key := x.key, h := x.h, decay := x.decay, pinned := x.pinned }

/-- A slot moved to a spare (R189). -/
def State.spareSlot (s : State) (i : Nat) : State :=
  ({ s with scale := { s.scale with spareFree := s.scale.spareFree - 1
                                    spared := if s.scale.spared.contains i then s.scale.spared
                                      else s.scale.spared ++ [i] } } : State).setSlot i (s.slot i).coldKeep

/-- A slot pinned cold (R189). -/
def State.pinSlot (s : State) (i : Nat) : State := s.setSlot i { (s.slot i).coldKeep with pinned := true }

/-- A storage error of a slot is found (R189): word 2i holds KEY, VALID, H and DECAY, word 2i + 1 the rest. A slot
that loses the former counts as never written; that it is pinned belongs to its place and stays. A move to a spare
lowers SCALE_CAP.SPARE_FREE, an event of its own (R34). -/
def State.slotErr (s : State) (e : EccErr) : State :=
  let i := e.word / 2
  let t := { s with ecc := s.ecc.filter (· != e) }
  if !e.hard then t
  else if e.word % 2 = 0 then (t.setSlot i { ScaleSlot.reset with pinned := (t.slot i).pinned }).mark 5 4
  else if t.scale.spareFree > 0 then State.settleCap t (((t.spareSlot i).mark 5 4).logDarn 8 1 i)
  else (t.pinSlot i).mark 5 5

/-- Every storage error of the scale slots is found by a read of them all, in ascending order (R178, R189). -/
def State.slotErrs (s : State) : State :=
  (sortErrs EccErr.word (s.ecc.filter fun e => e.target == .scale)).foldl State.slotErr s

/-! ### The scale image (R187) -/

def signed10 (k : Int) : Nat := (k % 1024).toNat

/-- Word 0x40 of a slot. -/
def ScaleSlot.ctlWord (x : ScaleSlot) : Word :=
  x.key ++ BitVec.ofBool x.valid ++ BitVec.ofBool x.cold ++ x.h ++ x.decay ++ BitVec.ofNat 7 x.boost

/-- Word 0x48 of a slot. -/
def ScaleSlot.ageWord (x : ScaleSlot) : Word :=
  BitVec.ofNat 16 x.age ++ BitVec.ofNat 3 x.warmup ++ (0#3) ++ x.lastk

/-- Word 0x4C of a slot: K5 and K4, 0 when cold. -/
def ScaleSlot.kWord (x : ScaleSlot) : Word :=
  if x.cold then 0
  else BitVec.ofNat 32 (signed10 (x.warmK 15) * 2 ^ 16 + signed10 (x.warmK 8))

/-- EST as stored: a negative or NaN code becomes +0 (R187, R434). -/
def estStored (v : Word) : Word := if v.getLsbD 31 || (e10Value v.toNat).isNan then 0 else v

/-- A slot loaded from its first three image words (R187). -/
def ScaleSlot.ofWords (pinned : Bool) (c est a : Word) : ScaleSlot :=
  { valid := c.getLsbD 15, key := BitVec.ofNat 16 (bits c 31 16), cold := c.getLsbD 14 || pinned
    warmup := (let w := min 4 (bits a 15 13); if pinned then min 3 w else w)
    est := estStored est, age := bits a 31 16, h := BitVec.ofNat 3 (bits c 13 11)
    decay := BitVec.ofNat 4 (bits c 10 7), boost := min 64 (bits c 6 0), lastk := BitVec.ofNat 10 (bits a 9 0)
    obs := 0, used := false, ovf := false, pinned := pinned, kWritten := true }

/-- The scale image as words (R187). -/
def State.scaleImage (s : State) : List Word :=
  [0x5A534331, 0x00010400, s.scale.walkStep.truncate 32, (s.scale.walkStep >>> 32).truncate 32] ++
    List.replicate 12 0 ++
    (List.range Config.scaleSlots).flatMap fun i =>
      let x := s.slot i
      [x.ctlWord, x.est, x.ageWord, x.kWord]

/-- A scale image loaded (R187, R188). It marks every duplicate key that it leaves, and DUP_SLOT stands for the last of
them (DESIGN CHOICE, log 55). -/
def State.loadScale (s : State) (ws : List Word) : State :=
  match ws with
  | m :: v :: _ =>
    if m ≠ 0x5A534331 || bits v 23 16 ≠ 1 || bits v 15 0 ≠ Config.scaleSlots then s.mark 5 3
    else
      let body := cut 4 (ws.drop 16)
      let t := (body.zipIdx).foldl (fun (t : State) (p : List Word × Nat) =>
        match p.1 with
        | c :: e :: a :: _ => t.setSlot p.2 (ScaleSlot.ofWords (t.slot p.2).pinned c e a)
        | _ => t) s
      (List.range Config.scaleSlots).foldl (fun t i => t.dupCheck i) t
  | _ => s.mark 5 3

/-! ### Writes of a slot (R174, R181, R434, R435) -/

/-- SLOT_CTL on a slot (R173, R435): on a valid slot every field is stored as written, VALID included. -/
def ScaleSlot.ctl (x : ScaleSlot) (v : Word) : ScaleSlot :=
  let key := BitVec.ofNat 16 (bits v 31 16)
  let h := BitVec.ofNat 3 (bits v 13 11)
  let decay := BitVec.ofNat 4 (bits v 10 7)
  let on := v.getLsbD 15
  if on && !x.valid then { ScaleSlot.reset with valid := true, key := key, h := h, decay := decay, pinned := x.pinned }
  else
    let y : ScaleSlot := { x with valid := on, key := key, h := h, decay := decay, boost := min 64 (bits v 6 0) }
    if v.getLsbD 14 then { y with cold := true, warmup := 0, kWritten := false }
    else if x.cold && !x.pinned then { y with cold := false, age := 0 }
    else y

/-- SLOT_AGE on a slot (R434). -/
def ScaleSlot.ageWrite (x : ScaleSlot) (v : Word) : ScaleSlot :=
  { x with age := bits v 31 16, warmup := min (if x.pinned then 3 else 4) (bits v 15 13)
           lastk := BitVec.ofNat 10 (bits v 9 0), kWritten := true }

/-- A write to a register of slot `i` (R181, R434): its storage errors are found first and its staged fields are
cleared. SLOT_CTL, which alone can create a duplicate key, is checked for one unless the slot held that key already
(R174). -/
def State.slotStore (s : State) (i : Nat) (r : SlotReg) (v : Word) : State :=
  let t := (s.ecc.filter fun e => e.target == .scale && e.word / 2 == i).foldl State.slotErr s
  match r with
  | .ctl =>
    let x := t.slot i
    let y := (x.ctl v).unstage
    let u := t.setSlot i y
    if x.valid && x.key == y.key then u else u.dupCheck i
  | .est => t.setSlot i ({ t.slot i with est := estStored v } : ScaleSlot).unstage
  | .age => t.setSlot i ((t.slot i).ageWrite v).unstage

/-! ### Held writes (R51, R180, R181, R230, R368) -/

/-- Bits flipped in a stored word (R457). -/
def State.flip (s : State) (t : EccTarget) (w : Nat) (m : BitVec 72) : State :=
  let old := ((s.ecc.find? fun e => e.target == t && e.word == w).map (·.flips)).getD 0
  let rest := s.ecc.filter fun e => !(e.target == t && e.word == w)
  { s with ecc := if old ^^^ m = 0 then rest else rest ++ [⟨t, w, old ^^^ m⟩] }

/-- The stored word that an injection names: a hoop word in the slab that holds it now (R73). -/
def State.injPlace (s : State) (t : EccTarget) (w : Nat) : Nat :=
  if t = .hoop then (w / 8704 * 17 + s.physSlab (w / 8704) (w / 512 % 17)) * 512 + w % 512 else w

/-- A held write made. -/
def State.doHeld (s : State) (x : HeldWrite) : State :=
  match x with
  | .carry c ctl v =>
    let y := s.carries[c]?.getD Carry.reset
    let z : Carry := if ctl then { y with valid := v.getLsbD 31, wide := v.getLsbD 0 } else { y with value := v }
    { s with carries := s.carries.setIfInBounds c z }
  | .hoop h k i v =>
    let phys := s.physSlab h k
    ({ s with hoops := setBytes s.hoops (slabKey h phys + 4 * i) (leBytes 4 v.toNat) } : State).soundHalf .hoop
      ((h * 17 + phys) * 1024 + i)
  | .slot i r v => s.slotStore i r v
  | .inject t w m => s.flip t (s.injPlace t w) m

/-- Whether a write must wait: for an aborted bundle, which reads the same operands again (R326), and for a slot the
commit walk. An injection that stands behind an earlier write to its word waits as that write does (R461). -/
def State.holds (s : State) (x : HeldWrite) : Bool :=
  s.issue.retry.isSome ||
    (match x with
      | .slot .. => s.walkHolds
      | .inject t _ _ => t == .scale && s.walkHolds
      | _ => false)

/-- A write made at once, or held behind the earlier ones. -/
def State.holdOr (s : State) (x : HeldWrite) : State :=
  if s.holds x then { s with issue := { s.issue with held := s.issue.held ++ [x] } } else s.doHeld x

/-- The held write is to the stored word that an injection names (R461). -/
def State.heldAt (s : State) (t : EccTarget) (w : Nat) (x : HeldWrite) : Bool :=
  match x with
  | .hoop h k i _ => t == .hoop && (h * 17 + s.physSlab h k) * 512 + i / 2 == s.injPlace t w
  | .slot i _ _ => t == .scale && w / 2 == i
  | _ => false

/-- An injection made at once, or behind an earlier held write to its word (R457, R461). -/
def State.inject (s : State) (t : EccTarget) (w : Nat) (m : BitVec 72) : State :=
  if s.issue.held.any (s.heldAt t w) then { s with issue := { s.issue with held := s.issue.held ++ [.inject t w m] } }
  else s.doHeld (.inject t w m)

/-- The held writes that need wait no longer are made in their order. -/
def State.releaseHeld (s : State) : State :=
  let go := s.issue.held.filter fun x => !s.holds x
  let t := { s with issue := { s.issue with held := s.issue.held.filter s.holds } }
  go.foldl State.doHeld t

/-! ### CVT (R159 to R162, R174 to R193) -/

/-- A CVT source element behind the gate, at its exact value (R160, R161). -/
def cvtSource (f : Fmt) (code : Nat) : Res Num := (f.gate code).map f.value

/-- An MX source element under its block scale (R125, R132, R133). -/
def mxSource (t : MxElt) (scale code : Nat) : Res Num :=
  if scale = 255 then .pure .nan
  else
    match t.value code with
    | .inf neg => ⟨(t.value (if neg then 0xFB else 0x7B)).scale ((scale : Int) - 127), .gate⟩
    | x => .pure (x.scale ((scale : Int) - 127))

/-- The source values of a CVT, active elements only. From an MX format each element takes the scale byte of its own
block, under a broadcast of SRC1 too, where every element has the code of element 0 (R57, R132, R162; DESIGN CHOICE,
log 57). -/
def Env.cvtSources (e : Env) (act : List Bool) : List (Res Num) :=
  let v := e.b.v1
  let f := fmtOf v.sfmt
  let cs := e.codes v.src1 f.bytes
  match f with
  | .mx t =>
    let scs := readRun e.s e.st (Opnd.of v.src2) 1 ((e.vl + 31) / 32)
    let all := scs.flatMap fun x => List.replicate 32 x
    (act.zip (cs.zip all)).map fun p => if p.1 then mxSource t p.2.2 p.2.1 else .pure (.fin false 0 0)
  | _ => (act.zip cs).map fun p => if p.1 then cvtSource f p.2 else .pure (.fin false 0 0)

/-- The exponent of a per-tensor scaled CVT and the state with the slot's working fields and the misses
recorded (R174, R182, R184, R186). -/
def Env.scaleExp (e : Env) (t : State) : Int × State :=
  let v := e.b.v1
  let sf := fmtOf v.sfmt
  let df := fmtOf v.dfmt
  let tid := e.ctx.tid
  let quant := df.isFp8
  let emax := fp8Emax (if quant then df else sf)
  match t.findSlot tid with
  | none =>
    let t' := ({ t with scale := { t.scale with missTid := tid } } : State).mark 5 0
    (if quant then coldK emax 1 (e.regionAmax sf v.src1) else 0, t')
  | some i =>
    let x := t.slot i
    if !x.cold then (x.warmK emax, t)
    else if quant then
      let k := coldK emax x.h.toNat (e.regionAmax sf v.src1)
      (k, t.setSlot i { x with lastk := BitVec.ofInt 10 k, kWritten := true })
    else (x.lastk.toInt, t.markIf (!x.kWritten) 5 2)

/-- CVT with FN 0 or 1: each source value times 2^k rounded once (R160, R176). The vanish counter of R192 counts
conversions to an MX format alone: an element of an MX source that becomes zero here is not counted (DESIGN CHOICE,
log 55). -/
def cvtPlain (e : Env) (t : State) : State :=
  let v := e.b.v1
  let df := fmtOf v.dfmt
  let act := e.active v.km
  let src := e.cvtSources act
  let scaled := v.fn == 1
  let (k, t1) := if scaled then e.scaleExp t.slotErrs else (0, t)
  let k' := if df.isFp8 then k else -k
  let nw := v.dst.getLsbD 7
  let out := ((act.zip src).zipIdx).map fun p =>
    if p.1.1 && !nw then df.round ((p.1.2.val).scale k') (e.rnd v.rm v.dcls p.2) else .pure 0
  let t2 := writeTo e.s t1 e.st v.dst df.bytes (e.policy act (out.map (·.val)))
  let t3 :=
    if scaled && df.isFp8 then
      match t2.findSlot e.ctx.tid with
      | none => t2
      | some i =>
        let nums := (act.zip src).filterMap fun p => if p.1 && !p.2.val.isNan then some p.2.val else none
        let o := if nums.isEmpty then none else some (nums.foldl Num.maxAbs (.fin false 0 0))
        t2.setSlot i ((t2.slot i).observe o (out.any fun r => r.r.ovf))
    else t2
  t3.raise v.dcls.toNat ((raisesOf src).add (raisesOf out))

/-- emax_el of R190. -/
def MxElt.emax : MxElt → Int
  | .e4m3 => 8
  | .e5m2 => 15
  | .e3m2 => 4
  | .e2m3 | .e2m1 => 2
  | .int8 => 0

/-- The scale code of a block from its active values: none when the block has no active element, 0xFF for
a NaN block (R124, R190, R191). -/
def blockScale (t : MxElt) (xs : List Num) : Option Nat :=
  if xs.isEmpty then none
  else if xs.any Num.isNan then some 255
  else
    match xs.foldl Num.maxAbs (.fin false 0 0) with
    | .fin _ mag exp => if mag = 0 then some 0 else some (max 0 (min 254 (floorLog2 mag exp - t.emax + 127))).toNat
    | _ => some 255

/-- One element of a block with scale code `sc` and active values `xs` (R124, R190 to R193). -/
def blockElem (t : MxElt) (sc : Nat) (zero : Bool) (x : Num) (m : Rnd) : Res Nat :=
  if sc = 255 then ⟨0, .invalid⟩
  else if zero then .pure 0
  else t.round (x.scale (127 - (sc : Int))) m

/-- DST and SRC2 of a CVT name one slab, the alias of held tiles resolved (R257). -/
def Env.cvtClash (e : Env) : Bool :=
  let at_ (x : BitVec 8) : Option (Nat × Nat) := e.s.resolve e.st (Opnd.of x).h (Opnd.of x).k
  !e.b.v1.dst.getLsbD 7 && at_ e.b.v1.dst == at_ e.b.v1.src2

/-- The scale codes of a CVT whose SRC2 names the slab of its DST, by the same field or through the alias of held
tiles (R257): no rule says which of the two writes a
byte keeps, so a byte that both write is a free value (R98, R162; DESIGN CHOICE, log 15). -/
def clashed (n : Nat) (elems scales : List (Option Nat)) : List (Option Nat) :=
  (scales.zipIdx).map fun p =>
    match p.1, elems.getD p.2 none with
    | some _, some _ => some (Config.freeClash n p.2).toNat
    | x, _ => x

/-- CVT to an MX format (R162, R190 to R193). With NW the scale of a NaN block is still written, and that it is 0xFF
raises NV (R124; DEDUCED, log 53). -/
def cvtToMx (e : Env) (t : State) (mt : MxElt) : State :=
  let v := e.b.v1
  let act := e.active v.km
  let src := e.cvtSources act
  let nw := v.dst.getLsbD 7
  let blocks := cut 32 (act.zip src)
  let live := blocks.map fun b => b.filterMap fun p => if p.1 then some p.2.val else none
  let scales := live.map (blockScale mt)
  let out := ((blocks.zip (live.zip scales)).zipIdx).flatMap fun q =>
    (q.1.1.zipIdx).map fun p =>
      match q.1.2.2 with
      | some sc =>
        if p.1.1 && !nw then
          blockElem mt sc (q.1.2.1.all Num.isZero) p.1.2.val (e.rnd v.rm v.dcls (32 * q.2 + p.2))
        else .pure 0
      | none => .pure 0
  let elems := e.policy act (out.map (·.val))
  let t1 := writeTo e.s t e.st v.dst 1 elems
  let t2 :=
    if e.cvtClash then
      writeTo e.s { t1 with freeCount := t1.freeCount + 1 } e.st v.src2 1 (clashed t1.freeCount elems scales)
    else writeTo e.s t1 e.st v.src2 1 scales
  let nan : Raises := if scales.any (· == some 255) then .invalid else .none
  t2.raise v.dcls.toNat (((raisesOf src).add (raisesOf out)).add nan)

/-- CVT (R159). -/
def cvtEffect (e : Env) (t : State) : State :=
  if e.vl = 0 then t
  else
    match fmtOf e.b.v1.dfmt with
    | .mx mt => cvtToMx e t mt
    | _ => cvtPlain e t

end Sys2Proof.Machine
end

