-- ==== Sys2Proof/Machine/Issue.lean ====
section
/-!
DEFINITION. Issue of a bundle: whether it may issue, what its fetch and reads find (R72, R216, R325), its
legality (R38, R49, R69, R109, R111, R238, R252, R257, R274, R290), lent and absent hoops (R44, R244, R298),
what it waits for (R74, R112, R114, R180, R181, R214, R217, R280, R283, R301, R307, R310), and its effect
(R111).
-/

namespace Sys2Proof.Machine

/-! ### Whether a stream offers bundles -/

/-- Powered, in no session-ending reset, and not at rest. -/
def State.works (s : State) : Bool :=
  s.powered && s.resetting.isNone && s.transit.isNone && s.rest == .run

/-- The engine executes: it works, and no RESTITCH runs. -/
def State.executes (s : State) : Bool := s.works && !s.trouble.restitchBusy

/-- Darning holds issue (R332). -/
def State.darningNow (s : State) : Bool :=
  match s.arb.running with
  | some ⟨.darning _, _⟩ => true
  | _ => false

/-- Darning is running or due: a panel that it retires is still in the map. -/
def State.darningDue (s : State) : Bool := s.darningNow || !s.arb.darns.isEmpty

/-- The entries of a staged darning that is running (R338). -/
def State.stagedNow (s : State) : List Word :=
  match s.arb.running with
  | some ⟨.staged, _⟩ => s.trouble.stage.map (·.2)
  | _ => []

/-- Issue is held: by darning from the third failure on (R328, R332, R333), or by staged darning with a panel entry
(R338). -/
def State.issueHeld (s : State) : Bool :=
  s.darningDue || s.stagedNow.any fun w => bits w 31 28 == 1 || bits w 31 28 == 2

/-- The stream is running, with nothing that ends or holds it. -/
def State.streamReady (s : State) (st : Stream) : Bool :=
  match st with
  | .main => s.issue.running && s.issue.stop.isNone && s.issue.wait.isNone
  | .edge =>
    match s.edging.run with
    | some r => r.ended.isNone && r.wait.isNone
    | none => false

/-- The bundle at the position of the stream. -/
def State.fetched (s : State) (st : Stream) : Bundle :=
  match st with
  | .main => Bundle.ofStore s.pstore s.issue.pc
  | .edge => Bundle.ofStore s.estore (s.pcOf .edge)

/-- Storage errors in the four store words of the bundle at the stream's position (R325). -/
def State.fetchErrs (s : State) (st : Stream) : List EccErr :=
  let tgt : EccTarget := match st with | .main => .program | .edge => .edging
  let pc := s.pcOf st
  s.ecc.filter fun e => e.target == tgt && e.word / 4 == pc

/-- Errors corrected in storage. -/
def State.dropEcc (s : State) (es : List EccErr) : State := { s with ecc := s.ecc.filter fun e => !es.contains e }

/-- The bundle does not issue: the main program stops with its sticky bit, a run aborts. -/
def State.halted (s : State) (st : Stream) (why : StopReason) (page bit : Nat) (run : RunStatus) : State :=
  match st with
  | .main => (s.stopAt why s.issue.pc).mark page bit
  | .edge => s.abortRun run

/-! ### Legality at issue -/

/-- The slabs of every operand of a bundle, with the slot that names them and whether it writes. -/
def State.names (s : State) (st : Stream) (us : List SlabUse) : List (Nat × Bool × Option (Nat × Nat)) :=
  us.flatMap fun u => (u.slabs s st).map fun p => (u.slot, u.wr, p)

/-- Two slots write one slab (R111). -/
def clash (ns : List (Nat × Bool × Option (Nat × Nat))) : Bool :=
  ns.any fun a => a.2.1 && ns.any fun b => b.2.1 && a.1 != b.1 && a.2.2 == b.2.2

/-- Masks written by V0, V1 and M; 0 is none, as K0 discards its writes (R61, R111). -/
def maskWrites (b : Bundle) : List Nat :=
  [if b.v0.major == 1 && b.v0.hasCmp then b.v0.kd.toNat else 0,
    if b.v1.major == 11 || (b.v1.major == 12 && b.v1.fn == 0) then b.v1.aux.toNat else 0,
    if b.m.major == 12 then b.m.imm.toNat % 8 else 0]

/-- The scalar that the S slot writes; 0 is none. -/
def sDest (v : SSlot) : Nat :=
  match v.use with
  | some (true, _, _, _) => v.sd.toNat
  | _ => 0

/-- Descriptors that the M slot post-increments (R67). -/
def mPosts (m : MSlot) : List Nat :=
  if m.pi = 1 then
    m.dsc.toNat :: (if (fmtOf m.mfmt).isMx && m.major.toNat ≤ 2 then [(m.dsc.toNat + 1) % 16] else [])
  else []

/-- Two slots write one mask, scalar or descriptor (R67, R111). Two that name K0, or S0, write nothing (R61, R66), so
they are no clash (DESIGN CHOICE, log 52). -/
def regClash (b : Bundle) : Bool :=
  let ms : List Nat := (maskWrites b).filter (· != 0)
  !decide (List.Nodup ms) || (b.m.major == 10 && b.m.sreg != 0 && b.m.sreg.toNat == sDest b.s) ||
    (b.s.major == 0x13 && (mPosts b.m).contains (b.s.imm.toNat % 16))

/-- Element width and operand placement of V1 majors (R69, R238, R290). -/
def State.v1Ok (s : State) (st : Stream) (v : V1Slot) : Bool :=
  let c := s.ctxOf st
  let block := if v.fn = 0 then 8 else 16
  match v.major.toNat with
  | 5 | 6 => !v.fn.getLsbD 7 || (s.carry (v.ts.toNat % 4)).wide == v.fn.getLsbD 3
  | 8 => c.rowshape % block == 0
  | 12 | 13 => c.ew == .w16
  | 14 =>
    let o (f : BitVec 8) : Nat := (Opnd.of f).h * 16 + (Opnd.of f).k
    let ms := (List.range 3).map (o v.src2 + ·)
    let gs := (List.range (runLen 2 (fmtOf v.sfmt).bytes)).map (o v.src1 + ·)
    let phys (l : List Nat) : List (Option (Nat × Nat)) := l.map fun n => s.resolve st (n / 16) (n % 16)
    c.ew == .w16 && decide (phys (gs ++ [o v.dst] ++ ms)).Nodup
  | _ => true

/-- The M slot in its stream (R103, R252, R274). A POPQ takes tiles in program use only, which start no run, so a run
may pop them too (DEDUCED, log 25). -/
def State.mOk (s : State) (st : Stream) (m : MSlot) : Bool :=
  let program := !s.directPort && s.partner.coupling.queueUse
  match st, m.major.toNat with
  | .main, 5 => false
  | _, 6 => program
  | .edge, 5 =>
    match s.edging.run with
    | some r => !r.completion && !r.arrival && !program
    | none => false
  | _, _ => true

/-- The S slot in its stream (R109). -/
def State.sOk (s : State) (st : Stream) (v : SSlot) : Bool :=
  match st, s.edging.run with
  | .edge, some r =>
    match v.major.toNat with
    | 0x18 | 0x19 => r.first ≤ v.imm.toNat && v.imm.toNat < r.first + r.len
    | 0x1A => v.imm.toNat / 256 != 2
    | 0x1C | 0x1D | 0x1E => false
    | _ => true
  | _, _ => true

/-- The bundle is legal where it stands (R38). -/
def State.legalHere (s : State) (st : Stream) (b : Bundle) : Bool :=
  let us := slabUses s (s.ctxOf st).ew.bytes b
  let ns := s.names st us
  b.legal && us.all (fun u => u.o.k % u.align == 0 && u.o.k + u.run ≤ 16) && ns.all (fun n => n.2.2.isSome) &&
    !clash ns && !regClash b && s.v1Ok st b.v1 && s.mOk st b.m && s.sOk st b.s

/-! ### Hoops that are absent or lent -/

/-- Hoops lent to edging (R244). -/
def State.lentHoop (s : State) (h : Nat) : Bool :=
  (List.range 8).any fun b => s.armed b && (s.bindWord b 2).getLsbD (8 + h)

/-! ### Waits at issue -/

/-- An outstanding TBLD on a slot (R214). -/
def State.loading (s : State) (i : Nat) : Bool :=
  s.xfers.any fun x => match x.op with | .tbld j _ _ => j == i | _ => false

/-- The table slot that a V1 slot evaluates (R214, R304). -/
def tableOf (v : V1Slot) : Option Nat :=
  match v.major.toNat with
  | 1 | 2 => some v.ts.toNat
  | 14 => if v.fn = 1 then some 5 else none
  | _ => none

/-- A running staged darning has an entry for the table slot (R338). -/
def State.stagedTable (s : State) (i : Nat) : Bool :=
  s.stagedNow.any fun w => (bits w 31 28 == 6 || bits w 31 28 == 7) && bits w 4 0 == i

/-- A running staged darning has an entry for the slab (R338): the slab itself, or its hoop. -/
def State.stagedSlab (s : State) (h k : Nat) : Bool :=
  s.stagedNow.any fun w =>
    (bits w 31 28 == 3 && bits w 15 0 == 16 * h + k) || (bits w 31 28 == 4 && bits w 15 0 == h)

/-- A running staged darning has an entry for the scale slot of a tensor (R338). -/
def State.stagedScale (s : State) (tid : BitVec 16) : Bool :=
  match s.findSlot tid with
  | some i => s.stagedNow.any fun w => bits w 31 28 == 8 && bits w 15 0 == i
  | none => false

/-- A use of a table slot waits (R214, R217, R338, R369). -/
def State.tableWaits (s : State) (i : Nat) : Bool :=
  let x := s.mslot i
  x.pending || (x.reload && !x.isNoLeaf) || s.repairing i || s.stagedTable i

/-- A per-tensor scaled conversion. -/
def isScaled (v : V1Slot) : Bool := v.major == 3 && v.fn == 1

/-- Scalars that a bundle reads or writes. -/
def scalarsOf (b : Bundle) : List (BitVec 5) := [b.s.sd, b.s.sa, b.s.sb, b.m.sreg]

/-- V1 waits (R180, R181, R214, R307, R310). -/
def State.v1Waits (s : State) (st : Stream) (v : V1Slot) : Bool :=
  (match tableOf v with | some i => s.tableWaits i | none => false) ||
    (isScaled v && (s.walkHolds || s.stagedScale (s.ctxOf st).tid ||
      s.xfers.any fun x => match x.op with | .scld _ | .scst _ => true | _ => false)) ||
    (v.major == 14 && (s.clock.freezeDue ||
      (s.clock.frozenGuard == some false && (s.ctxOf st).vl != 0 &&
        !s.mirrorRoom (groupSize (s.ctxOf st).ew.bytes v))))

/-- Outstanding transfers of the M slot (R114). -/
def State.outstanding (s : State) : Nat := s.xfers.length + (s.net.outQ.filter fun o => !o.mirror).length

/-- An NSEND that finds no credit waits, up to a limit (R283). -/
def State.creditWaits (s : State) (e : Env) (m : MSlot) : Bool :=
  let pk := addrPackage e.netAddr
  m.major.toNat == 7 && pk.toNat ≤ Config.maxPackage && s.reachable pk && s.net.credit.get 0 pk.toNat == 0

/-- M waits, but for those that a limit ends (R114, R180, R214, R217, R280). -/
def State.mWaits (s : State) (m : MSlot) : Bool :=
  let k := m.major.toNat
  let i := m.imm.toNat % 16
  ([1, 2, 3, 4, 7, 8, 13, 15, 16, 17, 18].contains k && s.outstanding ≥ Config.transfers) ||
    (k == 13 && ((s.mslot i).pending || s.loading i || s.repairing i || s.stagedTable i)) ||
    (k == 14 && (s.loading i || s.stagedTable i)) || ((k == 15 || k == 16) && s.walkHolds) || (k == 20 && s.outstanding != 0)

/-- An NRECV or POPQ with nothing to take waits, up to a limit (R275, R301). -/
def State.portWaits (s : State) (e : Env) (m : MSlot) : Bool :=
  match m.major.toNat with
  | 6 => s.meUp && s.programTile.isNone
  | 8 =>
    (s.nextArrival e.netAddr).isNone && !s.nextGone e.netAddr && s.reachable (addrPackage e.netAddr)
  | _ => false

/-- A slab that instructions wait for: an outstanding load writes it, its spare-in runs, or staged darning concerns it
(R74, R112, R338). -/
def State.slabBusy (s : State) (h k : Nat) : Bool :=
  s.xfers.any (fun x => x.slabs.contains (h * 16 + k)) ||
    (match s.arb.running with | some ⟨.spareIn h' k' _, _⟩ => h' == h && k' == k | _ => false) || s.stagedSlab h k

/-- Waits on the slabs of operands. -/
def State.slabWaits (s : State) (ns : List (Nat × Bool × Option (Nat × Nat))) : Bool :=
  ns.any fun n => match n.2.2 with | some (h, k) => s.slabBusy h k | none => false

/-- The slabs that a cold quantising CVT reads for its exponent beside its operands: its source tile region (R183).
Whether the slot is cold is judged after the errors that the look-up finds (R189). -/
def Env.coldRegion (e : Env) : List (Nat × Nat) :=
  let v := e.b.v1
  let t := e.s.slotErrs
  let cold : Bool := match t.findSlot e.ctx.tid with | some i => (t.slot i).cold | none => true
  if isScaled v && (fmtOf v.dfmt).isFp8 && e.vl != 0 && cold then e.regionSlabs (fmtOf v.sfmt) v.src1 else []

/-- Waits on scalars that a picot will write (R115). -/
def State.postWaits (s : State) (st : Stream) (b : Bundle) : Bool :=
  s.issue.posts.any fun p => p.stream == st && p.sd != 0 && (scalarsOf b).contains p.sd

/-- The bundle waits at issue: a cold quantising CVT for every slab of its region too, whose bytes it reads (R74, R112;
DEDUCED, log 55). -/
def State.mustWait (s : State) (e : Env) (o : MOut) : Bool :=
  let b := e.b
  let port := s.portWaits e b.m
  let credit := s.creditWaits e b.m
  let here :=
    match o with
    | .normal => port || credit
    | .recvTimeout => !(port && b.m.major == 8)
    | .popqTimeout => !(port && b.m.major == 6)
    | .sendTimeout => !credit
  here || s.slabWaits (s.names e.st (slabUses s e.ctx.ew.bytes b)) || s.v1Waits e.st b.v1 || s.mWaits b.m ||
    s.postWaits e.st b || e.coldRegion.any fun p => s.slabBusy p.1 p.2

/-! ### Errors that reads find -/

/-- How a read of an operand touches word `wd` of slab `j` of its run: none, or whether an active element
has a byte in it (R72). An effective UPD reads its operands' slabs whole, since its mirror group sends them so (R310;
log 10). -/
def Env.touch (e : Env) (u : SlabUse) (j wd : Nat) : Option Bool :=
  let vl := e.vl
  let on (i : Nat) : Bool := (u.km.map fun k => (e.s.mask k.toNat).getLsbD i).getD true
  let whole := u.slot == 1 && e.b.v1.major == 14
  let hit (is : List Nat) : Option Bool := if is.isEmpty && !whole then none else some (is.any on)
  if u.slot < 2 && vl = 0 then none
  else
    match u.len with
    | some n => if j = 0 && 8 * wd < n then some true else none
    | none =>
      if u.blk then hit (((List.range 256).map (256 * wd + ·)).filter (· < vl))
      else if u.o.bc then (if j = 0 && wd = 0 then hit (List.range vl) else none)
      else
        let vm := e.s.vlmaxAt u.w
        let n := 8 / u.w
        hit ((((List.range n).map (n * wd + ·)).filter fun i => i < vm && j * vm + i < vl).map (j * vm + ·))

/-- The slab of RX_HOOP from which an NRECV copies (R298, R301). -/
def Env.rxSlab (e : Env) : Option (Nat × Nat) :=
  if e.b.m.major = 8 then
    match e.s.nextArrival e.netAddr with
    | some (k, x) => if x.goneRelease || e.s.nextGone e.netAddr then none else some (e.s.net.rxHoop.toNat, k)
    | none => none
  else none

/-- The UPD in the V1 slot is not effective and reads nothing (R303, R308). -/
def Env.idleUpd (e : Env) : Bool := e.b.v1.major == 14 && e.cap.guard != some false

/-- The words of physical slabs that a cold quantising CVT reads for its exponent: every element that instructions
reach in the slabs of its source tile region (R43, R183). -/
def Env.regionRead (e : Env) (x : EccErr) : Bool :=
  let w := (fmtOf e.b.v1.sfmt).bytes
  x.word % 512 * 8 < e.s.vlmaxAt w * w &&
    e.coldRegion.any fun p => p.1 * 17 + e.s.physSlab p.1 p.2 == x.word / 512

/-- Storage errors that the bundle's reads find, in ascending hoop, slab and word (R372), each with whether an
active element, or the region of a cold conversion, needs the word (R72). -/
def Env.readErrs (e : Env) : List (EccErr × Bool) :=
  let us := (slabUses e.s e.ctx.ew.bytes e.b).filter fun u => u.rd && !(u.slot == 1 && e.idleUpd)
  let rx (x : EccErr) : List Bool :=
    match e.rxSlab with
    | some (h, k) => if h * 17 + e.s.physSlab h k = x.word / 512 then [true] else []
    | none => []
  (sortErrs EccErr.word (e.s.ecc.filter fun x => x.target == .hoop)).filterMap fun x =>
    let hits := us.flatMap fun u => ((u.slabs e.s e.st).zipIdx).filterMap fun p =>
      match p.1 with
      | some (h, k) =>
        if h * 17 + e.s.physSlab h k = x.word / 512 then e.touch u p.2 (x.word % 512) else none
      | none => none
    let all := hits ++ rx x ++ (if e.regionRead x then [true] else [])
    if all.isEmpty then none else some (x, all.any id)

/-- The words of slot 5's leaf that a UPD of form 1 reads: the header, and the segments of its arguments. -/
def updWords (e : Env) (l : Leaf) : List Nat :=
  let v := e.b.v1
  let (ps, _) := e.hyper
  let p (k : Nat) : Lane := ((ps[k]?).map (·.val)).getD Lane.zero
  let k2 := fsub ⟨0x3F800000, false⟩ (p 2)
  let sf := fmtOf v.sfmt
  let src := (e.active v.km).zip ((e.codes v.src1 sf.bytes).zip (e.codes (v.src2 + 1) 2))
  let per := src.flatMap fun q =>
    if q.1 then
      let arg :=
        (loadLane .f32 sf q.2.1).bind fun g0 => (loadLane .f32 .bf16 q.2.2).bind fun v0 =>
          (fmul (p 7) g0).bind fun g => (fmul (p 2) v0).bind fun c => (fmul g g).bind fun gg =>
            (fmul k2.val gg).bind fun f => (fadd c f).bind fun v1 => (fmul (p 6) v1).bind fun h => fadd h (p 3)
      match fpF32.value arg.val.code with
      | .nan => []
      | x => (l.eval x).2.flatMap fun j => [16 + 2 * j, 17 + 2 * j]
    else []
  List.range 16 ++ per

/-- Storage errors that the bundle finds in the leaf that it evaluates (R216). -/
def Env.leafErrs (e : Env) : List EccErr :=
  match tableOf e.b.v1 with
  | none => []
  | some i =>
    let x := e.s.mslot i
    let eff := !e.idleUpd
    match x.table with
    | some l =>
      if e.vl = 0 || !eff then []
      else
        let ws := if e.b.v1.major = 14 then updWords e l else funcWords e l
        e.s.ecc.filter fun y => y.target == .leaf && y.word / 1096 == 2 * i + (if x.active then 1 else 0) &&
          (ws.contains (2 * (y.word % 1096)) || ws.contains (2 * (y.word % 1096) + 1))
    | none => []

/-- A leaf's number among the 32 leaves: twice its slot, plus 1 for leaf B. -/
def leafNo (i : Nat) (b : Bool) : Nat := 2 * i + (if b then 1 else 0)

/-- The UNIT of a leaf in the darn log (R336). -/
def leafUnit (i : Nat) (b : Bool) : Nat := i + (if b then 32 else 0)

/-- A leaf is lost, its group's spare being gone (R217). A leaf that the spare holds leaves the spare bad. -/
def State.loseLeaf (s : State) (i : Nat) (b : Bool) : State :=
  let x := (s.mslot i).setLeaf b Leaf.reset
  let y := if b then { x with lostB := true } else { x with lostA := true }
  let m := if s.motif.spares[i / 4]? = some (.inUse (leafNo i b)) then
      { s.motif with spares := s.motif.spares.setIfInBounds (i / 4) .bad } else s.motif
  (({ s with motif := m } : State).setMslot i y).measCancel (.leaf (BitVec.ofNat 4 i) b) |>.decideSwap i

/-- A leaf is lost by an uncorrectable error, with its entry in the darn log (R336): a bad spare leaf where the
spare held it, otherwise the leaf that no spare could replace (DEDUCED, log 23). -/
def State.leafLost (s : State) (i : Nat) (b : Bool) : State :=
  let kind := if s.motif.spares[i / 4]? = some (.inUse (leafNo i b)) then 7 else 6
  (s.loseLeaf i b).logDarn kind 1 (leafUnit i b)

/-- A leaf that failed: its repair starts, or it is lost when its group's spare is gone (R216, R217). -/
def State.leafFails (s : State) (i : Nat) (b : Bool) : State :=
  if s.acting (.leafRepair i b) || (s.mslot i).lost b then s
  else if (s.motif.spares[i / 4]?).getD .bad = .free then s.startStruct ⟨.leafRepair i b, .engine⟩
  else s.leafLost i b

/-! ### Execution -/

/-- The V1 slot's effect. -/
def v1Effect (e : Env) (t : State) : State :=
  match e.b.v1.major.toNat with
  | 1 => funcEffect e t
  | 2 => gactEffect e t
  | 3 => cvtEffect e t
  | 4 => redEffect e t
  | 5 => scanEffect e t
  | 6 => lscanEffect e t
  | 7 => permEffect e t
  | 8 => xposeEffect e t
  | 9 => cprsEffect e t
  | 10 => expdEffect e t
  | 11 => tselEffect e t
  | 12 => gcmpEffect e t
  | 13 => gdecEffect e t
  | 14 => updEffect e t
  | _ => t

/-- All four slots of a bundle, each reading the state before the bundle (R65, R111); the transfer of an
aborted bundle is not handed again (R326). -/
def execBundle (e : Env) (o : MOut) (handed : Bool) : State :=
  let t := v1Effect e (chainEffect e e.s)
  let u := sEffect e (mRest e o (if handed then t else (mHand e o t).beginLoad e.b.m))
  if e.st = .main then u.modIssue fun x => { x with count := x.count + 1 } else u

/-! ### The gate before execution -/

/-- What the gate answers: the state in which the bundle does not execute, or the one in which it does. -/
inductive Gate where
  | held (s : State)
  | pass (s : State)
deriving DecidableEq, Repr

/-- Errors that the reads find: a stop (R72), or the state in which the bundle goes on. An uncorrectable word of masked
elements alone sets HOOP_UE too (R72). -/
def readGate (e : Env) : Gate :=
  let es := e.readErrs
  let t := (es.foldl (fun (t : State) p => t.hoopErr p.1) e.s).markIf (es.any fun p => p.1.hard) 14 4
  if es.any fun p => p.1.hard && p.2 then .held (t.halted e.st .hoopUe 14 4 .stopped)
  else
    let ls := e.leafErrs
    let u := t.dropEcc (ls.filter fun x => !x.hard)
    match ls.find? EccErr.hard with
    | some x =>
      let (_, b, _) := leafErrOf x
      .held (((u.halted e.st .leafUe 4 4 .stopped).mark 4 4).leafFails ((tableOf e.b.v1).getD 0) b)
    | none => .pass u

/-- A partner that the run's M slot needs is gone (R285, R300): the run aborts. -/
def goneGate (e : Env) (t : State) : Gate :=
  match e.st, e.b.m.major.toNat with
  | .edge, 5 => if t.meUp then .pass t else .held (t.goneOnce.abortRun .gone)
  | .edge, 8 =>
    if t.nextGone e.netAddr then .held ((t.dropGone e.netAddr).goneOnce.abortRun .gone)
    else
    match t.nextArrival e.netAddr with
    | some (k, x) => if x.goneRelease then .held ((t.freeSlot k).goneOnce.abortRun .gone) else .pass t
    | none => if t.reachable (addrPackage e.netAddr) then .pass t else .held (t.goneOnce.abortRun .gone)
  | _, _ => .pass t

/-- The first part of the gate: fetch, legality, hoops. A bundle with more than one fault takes the first of ILLEGAL,
HOOP_GONE, EDGE_LENT and NET_LENT, since no rule says which is recorded (R38, R44, R244, R298; DESIGN CHOICE, log 57). -/
def State.standing (s : State) (st : Stream) (b : Bundle) (cap : TwCap) : Gate :=
  let es := s.fetchErrs st
  if es.any EccErr.hard then
    .held (match st with
      | .main => (s.stopAt .progUe s.issue.pc).mark 1 4
      | .edge => (s.abortRun .stopped).mark 7 11)
  else
    let t := (s.dropEcc es).bump .corrErr es.length
    let e : Env := ⟨t, st, b, cap⟩
    let hs := (t.names st (slabUses t e.ctx.ew.bytes b)).filterMap fun n => n.2.2.map (·.1)
    if !t.legalHere st b then .held (t.halted st .illegal 1 0 .illegal)
    else if hs.any fun h => !t.hoopPresent h then .held (t.halted st .hoopGone 1 1 .hoopGone)
    else if st == .main && hs.any t.lentHoop then .held (t.halted st .edgeLent 1 2 .illegal)
    else if st == .main && t.net.rxEn && hs.contains t.net.rxHoop.toNat then
      .held (t.halted st .netLent 1 3 .illegal)
    else .pass t

/-- The gate in order: fetch, legality, hoops, waits, partners, reads. -/
def State.gate (s : State) (st : Stream) (b : Bundle) (cap : TwCap) (o : MOut) : Gate :=
  match s.standing st b cap with
  | .held t => .held t
  | .pass t =>
    let e : Env := ⟨t, st, b, cap⟩
    if t.mustWait e o then .held s
    else
      match goneGate e t with
      | .held u => .held u
      | .pass u => readGate ⟨u, st, b, cap⟩

/-- What a bundle that issues now captures. -/
def State.twCap (s : State) : TwCap := ⟨s.twist.s0, s.twist.s1, s.twist.step, s.clock.frozenGuard, s.meUp⟩

/-- The run has a bundle ready: the next one does not wait (R251). -/
def State.edgeReady (s : State) : Bool :=
  s.streamReady .edge &&
    (let b := s.fetched .edge
     match s.standing .edge b s.twCap with
     | .held _ => true
     | .pass t => !t.mustWait ⟨t, .edge, b, s.twCap⟩ .normal)

/-- A bundle of the stream may be offered: a ready bundle of the run goes before the main program's (R251, R326, R332,
R338). -/
def State.canOffer (s : State) (st : Stream) : Bool :=
  s.executes && !s.issueHeld && s.issue.retry.isNone && s.streamReady st && (st == .edge || !s.edgeReady)

/-! ### Lane errors -/

/-- The physical panels that a bundle executes on: those of the map whose places are not lost (R331, R334). -/
def State.workPanels (s : State) : List Nat :=
  match s.issue.retry with
  | some r => s.panelMap.filter fun p => !r.lost.contains p
  | none => s.panelMap

/-- An execution of the bundle can find a lane error in the slot on the physical panel (R324, R325, R331, R457): V0
and V1 operations and element addresses on a panel that serves an element below VL, other addresses on any panel
that serves, S arithmetic in the scalar unit (DEDUCED, log 49). -/
def Env.computes (e : Env) (slot : Nat) (panel : Nat) : Bool :=
  let at_ := e.s.workPanels.findIdx? (· == panel)
  let busy : Bool := match at_ with | some k => k * 64 * (4 / e.ctx.ew.bytes) < e.vl | none => false
  match slot with
  | 0 => panel != 31 && e.b.v0.major == 1 && busy
  | 1 => panel != 31 && e.b.v1.major != 0 && busy
  | 2 =>
    panel != 31 && (([1, 2, 3, 4].contains e.b.m.major.toNat && busy) ||
      ([13, 15, 16, 17, 18].contains e.b.m.major.toNat && at_.isSome))
  | _ => panel == 31 && 1 ≤ e.b.s.major.toNat && e.b.s.major.toNat ≤ 0x0D

/-- The lane injection armed on the TEST page, when this execution meets it: the state after it is counted
(R457). -/
def Env.injected (e : Env) : Option (LaneErr × State) :=
  let w := e.s.reg 15 0x040
  let slot := bits w 25 24
  let panel := bits w 20 16
  let n := bits w 3 0
  if w.getLsbD 31 && e.computes slot panel then
    let left := n - 1
    let w' : Word := (w &&& 0x7FFFFFF0#32) ||| BitVec.ofNat 32 (left + (if left = 0 then 0 else 2 ^ 31))
    some (⟨BitVec.ofNat 2 slot, BitVec.ofNat 5 panel⟩, (e.s.setReg 15 0x040 w').mark 15 0)
  else none

/-- The lane errors of an execution: those given, and the injection armed on the TEST page where the execution meets
it, which counts whatever other error it finds; with the state after it is counted (R457). -/
def Env.faults (e : Env) (errs : List LaneErr) : List LaneErr × State :=
  match e.injected with
  | some (x, u) => (if errs.contains x then errs else x :: errs, u)
  | none => (errs, e.s)

/-- The M slot hands its transfer before a lane error of these slots is found (R325, R326). -/
def handsFirst (b : Bundle) (errs : List LaneErr) : Bool :=
  [1, 2, 3, 4, 7, 13, 15, 16, 17, 18].contains b.m.major.toNat && !errs.any fun x => x.slot == 2

/-- LANE_ERR for an error (R454). -/
def Env.laneWord (e : Env) (x : LaneErr) : Word :=
  BitVec.ofNat 32 (2 ^ 31 + (if e.st = .edge then 2 ^ 30 else 0) + x.slot.toNat * 2 ^ 24 +
    x.panel.toNat * 2 ^ 16 + e.s.pcOf e.st % 2048)

/-- LANE_ERR recorded for the last error of the list (R328). -/
def Env.recordLane (e : Env) (t : State) (errs : List LaneErr) : State :=
  match errs.getLast? with
  | some x => { t with trouble := { t.trouble with laneErr := e.laneWord x } }
  | none => t

/-- The record, or the GONE release, that an NRECV of the bundle takes (R300, R301). -/
def Env.takes (e : Env) (o : MOut) : Option Taken :=
  if e.b.m.major = 8 && o == .normal then
    if e.s.nextGone e.netAddr then
      (e.s.net.gones.find? fun g => g.src == e.netAddr).map fun g => .gone { g with left := 1 }
    else (e.s.nextArrival e.netAddr).map fun p => .slot p.1
  else none

/-- The bundle aborts before writeback and waits for its re-execution; a transfer that was handed is
outstanding (R326). -/
def Env.laneAbort (e : Env) (o : MOut) (errs : List LaneErr) (handed : Bool) : State :=
  let h := handed && handsFirst e.b errs
  let t := e.recordLane (if h then mHand e o e.s else e.s) errs
  let r : Retry :=
    { stream := e.st, bundle := e.b, fails := 1, handed := h, out := o, lost := [], darning := false, cap := e.cap
      acts := [], takes := e.takes o, freed := false }
  t.modIssue fun u => { u with retry := some r }

/-! ### Issue -/

/-- The bundle issues, or does not (R110, R111); `o` is how a wait of its M slot ended, `err` a lane error of
its first execution. -/
def State.issueBundle (s : State) (i : Issue) (o : MOut) (err : Option (List LaneErr × Bool)) : State :=
  if !s.canOffer i.stream || s.fetched i.stream ≠ i.bundle then s
  else
    match s.gate i.stream i.bundle s.twCap o with
    | .held t => t
    | .pass t =>
      let e : Env := ⟨t, i.stream, i.bundle, s.twCap⟩
      let f := e.faults ((err.map (·.1)).getD [])
      if f.1.isEmpty then execBundle e o false
      else Env.laneAbort ⟨f.2, e.st, e.b, e.cap⟩ o f.1 ((err.map (·.2)).getD true)

/-- A row's command: the bundle it offers issues when it carries the row's instruction. -/
def State.issueRow (s : State) (row : Row) (i : Issue) : State :=
  if i.bundle.carries row then s.issueBundle i .normal none else s

end Sys2Proof.Machine
end

