-- ==== Sys2Proof/Machine/Repair.lean ====
section
/-!
DEFINITION. Faults inside the engine: re-execution and third failures (R326 to R330), darning (R331 to
R334), slab spare-in (R73 to R76), leaf repair (R216, R217), proofing (R335), staged darning (R338, R339)
and scrubs (R70, R319, R373).
-/

namespace Sys2Proof.Machine

/-! ### Panels -/

def State.panel (s : State) (p : Nat) : PanelState := s.panels[p]?.getD .retired

def State.setPanel (s : State) (p : Nat) (x : PanelState) : State :=
  { s with panels := s.panels.setIfInBounds p x }

/-- The available spare with the lowest number (R331). -/
def State.spare? (s : State) : Option Nat := [16, 17].find? fun p => s.panel p == .spare

/-- A retired panel replaced in the map by a spare (R331). -/
def State.mapSpare (s : State) (p sp : Nat) : State :=
  let t := (s.setPanel p .retired).setPanel sp .inService
  { t with panelMap := t.panelMap.map fun x => if x = p then sp else x }

/-- A retired panel's logical place removed (R334). -/
def State.dropPanel (s : State) (p : Nat) : State :=
  let t := s.setPanel p .retired
  { t with panelMap := t.panelMap.filter (· != p) }

/-- The retry state changed. -/
def State.setRetry (s : State) (r : Option Retry) : State := s.modIssue fun u => { u with retry := r }

/-- A panel retired with no spare left (R334). Under an aborted bundle its place leaves the map at once and counts in
ACTIVE until the boundary after that bundle (R42); where no bundle waits both go at once. -/
def State.losePanel (s : State) (p : Nat) : State :=
  match s.issue.retry with
  | some r => (s.setPanel p .retired).setRetry (some { r with lost := r.lost ++ [p] })
  | none => State.settleCap s (s.dropPanel p)

/-- The structural activity running is a proofing of the spare that darning takes (R333). -/
def State.proofsSpare (s : State) : Bool :=
  match s.arb.running, s.spare? with
  | some ⟨.proofing a, _⟩, some sp => a == 2 || (a == 0 && sp == 16) || (a == 1 && sp == 17)
  | _, _ => false

/-- PROOF_STATUS (R454). -/
def proofWord (result failed arg : Nat) : Word := BitVec.ofNat 32 (2 ^ 31 + result * 2 ^ 28 + failed * 2 ^ 8 + arg)

/-- A proofing ends with its result (R335, R451). -/
def State.proofEnds (s : State) (result failed arg : Nat) : State :=
  ({ s with trouble := { s.trouble with proofStatus := proofWord result failed arg } } : State).mark 12 1

/-- A panel is retired and darned at P0 (R328, R332, R333), or its place is removed when no spare is left (R334). It
keeps its place in the map until a spare takes it. -/
def State.startDarn (s : State) (p : Nat) : State :=
  if s.panel p = .retired then s
  else
    match s.spare? with
    | none => (s.losePanel p).logDarn 1 0 p
    | some _ =>
      let run : Start := ⟨.darning p, .engine⟩
      let t := s.setPanel p .retired
      match t.arb.running with
      | none => { t with arb := { t.arb with running := some run } }
      | some ⟨.proofing a, _⟩ =>
        if t.proofsSpare then
          let u := t.proofEnds 2 0 a
          { u with arb := { u.arb with running := some run } }
        else { t with arb := { t.arb with darns := t.arb.darns ++ [p] } }
      | some _ => { t with arb := { t.arb with darns := t.arb.darns ++ [p] } }

/-- A darning that is due with no spare left removes its panel's place at once; `fuel` bounds the panels. -/
def State.flushDarns : Nat → State → State
  | 0, s => s
  | n + 1, s =>
    match s.arb.running, s.spare? with
    | some ⟨.darning p, _⟩, none => State.flushDarns n (((s.losePanel p).logDarn 1 0 p).endStruct)
    | _, _ => s

/-! ### What structural activities do -/

/-- A slab copied to its hoop's spare, uncorrectable words as zero, and its name directed there (R34, R73). The copy's
reads correct and count the correctable errors that they find (R70); the spare's count starts at 0 (DESIGN CHOICE,
log 14). -/
def State.moveSlab (s : State) (h k : Nat) : State :=
  let mine (e : EccErr) (phys : Nat) : Bool := e.target == .hoop && e.word / 512 == h * 17 + phys
  let bad := (s.ecc.filter fun e => mine e k && e.hard).map fun e => e.word % 512
  let soft := (s.ecc.filter fun e => mine e k && !e.hard).length
  let bs := (((s.slabBytes h k 4096).zipIdx).map fun p => if bad.contains (p.2 / 8) then 0 else p.1)
  State.settleCap s <| State.bump (c := .hoopCorr) (n := soft)
    { s with hoops := splice s.hoops (slabKey h 16) bs
             ecc := s.ecc.filter fun e => !(mine e k || mine e 16)
             hoopMeta := { s.hoopMeta with spare := s.hoopMeta.spare.setIfInBounds h (.inUse k)
                                           ceCount := s.hoopMeta.ceCount.set 0 (h * 17 + 16) 0 } }

/-- A leaf moved to its group's spare; with an uncorrectable word it becomes EMPTY (R216). -/
def State.moveLeaf (s : State) (i : Nat) (b : Bool) : State :=
  let mine (e : EccErr) : Bool := e.target == .leaf && e.word / 1096 == leafNo i b
  let lost := s.ecc.any fun e => mine e && e.hard
  let t : State := State.settleCap s
    { s with ecc := s.ecc.filter fun e => !mine e
             motif := { s.motif with spares := s.motif.spares.setIfInBounds (i / 4) (.inUse (leafNo i b)) } }
  if lost then
    (((t.setMslot i ((t.mslot i).setLeaf b Leaf.reset)).measCancel (.leaf (BitVec.ofNat 4 i) b)).mark 4 5).decideSwap i
  else t

/-- What one staged entry does: applied, skipped because its unit is already retired or spared, or bad
(R339). -/
inductive Staged where
  | applied (s : State)
  | skipped
  | bad

/-- A staged panel entry (R331, R334, R338). -/
def State.stagePanel (s : State) (kind p : Nat) : Staged :=
  if p > 17 || (kind = 2 && p < 16) then .bad
  else
    match s.panel p with
    | .spare => .applied (s.setPanel p .bad)
    | .inService =>
      if kind = 2 then .skipped
      else
        match s.spare? with
        | some sp => .applied (s.mapSpare p sp)
        | none => .applied (s.losePanel p)
    | _ => .skipped

/-- A staged slab or hoop entry (R73, R76, R338). -/
def State.stageHoop (s : State) (kind unit cause : Nat) : Staged :=
  let h := if kind = 4 then unit else unit / 16
  let k := unit % 16
  if h > 5 || (kind = 5 && k ≠ 15) then .bad
  else
    match kind with
    | 3 =>
      if !s.hoopPresent h then .skipped
      else
        match s.hoopMeta.spare[h]? with
        | some .free => .applied (s.moveSlab h k)
        | some (.inUse j) => if j = k then .skipped else .applied (s.retireHoop h cause false)
        | _ => .applied (s.retireHoop h cause false)
    | 4 => if s.hoopPresent h then .applied (s.retireHoop h cause false) else .skipped
    | _ =>
      if s.hoopMeta.spare[h]? = some .free then
        .applied { s with hoopMeta := { s.hoopMeta with spare := s.hoopMeta.spare.setIfInBounds h .bad } }
      else .skipped

/-- A staged leaf or scale-slot entry (R189, R216, R217, R338). -/
def State.stageStore (s : State) (kind unit : Nat) : Staged :=
  if kind = 8 then
    if unit ≥ Config.scaleSlots then .bad
    else if s.scale.spared.contains unit || (s.slot unit).pinned then .skipped
    else if s.scale.spareFree = 0 then .applied (s.pinSlot unit)
    else .applied (s.spareSlot unit)
  else
    let i := unit % 32
    let b := unit / 32 == 1
    if unit > 63 || i > 15 then .bad
    else
      match s.motif.spares[i / 4]? with
      | some .free =>
        if kind = 6 then .applied (s.moveLeaf i b)
        else .applied { s with motif := { s.motif with spares := s.motif.spares.setIfInBounds (i / 4) .bad } }
      | some (.inUse l) =>
        if (s.mslot i).lost b || (kind == 7) != (l == leafNo i b) then .skipped else .applied (s.loseLeaf i b)
      | _ => if kind = 7 || (s.mslot i).lost b then .skipped else .applied (s.loseLeaf i b)

/-- One entry of the stage (R338, R339). -/
def State.stageEntry (s : State) (w : Word) : Staged :=
  let kind := bits w 31 28
  let cause := bits w 27 24
  let unit := bits w 15 0
  if cause > 4 then .bad
  else
    match kind with
    | 1 | 2 => s.stagePanel kind unit
    | 3 | 4 | 5 => s.stageHoop kind unit cause
    | 6 | 7 | 8 => s.stageStore kind unit
    | _ => .bad

/-- The index of a skipped entry (R339, R454). -/
def State.noteSkip (s : State) (i : Nat) : State :=
  { s with trouble := { s.trouble with skipValid := true, skipIndex := i } }

/-- The stage applied in ascending index, R34 once per entry, and emptied; the lengths follow (R42, R338, R339,
R455). -/
def State.applyStage (s : State) : State :=
  let t := s.trouble.stage.foldl (fun (t : State) p =>
    if bits p.2 31 28 = 0 then t
    else
      match t.stageEntry p.2 with
      | .applied u => State.settleCap t u
      | .skipped => t.noteSkip p.1
      | .bad => (t.noteSkip p.1).mark 14 12) s
  ({ t with trouble := { t.trouble with stage := [] } } : State).clampLengths

/-- What a structural activity does as it ends: a slab spare-in (R73), or the retirement of its hoop when another
spare-in has taken the spare meanwhile (R76); a leaf repair (R216), or the loss of the leaf when another repair has taken
the spare (R217), with the swap that waited for it decided (R373); the stage applied (R338). -/
def State.actEffect (s : State) (a : Act) : State :=
  match a with
  | .spareIn h k cause =>
    if !s.hoopPresent h then s
    else if s.hoopMeta.spare[h]? = some .free then
      ((s.moveSlab h k).logDarn 3 cause (h * 16 + k)).mark 3 0
    else s.retireHoop h cause true
  | .leafRepair i b =>
    (if (s.motif.spares[i / 4]?).getD .bad = .free then (s.moveLeaf i b).logDarn 6 1 (leafUnit i b)
      else s.leafLost i b).decideSwap i
  | .staged => s.applyStage
  | _ => s

/-- The activity that runs ends with its effect. While a bundle waits for its re-execution the effect waits for the
boundary after it, since that reads the same operands, tables and scale slots again (R326; DEDUCED, log 16). -/
def State.actEnds (s : State) (a : Act) : State :=
  (match s.issue.retry with
    | some r => s.setRetry (some { r with acts := r.acts ++ [a] })
    | none => s.actEffect a).endStruct

/-! ### Re-execution -/

/-- Lane errors that an execution of the bundle can have (R324, R325). -/
def errsOk (e : Env) (errs : List LaneErr) : Bool :=
  !errs.isEmpty && errs.all fun x => e.computes x.slot.toNat x.panel.toNat

/-- The record that an NRECV was to take, freed under it, goes (R326). -/
def State.dropTaken (s : State) (x : Option Taken) : State :=
  match x with
  | some (.slot k) => s.freeSlot k
  | some (.gone g) => s.dropGone g.src
  | none => s

/-- The boundary after the aborted bundle, or after it is given up: a TBLD that it handed makes its leaf LOADING, a
record freed under it goes, the places of the panels lost under it go, in one event (R34), the activities that ended under
it take effect (R326), the lengths follow (R42, R56, R334), and the writes held for it are made. -/
def State.retryOver (s : State) : State :=
  match s.issue.retry with
  | none => s
  | some r =>
    let t := if r.handed then (s.setRetry none).beginLoad r.bundle.m else s.setRetry none
    let u := if r.freed then t.dropTaken r.takes else t
    let v := State.settleCap u { u with panelMap := u.panelMap.filter fun p => !r.lost.contains p }
    (r.acts.foldl State.actEffect v).clampLengths.releaseHeld

/-- The third failure in the scalar unit stops issue (R330); in a run, the run too. -/
def State.laneHard (s : State) (r : Retry) : State :=
  let t := { s.retryOver with trouble := { s.retryOver.trouble with laneHard := true } }
  let u := if t.issue.running then t.stopAt .laneHard t.issue.pc else t
  match r.stream with
  | .main => u
  | .edge => u.abortRun .stopped

/-- An execution of the aborted bundle in `e` found lane errors (R328, R330, R331): a transfer that this execution
handed first is outstanding (R326). A third failure darns each panel named, and stops issue where it names the scalar
unit. When no panel is left the bundle is written back on the geometry that it was issued on, since ceil(L / A) of R334
has no meaning for A = 0 (DESIGN CHOICE, log 16). -/
def State.failAgain (e : Env) (r : Retry) (errs : List LaneErr) (handed : Bool) : State :=
  let h := handed && !r.handed && handsFirst e.b errs
  let t := e.recordLane (if h then mHand e r.out e.s else e.s) errs
  let q := { r with handed := r.handed || h }
  if q.fails + 1 < 3 then t.setRetry (some { q with fails := q.fails + 1 })
  else
    let ps := (List.range 18).filter fun p => errs.any fun x => x.panel.toNat == p
    let u := ps.foldl State.startDarn (t.setRetry (some { q with fails := 0 }))
    if errs.any fun x => x.panel == 31#5 then u.laneHard q
    else u.modIssue fun i => { i with retry := i.retry.map fun x => { x with darning := u.darningDue } }

/-- The bundle written back, or given up, and the boundary after it (R42). A STOP that came under the retry abandons the
wait that the bundle began (R119). -/
def State.retryDone (s : State) : State :=
  let u := s.retryOver
  if u.issue.stop = some .hostStop then u.abandonWait .main else u

/-- The aborted bundle may execute again (R327, R332), in a requested RESTITCH too (R341). -/
def State.retryReady (s : State) : Option Retry :=
  match s.issue.retry with
  | some r =>
    if s.works && (!s.trouble.restitchBusy || s.trouble.lastRestitch == 1#2) && !s.darningDue && !r.darning then some r
    else none
  | none => none

/-- The reads of an execution of the aborted bundle: one that meets an uncorrectable error is not retried (R329). -/
def State.retryGate (s : State) (r : Retry) : Gate :=
  readGate ⟨(s.bump .retry 1).mark 14 0, r.stream, r.bundle, r.cap⟩

/-- The aborted bundle executes again (R326, R327, R334): `errs` are the lane errors reported of this execution, and
the armed injection joins them (R457). -/
def State.rerun (s : State) (r : Retry) (errs : List LaneErr) (handed : Bool) : State :=
  match s.retryGate r with
  | .held u => u.retryDone
  | .pass u =>
    let f := Env.faults ⟨u, r.stream, r.bundle, r.cap⟩ errs
    if f.1.isEmpty then
      (execBundle ⟨u.setRetry (some { r with freed := false }), r.stream, r.bundle, r.cap⟩ r.out r.handed).retryDone
    else State.failAgain ⟨f.2, r.stream, r.bundle, r.cap⟩ r f.1 handed

/-- A re-execution of the aborted bundle without a reported error. -/
def State.reexecute (s : State) : State :=
  match s.retryReady with
  | none => s
  | some r => s.rerun r [] true

/-- How the wait of its M slot ended for a bundle whose first execution found a lane error: one that still waits was
issued at the limit of its wait (R275, R283, R301; DEDUCED, log 49). -/
def State.firstOut (s : State) (i : Issue) : MOut :=
  let e : Env := ⟨s, i.stream, i.bundle, s.twCap⟩
  if s.portWaits e i.bundle.m then (if i.bundle.m.major = 8 then .recvTimeout else .popqTimeout)
  else if s.creditWaits e i.bundle.m then .sendTimeout else .normal

/-- A lane error: of a first execution, or of the re-execution under way (R326, R328). -/
def State.laneError (s : State) (i : Issue) (errs : List LaneErr) (handed : Bool) : State :=
  if !errsOk ⟨s, i.stream, i.bundle, s.twCap⟩ errs then s
  else
    match s.issue.retry with
    | none => s.issueBundle i (s.firstOut i) (some (errs, handed))
    | some r =>
      if r.stream = i.stream && r.bundle = i.bundle then
        match s.retryReady with
        | none => s
        | some r => s.rerun r errs handed
      else s

/-! ### Darning -/

/-- Spares tried in order (R332): those that fail the short pattern are bad; the first that passes serves. Each fall
of PANELS.SPARE is an event of its own (R34). -/
def State.darn (s : State) (p : Nat) (pass16 pass17 : Bool) : State :=
  let try_ (acc : State × Bool) (sp : Nat) : State × Bool :=
    if acc.2 || acc.1.panel sp != .spare then acc
    else if (if sp = 16 then pass16 else pass17) then
      (State.settleCap acc.1 ((acc.1.mapSpare p sp).logDarn 1 0 p), true)
    else (State.settleCap acc.1 ((acc.1.setPanel sp .bad).logDarn 2 4 sp), false)
  let r := [16, 17].foldl try_ (s, false)
  if r.2 then r.1 else (r.1.losePanel p).logDarn 1 0 p

/-- Darning ends; the failing bundle may execute again when no darning is due (R332, R333). -/
def State.darningDone (s : State) (pass16 pass17 : Bool) : State :=
  match s.arb.running with
  | some ⟨.darning p, _⟩ =>
    let t := State.flushDarns 18 ((s.darn p pass16 pass17).endStruct)
    match t.issue.retry with
    | some r => if t.darningDue then t else t.setRetry (some { r with darning := false })
    | none => t.clampLengths
  | _ => s

/-! ### Spare-in, leaf repair and scrubs -/

/-- A slab spare-in completes (R73). -/
def State.spareInDone (s : State) : State :=
  match s.arb.running with
  | some ⟨.spareIn h k cause, _⟩ => s.actEnds (.spareIn h k cause)
  | _ => s

/-- Leaf repair completes (R216). -/
def State.leafRepairDone (s : State) : State :=
  match s.arb.running with
  | some ⟨.leafRepair i b, _⟩ => s.actEnds (.leafRepair i b)
  | _ => s

/-- A hoop's spare slab marked bad and logged (R34, R335). -/
def State.spareBad (s : State) (h cause : Nat) : State :=
  State.settleCap s <| ({ s with hoopMeta := { s.hoopMeta with spare := s.hoopMeta.spare.setIfInBounds h .bad } } : State).logDarn
    5 cause (h * 16 + 15)

/-- Errors of one physical slab found by a scrub; a failing spare slab that is not in use is bad. -/
def State.scrubErr (h phys : Nat) (s : State) (e : EccErr) : State :=
  let t := s.hoopErr e
  if phys = 16 && s.hoopMeta.spare[h]? = some .free then
    if e.hard then t.spareBad h 1
    else
      let lim := bits (t.reg 3 0x04C) 15 0
      if lim ≠ 0 && t.hoopMeta.ceCount.get 0 (h * 17 + 16) ≥ lim then t.spareBad h 2 else t
  else t

/-- The next slab of a running scrub (R319): each slab where it is held, and last the spare slab. A slab under
spare-in is waited for, and then the spare is scrubbed in its place (R373). -/
def State.scrubSlab (s : State) (h : Nat) : State :=
  match s.clock.scrubs.find? fun p => p.1 == h with
  | none => s
  | some (_, j) =>
    let busy :=
      match s.arb.running with
      | some ⟨.spareIn h' k _, _⟩ => h' == h && k == j
      | _ => false
    if busy then s
    else
      let phys := if j < 16 then s.physSlab h j else 16
      let es := sortErrs EccErr.word (s.ecc.filter fun e => e.target == .hoop && e.word / 512 == h * 17 + phys)
      let t := if s.hoopPresent h then es.foldl (State.scrubErr h phys) s else s
      let next := if j + 1 ≥ 17 || !t.hoopPresent h then [] else [(h, j + 1)]
      { t with clock := { t.clock with scrubs := (t.clock.scrubs.filter fun p => p.1 != h) ++ next } }

/-! ### Proofing -/

/-- The panels that a proofing names (R319). -/
def proofPanels (a : Nat) : List Nat := if a = 0 then [16] else if a = 1 then [17] else if a = 2 then [16, 17] else []

/-- A proofing ends (R335). -/
def State.proofingDone (s : State) (bad16 bad17 : Bool) (badSlabs : BitVec 6) : State :=
  match s.arb.running with
  | some ⟨.proofing a, _⟩ =>
    let ps := (proofPanels a).filter fun p => s.panel p == .spare && (if p = 16 then bad16 else bad17)
    let hs := if a = 3 then
        (List.range 6).filter fun h =>
          s.hoopPresent h && s.hoopMeta.spare[h]? = some .free && badSlabs.getLsbD h
      else []
    let t := ps.foldl (fun (t : State) p => State.settleCap t ((t.setPanel p .bad).logDarn 2 3 p)) s
    let u := hs.foldl (fun (t : State) h => t.spareBad h 3) t
    let failed := (if ps.contains 16 then 1 else 0) + (if ps.contains 17 then 2 else 0) + (if hs.isEmpty then 0 else 4)
    (u.proofEnds (if failed = 0 then 0 else 1) failed a).endStruct
  | _ => s

/-! ### Staged darning -/

/-- Staged darning ends (R338). -/
def State.stagedDone (s : State) : State :=
  match s.arb.running with
  | some ⟨.staged, _⟩ => s.actEnds .staged
  | _ => s

/-- The stage holds nothing to apply (R455). -/
def State.stageEmpty (s : State) : Bool := s.trouble.stage.all fun p => bits p.2 31 28 == 0

/-- A start of staged darning: at once with nothing to apply, else a structural start. -/
def State.startStaged (s : State) (src : ActSrc) : State :=
  if s.stageEmpty then { s with trouble := { s.trouble with stage := [] } }
  else s.startStruct ⟨.staged, src⟩

end Sys2Proof.Machine
end

