-- ==== Sys2Proof/Machine/Fabric.lean ====
section
/-!
DEFINITION. Completion of fabric transfers (R17, R18, R60, R277 to R279, R285, R286), the check of a table
load (R211 to R215), scale images (R187, R188) and ledger records (R262, R263), and verdicts (R383).
-/

namespace Sys2Proof.Machine

/-! ### Bytes of the fabric -/

/-- What one byte address gives or takes, for an element of a transfer under which targets were lost. -/
inductive Reach where
  | ok
  | unmapped
  | absent
deriving DecidableEq, Repr

def State.reach (s : State) (lost : List LostTarget) (i a : Nat) : Reach :=
  let t := target a
  if t = .unmapped then .unmapped else if s.delivers lost t i then .ok else .absent

/-- Every byte of element `i`'s range is delivered at its target (R285, R286). -/
def State.present (s : State) (lost : List LostTarget) (i a n : Nat) : Bool :=
  (List.range n).all fun j => s.reach lost i (wrap48 (a + j)) == .ok

/-- Bytes read from the fabric: zero where unmapped, not delivered by a target, or, by word, not delivered before a
timeout; with whether an address was unmapped, and a target absent (R17, R278, R285, R286). -/
def State.readFabric (s : State) (a n : Nat) (lost : List LostTarget) (got : Option Nat) : List Byte × Bool × Bool :=
  let idx := List.range n
  let at_ (j : Nat) : Reach := s.reach lost (j / 4) (wrap48 (a + j))
  let here (j : Nat) : Bool := match got with | some g => g.testBit (j / 4) | none => true
  (idx.map fun j => if at_ j = .ok && here j then s.fabric.get 0 (wrap48 (a + j)) else 0,
    idx.any fun j => at_ j == .unmapped, idx.any fun j => at_ j == .absent)

/-- Bytes written to the fabric where a target takes them (R17, R285, R286), by word under a timeout. -/
def State.writeFabric (s : State) (a : Nat) (bs : List Byte) (lost : List LostTarget) (got : Option Nat) :
    State × Bool × Bool :=
  let idx := bs.zipIdx
  let at_ (j : Nat) : Reach := s.reach lost (j / 4) (wrap48 (a + j))
  let here (j : Nat) : Bool := match got with | some g => g.testBit (j / 4) | none => true
  let m := idx.foldl (fun (m : SMap Byte) p =>
    if at_ p.2 = .ok && here p.2 then m.set 0 (wrap48 (a + p.2)) p.1 else m) s.fabric
  ({ s with fabric := m }, idx.any fun p => at_ p.2 == .unmapped, idx.any fun p => at_ p.2 == .absent)

/-- FABRIC_RANGE and GONE of one transfer (R17, R285). -/
def State.noteFabric (s : State) (range gone : Bool) : State :=
  let t := s.markIf range 14 1
  if gone then t.goneOnce else t

/-! ### Loads and stores -/

/-- The stored byte index of a byte of the hoop name space. -/
def State.nameKey (s : State) (d : Nat) : Nat := s.slabBase (d / 4096 / 16) (d / 4096 % 16) + d % 4096

/-- The bytes that an element of a load delivers. -/
def State.loadBytes (s : State) (x : LoadEl) : List Byte :=
  let lo := x.src / 8
  let n := (x.src % 8 + x.bits + 7) / 8
  let v := leNat ((List.range n).map fun (j : Nat) => s.fabric.get 0 (wrap48 (lo + j)))
  leBytes ((x.bits + 7) / 8) (v / 2 ^ (x.src % 8) % 2 ^ x.bits)

/-- Every byte of load element `i` is delivered by its target. -/
def State.loadReach (s : State) (lost : List LostTarget) (i : Nat) (x : LoadEl) : Bool :=
  s.present lost i (x.src / 8) ((x.src % 8 + x.bits + 7) / 8)

/-- Storage errors after a write of bytes of the hoops (log 10). -/
def clearWritten (s : State) (keys : List Nat) : List EccErr := soundBytes s.ecc .hoop fun a => keys.contains a

/-- A load or gather completes: each element in ascending order (R279); an element that did not arrive is
zero (R278, R285, R286). The bytes `both` take free values (R137). -/
def State.finishLoad (s : State) (els : List LoadEl) (zeros : List Nat) (range : Bool) (both : List Nat)
    (lost : List LostTarget) (got : Option Nat) : State :=
  let here (i : Nat) : Bool := match got with | some g => g.testBit i | none => true
  let data : List (Nat × List Byte) := (els.zipIdx).map fun p =>
    (p.1.dst, if s.loadReach lost p.2 p.1 && here p.2 then s.loadBytes p.1
      else List.replicate ((p.1.bits + 7) / 8) 0)
  let all := data ++ (zeros.map fun d => (d, [0#8])) ++
    both.zipIdx.map fun p => (p.1, [Config.freeClash s.freeCount p.2])
  let m := all.foldl (fun (m : SMap Byte) p => setBytes m (s.nameKey p.1) p.2) s.hoops
  let keys := if s.ecc.isEmpty then [] else
    all.flatMap fun p => (List.range p.2.length).map (s.nameKey p.1 + ·)
  ({ s with hoops := m, ecc := clearWritten s keys
            freeCount := s.freeCount + (if both.isEmpty then 0 else 1) } : State).noteFabric range
    (els.zipIdx.any fun p => !s.loadReach lost p.2 p.1)

/-- A store or scatter completes (R60, R278, R285, R286). -/
def State.finishStore (s : State) (els : List StoreEl) (range : Bool) (lost : List LostTarget) (got : Option Nat) :
    State :=
  let here (i : Nat) : Bool := match got with | some g => g.testBit i | none => true
  let ok (p : StoreEl × Nat) : Bool := s.present lost p.2 p.1.addr p.1.bytes.length
  let m := (els.zipIdx).foldl (fun (m : SMap Byte) p =>
    if ok p && here p.2 then setBytes m p.1.addr p.1.bytes else m) s.fabric
  ({ s with fabric := m } : State).noteFabric range (els.zipIdx.any fun p => !ok p)

/-! ### Ledger merges (R233, R263) -/

/-- A NaN of a merged entry is the canonical one (R263). -/
def canonE10 (w : Word) : Word := if (e10Value w.toNat).isNan then BitVec.ofNat 32 Fmt.e10m21.nanCode else w

/-- What a merge with an entry without contributions leaves: the other entry, its NaNs canonical (R263). -/
def LedgerEntry.canon (x : LedgerEntry) : LedgerEntry :=
  { x with sum := canonE10 x.sum, sumsq := canonE10 x.sumsq, max := canonE10 x.max }

/-- Two entries merged, the bank's on the left (R263); over ROW_LIMIT the entry is marked long (R233). -/
def mergeEntry (a b : LedgerEntry) : LedgerEntry × Bool :=
  if !b.nonempty then ({ (if a.nonempty then a.canon else a) with long := a.long || b.long }, false)
  else if !a.nonempty then ({ b.canon with long := a.long || b.long }, false)
  else
    let n := a.count.toNat + b.count.toNat + 2
    if n > Config.rowLimit then ({ a with long := true }, true)
    else
      let sum (x y : Word) : Word := BitVec.ofNat 32 (addLane .e10 x.toNat y.toNat).val
      ({ sum := sum a.sum b.sum, sumsq := sum a.sumsq b.sumsq
         max := BitVec.ofNat 32 (minMaxLane .e10 true 0 a.max.toNat b.max.toNat).val
         count := BitVec.ofNat 20 (n - 1), nonempty := true, long := a.long || b.long }, false)

/-- An entry from the words of a record (R262). -/
def LedgerEntry.ofWords (ws : List Word) : LedgerEntry :=
  let f := hdr ws 3
  { sum := hdr ws 0, sumsq := hdr ws 1, max := hdr ws 2, count := BitVec.ofNat 20 (bits f 19 0)
    nonempty := f.getLsbD 31, long := f.getLsbD 30 }

/-- LGLD of a record from entry `first` on (R233, R263). A merge that would take COLS above ROW_LIMIT marks the bank long,
and those of its entries that the record adds to; a record loaded into a bank that is not occupied is copied as it stands,
its COLS too (DESIGN CHOICE, log 56). -/
def State.mergeRecord (s : State) (first : Nat) (ws : List Word) : State :=
  let k := first / 128
  let b := s.bank k
  let n := 128 * (k + 1) - first
  let es := ((List.range n).zip ((cut 4 (ws.drop 16)).map LedgerEntry.ofWords))
  if hdr ws 0 ≠ 0x4C475231 || bits (hdr ws 1) 31 24 ≠ 1 then s.mark 7 10
  else if !b.occ then
    let t := es.foldl (fun (t : State) p => t.setEntry (first + p.1) p.2) s
    t.setBank k { b with band := hdr ws 2, occ := true, cols := bits (hdr ws 1) 20 0, long := (hdr ws 6).getLsbD 0
                         binding := bits (hdr ws 1) 23 21 }
  else if b.band ≠ hdr ws 2 then s.mark 7 10
  else
    let cols := b.cols + bits (hdr ws 1) 20 0
    if cols > Config.rowLimit then
      let t := es.foldl (fun (t : State) p =>
        if p.2.nonempty then t.setEntry (first + p.1) { t.entry (first + p.1) with long := true } else t) s
      (t.setBank k { b with long := true }).mark 7 4
    else
      let t := es.foldl (fun (t : State) p =>
        let m := mergeEntry (t.entry (first + p.1)) p.2
        (t.setEntry (first + p.1) m.1).markIf m.2 7 4) s
      t.setBank k { b with cols := cols, long := b.long || (hdr ws 6).getLsbD 0 }

/-! ### Completion -/

/-- Bytes of a ledger record from entry `first`. -/
def recordBytes (first : Nat) : Nat := 64 + 16 * (128 * (first / 128 + 1) - first)

/-- Bytes of a scale image (R187). -/
def imageBytes : Nat := 64 + 16 * Config.scaleSlots

/-- A transfer performed (R279) that lost the targets `lost`; under a timeout `got` says which elements were
(R278). -/
def State.perform (s : State) (op : XferOp) (lost : List LostTarget) (got : Option Nat) : State :=
  match op with
  | .load els zeros range both => s.finishLoad els zeros range both lost got
  | .store els range => s.finishStore els range lost got
  | .tbld _ _ _ => s
  | .scld a =>
    let r := s.readFabric a imageBytes lost got
    (s.slotErrs.noteFabric r.2.1 r.2.2).loadScale (bytesToWords r.1)
  | .scst a =>
    let t := s.slotErrs
    let r := t.writeFabric a (wordsToBytes t.scaleImage) lost got
    r.1.noteFabric r.2.1 r.2.2
  | .lgst first a =>
    let r := s.writeFabric a (wordsToBytes (s.ledgerRecord first)) lost got
    r.1.noteFabric r.2.1 r.2.2
  | .lgld first a =>
    let r := s.readFabric a (recordBytes first) lost got
    (s.noteFabric r.2.1 r.2.2).mergeRecord first (bytesToWords r.1)

/-- One fewer fabric transfer is outstanding for a WAIT of kind 0. -/
def Wait.countDown (w : Wait) : Wait :=
  match w.kind with
  | .fabric n => { w with kind := .fabric (n - 1) }
  | _ => w

/-- The oldest transfer leaves the outstanding ones (R114, R279). -/
def State.popXfer (s : State) : State :=
  let t := { s with xfers := s.xfers.tail }
  (t.modIssue fun u => { u with wait := u.wait.map Wait.countDown }).modRun fun r =>
    { r with wait := r.wait.map Wait.countDown }

/-- A load: its data is discarded when it is abandoned (R341, R390). -/
def XferOp.isLoad : XferOp → Bool
  | .store _ _ => false
  | .scst _ => false
  | .lgst _ _ => false
  | _ => true

/-- The M slot hands a load: LD, GATHER, TBLD, SCLD or LGLD. -/
def handsLoad (m : MSlot) : Bool := [1, 3, 13, 15, 18].contains m.major.toNat

/-- A load that an aborted bundle handed, the latest of all transfers, does not complete before the bundle has executed
again, which reads the same operands, scale slots and tables (R326). -/
def State.heldByRetry (s : State) (x : Xfer) : Bool :=
  match s.issue.retry with
  | some r => r.handed && handsLoad r.bundle.m && x.op.isLoad && s.xfers.getLast? == some x
  | none => false

/-- The words of a table image taken into a LOADING leaf. -/
def State.takeImage (s : State) (i : Nat) (b : Bool) (ws : List Word) : State :=
  let x := s.mslot i
  let l := x.leaf b
  if x.isNoLeaf || l.state ≠ .loading then s
  else
    let im := (ws.zipIdx).foldr (fun (p : Word × Nat) (m : SMap Word) => if p.1 = 0 then m else (p.2, p.1) :: m) []
    ({ s with ecc := s.ecc.filter fun e =>
      !(e.target == .leaf && e.word / 1096 == 2 * i + (if b then 1 else 0)) } : State).setMslot i
      (x.setLeaf b { l with image := im })

/-- The oldest fabric transfer completes, or its table image arrives for the check; darning pauses the writes of a
leaf (R373). -/
def State.transferDone (s : State) (got : Option Nat) : State :=
  match s.xfers with
  | [] => s
  | x :: xs =>
    let leaf : Bool := match x.op with | .tbld .. => true | _ => false
    if s.heldByRetry x || x.arrived || (leaf && s.darningNow) then s
    else
      let t := s.markIf got.isSome 14 3
      match x.op with
      | .tbld i b a =>
        let r := t.readFabric a (4 * Config.leafWords) x.lost got
        let u := (t.noteFabric r.2.1 r.2.2).takeImage i b (bytesToWords r.1)
        { u with xfers := { x with arrived := true } :: xs }
      | op => (t.perform op x.lost got).popXfer

/-! ### Tables -/

/-- A TBLD completes: its leaf is CHECKED and measured, or BAD (R211, R212, R215). -/
def State.tbldDone (s : State) : State :=
  match s.xfers with
  | { op := .tbld i b _, arrived := true, .. } :: _ =>
    if s.darningNow then s
    else
      let t := s.popXfer
      let x := t.mslot i
      let l := x.leaf b
      if x.isNoLeaf || l.state ≠ .loading then t
      else
        let why := l.loadReason i
        if why = 0 then
          let n := t.motif.loadSeq + 1
          let u := t.setMslot i (x.setLeaf b { l with state := .checked, tag := l.word 12, seq := n })
          ({ u with motif := { u.motif with loadSeq := n } } : State).measRequest (.leaf (BitVec.ofNat 4 i) b)
        else (t.leafVerdict i b false (BitVec.ofNat 4 why)).mark 4 1
  | _ => s

/-- A verdict on what is awaited (R212, R242, R383); any other is discarded. Verdicts come in the order of their streams:
the first on a target whose measurement was cancelled after its stream had gone out is that one's (DEDUCED, log 35). -/
def State.verdict (s : State) (t : MeasTarget) (good : Bool) (reason : BitVec 4) : State :=
  if s.keys.stale.contains t then { s with keys := { s.keys with stale := s.keys.stale.erase t } }
  else if !s.keys.awaiting.contains t then s
  else
    let u := { s with keys := { s.keys with awaiting := s.keys.awaiting.erase t } }
    match t with
    | .leaf i b =>
      if ((u.mslot i.toNat).leaf b).state = .checked then u.leafVerdict i.toNat b good reason else u
    | .store =>
      { u with edging := { u.edging with verdict := if good then .favourable else .unfavourable } }

/-- A verdict that did not come in time is unfavourable (R383); of a cancelled measurement nothing is expected any
more. -/
def State.verdictTimeout (s : State) (t : MeasTarget) : State :=
  if s.keys.stale.contains t then { s with keys := { s.keys with stale := s.keys.stale.erase t } }
  else if s.keys.awaiting.contains t then (s.verdict t false 8).mark 13 4 else s

/-- A measurement stream has gone out (R383). -/
def State.streamEnd (s : State) : State :=
  match s.keys.sending with
  | none => s
  | some t =>
    ({ s with keys := { s.keys with sending := none, awaiting := s.keys.awaiting ++ [t] }
              outbox := s.outbox ++ [.measurement t (s.measureWords t)] } : State).measNext

/-- A pending swap takes effect when its leaf is READY, no repair holds the slot and no aborted bundle is to read its
tables again (R213, R326, R373). -/
def State.swapNow (s : State) (i : Nat) : State :=
  if s.repairing i || !s.executes || s.issue.retry.isSome then s else s.doSwap i

end Sys2Proof.Machine
end

