-- ==== Sys2Proof/Machine/Edging.lean ====
section
/-!
DEFINITION. Edging: arming (R242, R439, R446), triggers (R245 to R247), the context of a run (R248, R249),
its end (R254, R255), the fold (R256 to R261), completion runs (R260), the statistics record (R262) and the
operand masks (R264).
-/

namespace Sys2Proof.Machine

/-! ### Arming -/

/-- A bundle that no edging program may hold (R242). -/
def forbiddenInEdging (b : Bundle) : Bool :=
  b.v1.major == 14 || b.s.major == 0x1C || b.s.major == 0x1D || b.s.major == 0x1E ||
    (b.s.major == 0x1A && b.s.imm.toNat / 256 == 2)

/-- The bundles of a program in the edging store. -/
def State.program (s : State) (first len : Nat) : List Bundle :=
  (List.range len).map fun i => Bundle.ofStore s.estore (first + i)

/-- The reason for which arming binding `b` is refused, 0 for none (R242, R437, R446). `w0` is B_CTL. -/
def State.armReason (s : State) (b : Nat) (w0 : Word) : Nat :=
  let prog := s.bindWord b 1
  let tap := s.bindWord b 2
  let rowlen := bits (s.bindWord b 3) 20 0
  let (entry, len, centry, clen) := (bits prog 31 24, bits prog 22 16, bits prog 15 8, bits prog 6 0)
  let mode := bits w0 27 26
  let hold := (List.range 6).filter fun h => tap.getLsbD (8 + h)
  let others := (List.range 8).filter fun j => j != b && s.armed j
  let held (h : Nat) : Bool := others.any fun j => (s.bindWord j 2).getLsbD (8 + h)
  let ps := [s.program entry len, s.program centry clen]
  if len = 0 || len > Config.edgingMax || entry + len > Config.edgingBundles || clen > Config.edgingMax ||
      (clen ≠ 0 && centry + clen > Config.edgingBundles) then 1
  else if ps.any fun p => p.any forbiddenInEdging then 2
  else if ps.any fun p => (p.filter Bundle.heavy).length > 1 then 3
  else if (mode = 2 && (hold.isEmpty || hold.length > 4 || hold.any fun h => !s.hoopPresent h)) ||
      (s.net.rxEn && hold.contains s.net.rxHoop.toNat) then 4
  else if mode = 2 && (hold.any held || held (bits tap 18 16)) then 5
  else if mode ≠ 0 && (rowlen < 128 || rowlen > Config.rowLimit || rowlen % 128 ≠ 0) then 6
  else if bits w0 29 28 > 1 || mode = 3 || bits tap 23 20 > 8 || bits tap 30 28 > 5 || bits tap 18 16 > 5 ||
      bits tap 6 4 > 5 || tap.getLsbD 7 then 7
  else if s.edging.verdict ≠ .favourable then 8
  else 0

def State.bindRep (s : State) (b : Nat) : BindRep := s.edging.binds[b]?.getD BindRep.reset

def State.setBindRep (s : State) (b : Nat) (x : BindRep) : State :=
  { s with edging := { s.edging with binds := s.edging.binds.setIfInBounds b x } }

/-- A B_CTL write (R242, R439). -/
def State.writeBCtl (s : State) (b : Nat) (v : Word) : State :=
  let w := v &&& 0xFF7FFFFF#32
  let off := 0x100 + 64 * b
  if !w.getLsbD 31 then s.setReg 7 off w
  else if s.armed b then s.storeBusy 7
  else
    let why := s.armReason b w
    if why ≠ 0 then
      let t := s.setReg 7 off (w &&& 0x7FFFFFFF#32)
      { t with edging := { t.edging with armReason := why, armBinding := b } }
    else
      let t := s.setReg 7 off w
      t.setBindRep b { t.bindRep b with holdCap := t.holdCap b, status := .noRun }

/-! ### Triggers -/

def tagBand (t : Word) : Nat := bits t 30 16
def tagCol (t : Word) : Nat := bits t 15 0

/-- The lowest armed binding of a KIND whose MATCH is the stream (R245). -/
def State.matchBinding (s : State) (kind stream : Nat) : Option Nat :=
  (List.range 8).find? fun b =>
    s.armed b && bits (s.bindWord b 0) 29 28 == kind && bits (s.bindWord b 0) 15 0 == stream

/-- An event enters the trigger queue. -/
def State.addTrigger (s : State) (t : Trigger) : State :=
  { s with edging := { s.edging with trig := s.edging.trig ++ [t] } }

/-- How a completed tile comes (R273, R274). -/
def State.tileUse (s : State) : TileUse :=
  if s.directPort then .direct else if s.partner.coupling.queueUse then .program else .edging

/-- Completion events are accepted: the engine runs, its matrix engine is present and bound, no coupling
change is held, and the tile's place has room, as has the trigger queue for a tile whose event enters it (R246, R271,
R273, R274, R397). A tile of the queue in edging use is taken together with its event (DEDUCED, log 25). -/
def State.takesTile (s : State) : Bool :=
  let queued := (s.edging.tiles.filter fun x => x.use != .direct).length
  s.works && s.meUp && s.partner.couplingHeld.isNone &&
    (match s.tileUse with
      | .direct => s.edging.trig.length < 16 && (s.edging.tiles.filter fun x => x.use == .direct).length < 2
      | .edging => s.edging.trig.length < 16 && queued < 8
      | .program => queued < 8)

/-- A tile-completion event (R245, R247, R274). -/
def State.tileCompletion (s : State) (tag : Word) (stream : BitVec 16) (data : List (Nat × Word)) : State :=
  if !s.takesTile then s
  else
    let m := data.foldl (fun (m : SMap Word) p => if p.1 < 16384 then m.set 0 p.1 p.2 else m) []
    let t := { s with edging := { s.edging with
      tiles := s.edging.tiles ++ [{ use := s.tileUse, tag := tag, stream := stream, data := m, popped := 0 }] } }
    if s.tileUse = .program then t
    else
      match (if s.trouble.engineDown then none else s.matchBinding 0 stream.toNat) with
      | some b => t.addTrigger ⟨b, false, tag, 0⟩
      | none => ({ s with outbox := s.outbox ++ [.tileRelease tag] } : State).mark 7 0

/-! ### Runs -/

/-- S4 of R249. -/
def State.tileOrigin (s : State) (b : Nat) (band col : Nat) : BitVec 48 :=
  let tbase : BitVec 48 := (s.bindWord b 6).truncate 16 ++ s.bindWord b 5
  tbase + BitVec.ofNat 48 (band * 128 * (s.bindWord b 7).toNat + col * 128)

/-- The fresh context of a run (R248). -/
def State.runCtx (s : State) (b : Nat) (tag : Word) (src : BitVec 64) (pos : Nat) (origin : BitVec 48) : Ctx :=
  let pitch := s.bindWord b 7
  let c := (((((Ctx.reset.setS 1 (tag.zeroExtend 64)).setS 2 src).setS 3 (BitVec.ofNat 64 pos)).setS 4
    (origin.zeroExtend 64)).setS 5 (pitch.zeroExtend 64)).setDesc 0 (s.ctx.descAt (bits (s.bindWord b 0) 19 16))
  { c with tid := BitVec.ofNat 16 (bits (s.bindWord b 4) 15 0), base := origin, twPitch := pitch }

/-- No run is active and one may start at a bundle boundary (R247, R332): not before a release that waits for the end of
a run has taken effect (R440). Under ENGINE_DOWN no run starts; completion runs that are still owed then, of which R45
and R247 say nothing, wait with their bank occupied until a reset (DESIGN CHOICE, log 56). -/
def State.runFree (s : State) : Bool :=
  s.executes && !s.darningDue && s.edging.run.isNone && !s.trouble.engineDown &&
    !((List.range 2).any fun k => (s.bank k).releaseDue)

/-- A run starts from the head of the trigger queue (R247). -/
def State.runStart (s : State) : State :=
  match s.edging.trig with
  | ev :: rest =>
    if !s.runFree || s.edging.compl.isSome then s
    else
      let b := ev.binding
      let prog := s.bindWord b 1
      let r : Run :=
        { binding := b, arrival := ev.arrival, tag := ev.tag, src := ev.src, completion := false, pos := tagCol ev.tag
          first := bits prog 31 24, len := bits prog 22 16, pc := bits prog 31 24
          ctx := s.runCtx b ev.tag ev.src (tagCol ev.tag) (s.tileOrigin b (tagBand ev.tag) (tagCol ev.tag))
          wait := none, ended := none, abortAt := 0 }
      { s with edging := { s.edging with trig := rest, run := some r } }
  | [] => s

/-- A completion run starts for the next position (R260), under the conditions of `State.runFree` (log 56). -/
def State.completionStart (s : State) : State :=
  match s.edging.compl with
  | some { binding := b, tag := tag, src := src, bank := _, left := p :: _ } =>
    if !s.runFree then s
    else
      let prog := s.bindWord b 1
      let r : Run :=
        { binding := b, arrival := false, tag := tag, src := src, completion := true, pos := p
          first := bits prog 15 8, len := bits prog 6 0, pc := bits prog 15 8
          ctx := s.runCtx b tag src p (s.tileOrigin b (tagBand tag) p), wait := none, ended := none, abortAt := 0 }
      { s with edging := { s.edging with run := some r } }
  | _ => s

/-- A run over its budget aborts (R255). -/
def State.overrun (s : State) : State :=
  match s.edging.run with
  | some r =>
    if r.ended.isNone || r.ended = some .ok then
      let t := s.modRun fun r => { r with ended := some .overrun, abortAt := r.pc, wait := none }
      match t.issue.retry with
      | some q => if q.stream = .edge then t.retryOver else t
      | none => t
    else s
  | none => s

/-! ### The fold -/

/-- The three statistics of one row, continued from an entry (R153, R155, R223, R258). An integer TAPFMT, which R242
admits, is rounded to E10M21 by RNE like any value that enters the format, with its raises (DESIGN CHOICE, log 53). -/
def foldRow (f : Fmt) (x : LedgerEntry) (act : List Bool) (codes : List Nat) : Res LedgerEntry × Bool :=
  let n := (act.filter id).length
  if n = 0 then (.pure x, false)
  else
    let total := n + (if x.nonempty then x.count.toNat + 1 else 0)
    if total > Config.rowLimit then (.pure { x with long := true }, true)
    else
      let loaded := (act.zip codes).map fun p => if p.1 then some (loadLane .e10 f p.2) else none
      let items := loaded.map fun o => o.map (·.val)
      let squares := items.map fun o => o.map fun l => (mulLane .e10 l l).map fun c => (⟨c, false⟩ : Lane)
      let carry (w : Word) : Option Lane := if x.nonempty then some ⟨w.toNat, false⟩ else none
      let sum := reduceSegment (nodeEval .e10 .add) (carry x.sum) items
      let sq := reduceSegment (nodeEval .e10 .add) (carry x.sumsq) (squares.map fun o => o.map (·.val))
      let mx := reduceSegment (nodeEval .e10 .max) (carry x.max) items
      let word (o : Option Lane) : Word := BitVec.ofNat 32 ((o.map (·.code)).getD 0)
      let r := (((raisesOf (loaded.filterMap id)).add (raisesOf (squares.filterMap id))).add sum.r).add (sq.r.add mx.r)
      (⟨{ sum := word sum.val, sumsq := word sq.val, max := word mx.val, count := BitVec.ofNat 20 (total - 1)
          nonempty := true, long := x.long }, r⟩, false)

/-- The slabs of a binding's tap run (R258), or why it cannot be read. -/
def State.tapRun (s : State) (b pos : Nat) : Except RunStatus (List (Nat × Nat)) :=
  let tap := s.bindWord b 2
  let h := bits tap 30 28
  let k := bits tap 27 24
  let n := s.tileSlabs (tapBytes tap)
  let one := s.resolveHold b pos h k
  let hoop := (one.map (·.1)).getD h
  if one.isNone then .error .illegal
  else if !s.hoopPresent hoop then .error .hoopGone
  else if n = 0 || k + n > 16 then .error .illegal
  else
    let l := (List.range n).map fun j => s.resolveHold b pos h (k + j)
    if l.any fun x => x.isNone then .error .illegal else .ok (l.filterMap id)

/-- The drop can be written (R260). -/
def State.dropOk (s : State) (b : Nat) : Except RunStatus Unit :=
  let o := Opnd.of (BitVec.ofNat 8 (bits (s.bindWord b 2) 7 0))
  let v := s.vlmaxAt 4
  let n := if v = 0 then 17 else (512 + v - 1) / v
  if !s.hoopPresent o.h then .error .hoopGone else if o.k + n > 16 then .error .illegal else .ok ()

/-- The ledger drop (R224, R260). -/
def State.writeDrop (s : State) (b bank : Nat) : State :=
  let es := (List.range 128).map fun r => s.entry (128 * bank + r)
  let pick (f : LedgerEntry → Word) (d : Nat) : List (Option Nat) :=
    es.map fun x => some (if x.nonempty then (f x).toNat else d)
  writeTo s s .main (BitVec.ofNat 8 (bits (s.bindWord b 2) 7 0)) 4
    (pick (·.sum) 0x80000000 ++ pick (·.sumsq) 0x80000000 ++ pick (·.max) 0xFFDFFFFF ++
      pick (fun x => BitVec.ofNat 32 (x.count.toNat + 1)) 0)

/-- Every entry of a bank changed. -/
def State.mapBank (s : State) (k : Nat) (f : LedgerEntry → LedgerEntry) : State :=
  (List.range 128).foldl (fun (t : State) r => t.setEntry (128 * k + r) (f (t.entry (128 * k + r)))) s

/-- The storage errors that the fold's reads of the tap run find, in ascending hoop, slab and word (R70, R258, R372),
each with whether the word holds a byte of an active element. -/
def State.tapErrs (s : State) (b : Nat) (slabs : List (Nat × Nat)) : List (EccErr × Bool) :=
  let w := tapBytes (s.bindWord b 2)
  let rows := s.rowsPerSlab w
  let mask := s.mask (bits (s.bindWord b 0) 22 20)
  (sortErrs EccErr.word (s.ecc.filter fun x => x.target == .hoop)).filterMap fun x =>
    let els (j : Nat) : List Nat :=
      ((List.range (8 / w)).map (8 / w * (x.word % 512) + ·)).filter fun i =>
        i < rows * 128 && j * rows + i / 128 < 128
    let hits := (slabs.zipIdx).flatMap fun p =>
      if p.1.1 * 17 + s.physSlab p.1.1 p.1.2 = x.word / 512 then els p.2 else []
    if hits.isEmpty then none else some (x, hits.any fun i => mask.getLsbD i)

/-- The rows of a tile folded into the bank (R258). -/
def State.foldRows (s : State) (b k : Nat) (slabs : List (Nat × Nat)) : State :=
  let tap := s.bindWord b 2
  let w := tapBytes tap
  let f := fmtOf (BitVec.ofNat 4 (bits tap 23 20))
  let rows := s.rowsPerSlab w
  let mask := s.mask (bits (s.bindWord b 0) 22 20)
  (List.range 128).foldl (fun (t : State) r =>
    match slabs[r / rows]? with
    | some (h, sl) =>
      let lo := r % rows * 128
      let codes := (cut w (((s.slabBytes h sl ((lo + 128) * w))).drop (lo * w))).map leNat
      let act := (List.range 128).map fun c => mask.getLsbD (lo + c)
      let y := foldRow f (t.entry (128 * k + r)) act codes
      ((t.setEntry (128 * k + r) y.1.val).markIf y.2 7 4).raise (bits (s.bindWord b 0) 25 24) y.1.r
    | none => t) s

/-- The statistics record emitted to the main program's D(RDESC), post-incremented (R260, R262). -/
def State.emitRecord (s : State) (b k : Nat) : State :=
  let n := bits (s.bindWord b 0) 19 16
  let d := s.ctx.descAt n
  let x : Xfer := { stream := .edge, index := 0, count := 0, op := storeWords d.base.toNat (s.ledgerRecord (128 * k)), slabs := []
                    arrived := false, lost := s.absentNow }
  { s with xfers := s.xfers ++ [x], ctx := s.ctx.setDesc n d.post }

/-- A bank released (R260, R440). -/
def State.clearOcc (s : State) (k : Nat) : State := s.setBank k { s.bank k with occ := false }

/-- A band completed: the drop, then the completion runs or the record (R260). Its positions count as held where the
binding has MODE 2 and ROWLEN within its HOLD_CAP, wherever their columns came from (DESIGN CHOICE, log 56). -/
def State.bandDone (s : State) (b k : Nat) (tag : Word) (src : BitVec 64) : State :=
  let t := s.writeDrop b k
  let clen := bits (t.bindWord b 1) 6 0
  let held := t.bindMode b = 2 && t.rowLen b ≤ 128 * t.holdCap b
  let u := if held then t else t.emitRecord b k
  let left := if clen = 0 then [] else if held then List.range (t.rowLen b / 128) else [0]
  if left.isEmpty then u.clearOcc k
  else { u with edging := { u.edging with compl := some ⟨b, tag, src, k, left⟩ } }

/-- The fold of a run that ended normally (R258 to R261): its status and the state after it. An uncorrectable word
with an active element of the tap run is treated as one that a bundle of the run reads: the fold is not applied and
the run is STOPPED, and such a word sets HOOP_UE (R72, R255; DEDUCED, log 10). The tap run is tested before the bank
(R258, R259; DESIGN CHOICE, log 56). -/
def State.fold (s : State) (r : Run) : RunStatus × State :=
  let b := r.binding
  let col := tagCol r.tag
  let band := BitVec.ofNat 32 (tagBand r.tag)
  let last := r.tag.getLsbD 31
  let k := tagBand r.tag % 2
  match s.tapRun b r.pos with
  | .error why => (why, s)
  | .ok slabs =>
    let x := s.bank k
    let cols := if x.occ then x.cols else 0
    if !x.occ && col ≠ 0 then (.rowOrder, s)
    else if x.occ && x.band ≠ band then (.bankBusy, s)
    else if x.occ && col * 128 ≠ x.cols then (.rowOrder, s)
    else if cols + 128 > Config.rowLimit then
      (.rowLong, (s.mapBank k fun y => { y with long := true }).setBank k { x with long := true })
    else if x.occ && x.long && last then (.rowLong, s)
    else
      let len := s.rowLen b
      match (if cols + 128 = len then s.dropOk b else .ok ()) with
      | .error why => (why, s)
      | .ok _ =>
        let es := s.tapErrs b slabs
        let s := (es.foldl (fun (t : State) p => t.hoopErr p.1) s).markIf (es.any fun p => p.1.hard) 14 4
        if es.any fun p => p.1.hard && p.2 then (.stopped, s)
        else
        let t :=
          if x.occ then s
          else (s.mapBank k fun _ => LedgerEntry.reset).setBank k
            { band := band, occ := true, cols := 0, long := false, binding := b, releaseDue := x.releaseDue }
        let u := t.foldRows b k slabs
        let v := u.setBank k { u.bank k with cols := cols + 128 }
        if cols + 128 = len then (.rowDone, v.bandDone b k r.tag r.src)
        else if last && cols + 128 < len then (.rowOpen, v)
        else (.ok, v)

/-! ### The end of a run -/

/-- The sticky bit of a status (R437). -/
def statusBit : RunStatus → Option Nat
  | .rowOpen => some 1
  | .rowOrder => some 2
  | .bankBusy => some 3
  | .rowLong => some 4
  | .illegal => some 5
  | .hoopGone => some 6
  | .gone => some 7
  | .overrun => some 8
  | .stopped => some 9
  | _ => none

/-- A run's status recorded (R255). -/
def State.recordRun (s : State) (r : Run) (st : RunStatus) : State :=
  let abort := r.ended ≠ some .ok
  let t := s.setBindRep r.binding
    { s.bindRep r.binding with status := st, bundle := if abort then r.abortAt else 0, lastTag := r.tag }
  match statusBit st with
  | some b => t.mark 7 b
  | none => t

/-- The active run is removed; SD of its picots still under way is discarded with its context. -/
def State.dropRun (s : State) : State :=
  let t := { s with edging := { s.edging with run := none } }
  t.modIssue fun u => { u with posts := u.posts.map fun p => if p.stream = .edge then { p with sd := 0 } else p }

/-- A completion run ended: the next position, or the bank is released (R260). -/
def State.nextCompletion (s : State) : State :=
  match s.edging.compl with
  | some c =>
    match c.left.tail with
    | [] => ({ s with edging := { s.edging with compl := none } } : State).clearOcc c.bank
    | l => { s with edging := { s.edging with compl := some { c with left := l } } }
  | none => s

/-- The run's transfers have completed (R254, R255). -/
def State.runDrained (s : State) : Bool :=
  s.xfers.all (fun x => x.stream != .edge) && s.net.outQ.all fun o => o.mirror || o.stream != .edge

/-- A run that has ended is recorded, folded and its tile released (R254, R255). While a bundle waits for its
re-execution the run stays: a bundle of its own reads its context again, and the fold writes what any bundle may read
(R326; DEDUCED, log 16). -/
def State.runEnd (s : State) : State :=
  match s.edging.run with
  | some r =>
    match r.ended with
    | none => s
    | some st =>
      if !s.runDrained || s.issue.retry.isSome then s
      else
        let (st', t) :=
          if st = .ok && !r.completion && s.bindMode r.binding ≠ 0 then s.fold r else (st, s)
        let u := (t.recordRun r st').dropRun
        if r.completion then u.nextCompletion else if r.arrival then u else u.releaseTile
  | none => s

/-! ### Ledger release -/

/-- A requested release takes effect when no run is active (R440). -/
def State.ledgerRelease (s : State) (k : Nat) : State :=
  let x := s.bank k
  if x.releaseDue && s.edging.run.isNone then
    (s.mapBank k fun _ => LedgerEntry.reset).setBank k
      { x with occ := false, long := false, cols := 0, releaseDue := false }
  else s

/-! ### Operand masks (R264) -/

/-- The slab of the window that holds the STORED row of a request. -/
def State.windowSlab (s : State) (m : BitVec 2) (row : Word) : Nat × Nat :=
  let ctl := s.reg 7 0x040
  (bits ctl 14 12, (bits ctl 11 8 + 4 * m.toNat + row.toNat % 128 / 32) % 16)

/-- The storage errors that the read of a STORED row finds (R70, R264). -/
def State.rowErrs (s : State) (m : BitVec 2) (row : Word) : List EccErr :=
  let (h, k) := s.windowSlab m row
  if (s.reg 7 0x040).getLsbD 0 then
    sortErrs EccErr.word (s.ecc.filter fun x => x.target == .hoop && x.word / 512 == h * 17 + s.physSlab h k &&
      x.word % 512 / 2 == row.toNat % 32)
  else []

/-- The 16 bytes of a STORED row. A word with an uncorrectable error gives free values, since no rule says what the
port delivers for it (R264; DESIGN CHOICE, log 15). -/
def State.storedRow (s : State) (m : BitVec 2) (row : Word) : List Byte :=
  let (h, k) := s.windowSlab m row
  let bad := ((s.rowErrs m row).filter EccErr.hard).map fun x => x.word % 2
  ((((s.slabBytes h k 512).drop (16 * (row.toNat % 32))).take 16).zipIdx).map fun p =>
    if bad.contains (p.2 / 8) then Config.freeClash s.freeCount p.2 else p.1

/-- The keep row of a request. -/
def State.keepRow (s : State) (m : BitVec 2) (row col : Word) : BitVec 128 :=
  let ctl := s.reg 7 0x040
  let drop := s.reg 7 0x048
  let pitch := (s.reg 7 0x04C).toNat
  let stored := leNat (s.storedRow m row)
  let ofs := (s.reg 7 0x044).toInt
  let bit (c : Nat) : Bool :=
    (!ctl.getLsbD 0 || stored.testBit c) &&
      (!ctl.getLsbD 1 || decide ((col.toNat + c : Int) ≤ row.toNat + ofs)) &&
      (!ctl.getLsbD 2 || decide ((Sys2Proof.Machine.twist s.twist.s0 s.twist.s1 s.twist.step (BitVec.ofNat 16 (bits drop 15 0))
        (BitVec.ofNat 48 (row.toNat * pitch + col.toNat + c))).toNat < bits drop 31 16))
  BitVec.ofNat 128 (((List.range 128).filter bit).foldl (fun a c => a + 2 ^ c) 0)

/-- A mask request answered (R264): one of the own matrix engine, whose port it is (R22), while it is bound (R285). The
errors that its read finds are corrected and counted, or recorded (R70,
R73). -/
def State.maskRequest (s : State) (m : BitVec 2) (row col : Word) : State :=
  if s.executes && s.partner.coupling.meSrc == 0xFE#8 then
    let es := s.rowErrs m row
    let t := es.foldl State.hoopErr s
    { t with maskOut := some (s.keepRow m row col)
             freeCount := if es.any EccErr.hard then t.freeCount + 1 else t.freeCount }
  else s

end Sys2Proof.Machine
end

