-- ==== Sys2Proof/Machine/Mirror.lean ====
section
/-!
DEFINITION. The mirror: region tables (R342, R343, R448), the stream and its operations (R344 to R349, R352,
R357, R449), the receiver's log and image (R350 to R353, R357), and folds (R353).
-/

namespace Sys2Proof.Machine

/-! ### Life of the engine -/

/-- REST3, or a transition into it (R397). -/
def State.dark (s : State) : Bool := s.rest == .rest3 || s.transit == some .rest3

/-- Powered, in no session-ending reset, and not in REST3. -/
def State.up (s : State) : Bool := s.powered && s.resetting.isNone && !s.dark

/-! ### Regions -/

/-- A region entry (R342). -/
structure Region where
  base : Nat
  bytes : Nat
  role : Nat
  tid : Nat
  coord0 : Nat
  par : Bool
  flush : Bool
  inbase : Bool
deriving DecidableEq, Repr

/-- The offset of a region entry on the MIRROR page (R447). -/
def regionOff (img : Bool) (i : Nat) : Nat := (if img then 0x600 else 0x400) + 32 * i

/-- Entry `i` of the IMG or the OWN table (R448). -/
def State.region (s : State) (img : Bool) (i : Nat) : Region :=
  let o := regionOff img i
  let c := s.reg 10 (o + 4)
  { base := (s.reg 10 o).toNat + bits c 15 0 * 2 ^ 32, bytes := (s.reg 10 (o + 8)).toNat, role := bits c 31 28
    tid := bits (s.reg 10 (o + 12)) 15 0
    coord0 := (s.reg 10 (o + 16)).toNat + bits (s.reg 10 (o + 20)) 15 0 * 2 ^ 32
    par := c.getLsbD 16, flush := c.getLsbD 17, inbase := c.getLsbD 18 }

/-- The OWN ROLE 4 entries. -/
def State.pairs (s : State) : List (Nat × Region) :=
  ((List.range 16).map fun i => (i, s.region false i)).filter fun p => p.2.role == 4

/-- The OWN ROLE 4 entries are none, or one pair of equal BYTES (R343, R449). -/
def State.pairsOk (s : State) : Bool :=
  match s.pairs with
  | [] => true
  | [a, b] => a.2.par != b.2.par && a.2.bytes == b.2.bytes
  | _ => false

/-- The OWN regions that an operation sends, in ascending index; of a ROLE 4 pair the half with PAR `par`, at
the PAR 0 entry's index (R343, R347, R352). -/
def State.ownTodo (s : State) (pick : Region → Bool) (par : Bool) : List RegionTodo :=
  (List.range 16).filterMap fun i =>
    let r := s.region false i
    let h := if r.role = 4 then ((s.pairs.find? fun p => p.2.par == par).map (·.2)).getD r else r
    if r.role = 0 || (r.role = 4 && r.par) || !pick h || h.bytes = 0 then none
    else some ⟨i, h.role, h.base, h.bytes, 0, false⟩

/-! ### Log halves -/

def State.half (s : State) (p : Nat) : LogHalf := s.mirror.halves[p]?.getD LogHalf.reset

def State.modMirror (s : State) (f : MirrorUnit → MirrorUnit) : State := { s with mirror := f s.mirror }

def State.setHalf (s : State) (p : Nat) (h : LogHalf) : State :=
  s.modMirror fun m => { m with halves := m.halves.setIfInBounds p h }

/-- LOG_BASE of a half. -/
def State.logBase (s : State) (p : Nat) : Nat :=
  (s.reg 10 (0x054 + 8 * p)).toNat + bits (s.reg 10 (0x058 + 8 * p)) 15 0 * 2 ^ 32

/-- Bytes of a log entry (R351). -/
def logEntry : Nat := 4160

/-- The OPEN half of the latest step. -/
def State.openHalf (s : State) : Option Nat :=
  let o (p : Nat) : Bool := (s.half p).state == .isOpen
  if o 0 && o 1 then some (if (s.half 0).step.toNat < (s.half 1).step.toNat then 1 else 0)
  else if o 0 then some 0 else if o 1 then some 1 else none

/-- The half in a state, of two the one of the earlier step. -/
def State.oldHalf (s : State) (x : HalfState) : Option Nat :=
  let o (p : Nat) : Bool := (s.half p).state == x
  if o 0 && o 1 then some (if (s.half 0).step.toNat < (s.half 1).step.toNat then 0 else 1)
  else if o 0 then some 0 else if o 1 then some 1 else none

/-- The OPEN half of the earliest step, which a fold request names (R353). -/
def State.staleHalf (s : State) : Option Nat := s.oldHalf .isOpen

/-- Record `k` of a half, as read from memory: header words and payload. -/
def State.readLog (s : State) (base k : Nat) : List Word × List Byte × Bool × Bool :=
  let r := s.readFabric (wrap48 (base + logEntry * k)) logEntry [] none
  (bytesToWords (r.1.take 64), r.1.drop 64, r.2.1, r.2.2)

def hdrMkind (h : List Word) : Nat := bits (hdr h 5) 31 28
def hdrRole (h : List Word) : Nat := bits (hdr h 5) 27 24
def hdrRegion (h : List Word) : Nat := bits (hdr h 11) 3 0
def hdrPos (h : List Word) : Nat := (hdr h 12).toNat + bits (hdr h 13) 15 0 * 2 ^ 32

/-! ### Sending -/

/-- A mirror record handed to the port: DST, RCOUNT and MSEQ are entered, MSEQ and RCOUNT rise (R296, R346), and the
record awaits its acknowledgement (R349) or is discarded (R285, R379). -/
def State.handMirror (s : State) (r : MirrorRec) : State :=
  if !s.buddyUp then s.mirrorDiscard 1
  else
    let m := s.mirror.mseq
    let dst := addrWord s.partner.buddyId s.wz s.mirrorStream
    let h := (((r.hdr.set 3 (dst.truncate 32)).set 4 ((dst >>> 32).truncate 32)).set 8 s.net.rcount).set 10 m
    let t : State :=
      { s with mirror := { s.mirror with mseq := m + 1 }, net := { s.net with rcount := s.net.rcount + 1 } }
    let u := t.sendRecord h r.body .main 0
    if u.net.outQ.length > t.net.outQ.length then u.modMirror fun x => { x with unacked := x.unacked ++ [m] } else u

/-- The next region record of the operation that runs, read from memory as it is reached, enters the mirror queue
(R347, R348, R352, R357). -/
def State.nextRegion (s : State) (op : MirrorOp) (d : RegionTodo) (rest : List RegionTodo) : State :=
  let mkind : Nat := match op with | .flush => 2 | .baseCopy => 4 | _ => 6
  let mk (role region pos : Nat) (body : List Byte) : MirrorRec :=
    s.mirrorRec mkind role 0 0 (BitVec.ofNat 32 region) (BitVec.ofNat 48 pos) 0 0 body
  if d.logged then
    match ((List.range d.bytes).filter fun k => d.offset ≤ k && hdrMkind (s.readLog d.base k).1 == 2).head? with
    | none => s.modMirror fun u => { u with todo := rest }
    | some k =>
      let (h, body, range, gone) := s.readLog d.base k
      let t := (s.noteFabric range gone).modMirror fun u =>
        { u with todo := { d with offset := k + 1 } :: rest, sent := u.sent + 1 }
      t.mirrorPush [mk (hdrRole h) (hdrRegion h) (hdrPos h) body]
  else
    let n := min 4096 (d.bytes - d.offset)
    let r := s.readFabric (wrap48 (d.base + d.offset)) n [] none
    let t := (s.noteFabric r.2.1 r.2.2).modMirror fun u =>
      { u with todo := if d.offset + 4096 < d.bytes then { d with offset := d.offset + 4096 } :: rest else rest
               sent := u.sent + 1 }
    t.mirrorPush [mk d.role d.region d.offset r.1]

/-- A UPD of the main program waits for room in the mirror queue (R310), or room freed since it has waited is kept for it
until it issues (R348). -/
def State.updWaits (s : State) : Bool :=
  let b := s.fetched .main
  s.executes && s.streamReady .main && b.v1.major == 14 && s.clock.frozenGuard == some false && s.ctx.vl != 0 &&
    (!s.mirrorRoom (groupSize s.ctx.ew.bytes b.v1) || s.mirror.owed == some s.issue.pc)

/-- Room in the queue that an aborted UPD keeps until it has executed again: for its group and the DESC record that it
may fill (R310, R326, R348). -/
def State.updKept (s : State) : Nat :=
  match s.issue.retry with
  | some r =>
    let c := s.ctxOf r.stream
    if r.bundle.v1.major = 14 && r.cap.guard = some false && c.vl ≠ 0 then
      groupSize c.ew.bytes r.bundle.v1 + (if s.mirror.descs.length ≥ 63 then 1 else 0)
    else 0
  | none => 0

/-- The queue has room for one record of an operation: room that a waiting or an aborted UPD needs is the UPD's (R310,
R348). -/
def State.queueRoom (s : State) : Bool :=
  !s.buddyUp || (s.mirror.queue.length + s.updKept < Config.mirrorQueue && !s.updWaits)

/-- A flush still owes the DESC record that goes before its first record (R345). -/
def State.descDue (s : State) : Bool :=
  s.mirror.op == some .flush && s.mirror.sent == 0 && !s.mirror.descs.isEmpty

/-- The log whose records a restore sends has writes under way: they are in it before it is read (R351, R357). -/
def State.logPending (s : State) (d : RegionTodo) : Bool :=
  d.logged && s.mirror.logWrites.any fun w => s.logBase w.half == d.base

/-- The operation that runs takes room for one record (R345, R348). -/
def State.mirrorFill (s : State) : State :=
  if !s.queueRoom then s
  else if s.descDue then s.sendDesc
  else
    match s.mirror.op, s.mirror.todo with
    | some op, d :: rest => if s.logPending d then s else s.nextRegion op d rest
    | _, _ => s

/-- The mirror stream sends the head of its queue, which a region record enters first where there is room; the room freed
goes to the UPD that waits for it (R348; log 42). -/
def State.mirrorSend (s : State) : State :=
  if !s.up then s
  else
    let t := s.mirrorFill
    match t.mirror.queue with
    | r :: rs =>
      (t.modMirror fun u => { u with queue := rs, owed := if t.updWaits then some t.issue.pc else none }).handMirror r
    | [] => t

/-- The DESC record is sent once the queue has emptied (R345). -/
def State.descTimer (s : State) : State := if s.up && s.mirror.queue.isEmpty then s.sendDesc else s

/-! ### Operations -/

/-- A mirror operation runs (R447). -/
def State.mirrorBusy (s : State) : Bool :=
  s.mirror.op.isSome || (List.range 2).any fun p => (s.half p).state == .folding

/-- A running operation ends with its status (R447). -/
def State.opEnd (s : State) (op : MirrorOp) (status : Nat) : State :=
  (s.modMirror fun u => { u with op := none, todo := [], opLast := some op, opStatus := status }).mark 10 0

/-- A refused operation: nothing runs. -/
def State.opRefuse (s : State) (op : MirrorOp) (status : Nat) : State :=
  (s.modMirror fun u => { u with opLast := some op, opStatus := status }).mark 10 0

def State.opStart (s : State) (op : MirrorOp) (todo : List RegionTodo) : State :=
  s.modMirror fun u => { u with op := some op, todo := todo, sent := 0, opLast := some op, opStatus := 0 }

/-- MSEQ restarts: earlier records no longer count, and the mirror key may be spent (R346, R377). -/
def State.restartMseq (s : State) : State :=
  (s.modMirror fun u => { u with mseq := 0, mseqRun := true, unacked := [] }).spend 1

/-- The mirror key can seal (R379). -/
def State.mirrorKeyOk (s : State) : Bool :=
  (s.key 1).state == .live || ((s.key 1).state == .spent && (s.key 3).state == .live)

/-- A mirror flush starts (R345, R347). -/
def State.startFlush (s : State) : State :=
  if !s.pairsOk then s.opRefuse .flush 4
  else (if s.queueRoom then s.sendDesc else s).opStart .flush (s.ownTodo (·.flush) (!s.mirror.parity))

/-- A base copy starts (R352, R379). -/
def State.startBase (s : State) : State :=
  if s.stepOpen then s.opRefuse .baseCopy 5
  else if !s.pairsOk then s.opRefuse .baseCopy 4
  else
    let t := s.restartMseq
    if !t.mirrorKeyOk then t.opRefuse .baseCopy 3
    else t.opStart .baseCopy (t.ownTodo (·.inbase) t.mirror.parity)

/-- The IMG regions, and with RESTORE_LOG the FLUSH records of the OPEN half (R357). -/
def State.restoreTodo (s : State) : List RegionTodo :=
  ((List.range 16).filterMap fun i =>
    let r := s.region true i
    if r.role = 0 || r.bytes = 0 then none else some ⟨i, r.role, r.base, r.bytes, 0, false⟩) ++
  (if (s.reg 10 0x018).getLsbD 5 then
    match s.openHalf with
    | some p => [⟨0, 0, s.logBase p, (s.half p).index, 0, true⟩]
    | none => []
  else [])

/-- A restore starts (R357, R379). -/
def State.startRestore (s : State) : State :=
  if s.mirror.image ≠ .valid then s.opRefuse .restore 2
  else if !s.pairsOk then s.opRefuse .restore 4
  else
    let t := s.restartMseq
    if !t.mirrorKeyOk then t.opRefuse .restore 3 else t.opStart .restore t.restoreTodo

/-- A fold of a half starts (R353). -/
def State.startFold (s : State) (p : Nat) : State :=
  (s.setHalf p { s.half p with state := .folding }).modMirror fun u => { u with opLast := some .fold, opStatus := 0 }

/-- A start from MIRROR.CTRL (R347, R397, R449). -/
def State.mirrorCtl (s : State) (f : State → State) : State :=
  if !s.works then s.storeBusy 10 else if s.mirrorBusy then s.mark 10 1 else f s

/-- FOLD: the OPEN half whose COMMIT was lost (R353, R449). -/
def State.foldRequest (s : State) : State :=
  match s.staleHalf with
  | some p => s.startFold p
  | none => s

/-- An operation has sent everything: its END record (R347, R352, R357). A base copy has ended only when its records
have left the queue, since a STEP_OPEN before that cuts it (R352): its END record goes to the port as it ends (DEDUCED,
log 42). -/
def State.opDone (s : State) (op : MirrorOp) (mkind : Nat) : State :=
  if s.up && s.mirror.op = some op && s.mirror.todo.isEmpty && !s.descDue && s.queueRoom &&
      (op != .baseCopy || s.mirror.queue.isEmpty) then
    let r := s.mirrorRec mkind 0 0 0 0 0 0 (BitVec.ofNat 32 s.mirror.sent) []
    (if op = .baseCopy then s.handMirror r else s.mirrorPush [r]).opEnd op 0
  else s

/-- An acknowledgement arrives (R349). -/
def State.mirrorAcked (s : State) (m : Word) : State :=
  if s.up then s.modMirror fun u => { u with unacked := u.unacked.filter (· != m) } else s

/-- A mirror record has left the port and was not acknowledged in time (R349). -/
def State.ackTimeout (s : State) (m : Word) : State :=
  if s.up && s.mirror.unacked.contains m && !(s.net.outQ.any fun o => o.mirror && o.counter == m) then
    (s.modMirror fun u => { u with unacked := u.unacked.filter (· != m), damaged := true }).mark 10 2
  else s

/-- TIED (R349): the records that it speaks of are those since MSEQ last restarted, so it reads 0 until that has happened,
as R447 gives its reset value (DEDUCED, log 51). -/
def State.tied (s : State) : Bool :=
  s.mirror.mseqRun && s.mirror.queue.isEmpty && s.mirror.descs.isEmpty && s.mirror.op.isNone && s.mirror.unacked.isEmpty

/-! ### The receiver -/

/-- The acknowledgement of a record. -/
def State.ack (s : State) (m : Word) : State := { s with outbox := s.outbox ++ [.mirrorAck m] }

/-- Whether a mirror record of these header words would go to a half that is being folded: the port grants it
no credit (R353). -/
def State.foldHolds (s : State) (h : List Word) : Bool :=
  hdrMkind h ≤ 3 && (s.half ((hdrStep h).toNat % 2)).state == .folding

/-- MSEQ of an accepted record, and whether it was the expected one (R351). -/
def State.seeMseq (s : State) (m : Word) : Bool × State :=
  ((match s.mirror.expMseq with | some e => e == m | none => true),
    s.modMirror fun u => { u with expMseq := some (m + 1) })

/-- The sequence in which a mirror record of the buddy comes: MSEQ that is 0, or no higher than that of the record before
it, has restarted (R346; DEDUCED, log 26). -/
def State.noteMseq (s : State) (m : Word) : State :=
  let back : Bool := match s.mirror.rxSeen with | some x => m.toNat ≤ x.toNat | none => true
  s.modMirror fun u => { u with rxSeen := some m, rxNew := u.rxNew || m == 0 || back }

/-- A record is logged (R351). -/
def State.logRecord (s : State) (h : List Word) (body : List Byte) : State :=
  let t := hdrStep h
  let p := t.toNat % 2
  let x := s.half p
  let y : LogHalf :=
    if x.step ≠ t || x.state = .empty || x.state = .discarded || x.state = .folded then ⟨.isOpen, 0, t⟩ else x
  let (good, u) := s.seeMseq (hdr h 10)
  let fits := logEntry * (y.index + 1) ≤ (s.reg 10 0x064).toNat
  let st := if good && fits then y.state else .damaged
  if fits then
    (u.setHalf p { y with state := st, index := y.index + 1 }).modMirror fun m =>
      { m with logWrites := m.logWrites ++ [⟨p, wrap48 (s.logBase p + logEntry * y.index), h, body, hdr h 10⟩] }
  else u.setHalf p { y with state := st }

/-- The half's log write failed (R351): the half is DAMAGED, and one that is being folded is treated as DAMAGED at its
COMMIT: it is not folded, the image is INVALID, and the fold has ended (R353; DEDUCED, log 42). -/
def State.damageHalf (s : State) (p : Nat) : State :=
  let x := s.half p
  let t := s.setHalf p { x with state := .damaged }
  if x.state = .folding then (t.modMirror fun u => { u with image := .invalid }).mark 10 0 else t

/-- The oldest log write completes and its record is acknowledged (R351). -/
def State.logWriteDone (s : State) : State :=
  match s.mirror.logWrites with
  | w :: ws =>
    if !s.up then s
    else
      let r := s.writeFabric w.addr (wordsToBytes w.hdr ++ w.body) [] none
      let t := (r.1.noteFabric r.2.1 r.2.2).modMirror fun u => { u with logWrites := ws }
      (if r.2.1 || r.2.2 then t.damageHalf w.half else t).ack w.mseq
  | [] => s

/-- The valid bytes of a region record written to memory. -/
def State.writeRegion (s : State) (r : Region) (pos : Nat) (body : List Byte) : State :=
  let x := s.writeFabric (wrap48 (r.base + pos)) (body.take (min 4096 (r.bytes - pos))) [] none
  x.1.noteFabric x.2.1 x.2.2

/-- BASE and BASE_END records (R352). A copy begins with the first of them after MSEQ has restarted, which it does for
each copy (R346), behind the records that its sender had queued before it. After a STEP_OPEN has ended the copy, its further
records leave the image INVALID (DEDUCED, log 26). -/
def State.baseRecord (s : State) (h : List Word) (body : List Byte) (last : Bool) : State :=
  let m := hdr h 10
  let t := (s.seeMseq m).2
  let fresh := t.mirror.rxNew || (t.mirror.image ≠ .filling && !last && !t.mirror.rxCut)
  let u := if fresh then
      t.modMirror fun x => { x with rxCount := 0, image := .filling, rxCut := false, rxNew := false }
    else t
  if last then
    (if u.mirror.image = .filling && u.mirror.rxCount = (hdr h 15).toNat then
      u.modMirror fun x => { x with image := .valid } else u).ack m
  else
    let r := u.region true (hdrRegion h)
    let v := if r.role = 0 then u else u.writeRegion r (hdrPos h) body
    (v.modMirror fun x => { x with rxCount := x.rxCount + 1 }).ack m

/-- The OWN region that a RESTORE record goes to (R357): of ROLE 4, the half with PAR = RESID_PARITY for an
image record and the other half for a logged one, told apart by their order; of ROLE 5, which a logged record alone
has, the ROLE 5 region, if there is one: the record's own REGION where that is one, else the first. -/
def State.restoreTarget (s : State) (h : List Word) : Region :=
  let i := hdrRegion h
  if hdrRole h = 4 then
    let one := (s.pairs.head?.map fun p => (p.2.bytes + 4095) / 4096).getD 0
    let par := if s.mirror.rxRole4 < one then s.mirror.parity else !s.mirror.parity
    ((s.pairs.find? fun p => p.2.par == par).map (·.2)).getD (s.region false i)
  else if hdrRole h = 5 then
    let r := s.region false i
    if r.role = 5 then r
    else (((List.range 16).map (s.region false)).find? fun r => r.role == 5).getD { r with role := 0 }
  else s.region false i

/-- RESTORE and RESTORE_END records, accepted while issue is stopped (R357). -/
def State.restoreRecord (s : State) (h : List Word) (body : List Byte) (last : Bool) : State :=
  if s.issue.running then s
  else
    let m := hdr h 10
    let t := (s.seeMseq m).2
    let u :=
      if m = 0 || t.mirror.rxRestore ≠ 1 then
        t.modMirror fun x => { x with rxRestore := 1, rxRestoreCount := 0, rxRole4 := 0 }
      else t
    if last then
      (u.modMirror fun x =>
        { x with rxRestore := if x.rxRestoreCount = (hdr h 15).toNat then 2 else 3 }).ack m
    else
      let r := u.restoreTarget h
      let v := if r.role = 0 then u else u.writeRegion r (hdrPos h) body
      (v.modMirror fun x =>
        { x with rxRestoreCount := x.rxRestoreCount + 1
                 rxRole4 := x.rxRole4 + (if hdrRole h = 4 then 1 else 0) }).ack m

/-- An accepted mirror record whose STEP rule is met (R350 to R352, R357). -/
def State.takeMirror (s : State) (h : List Word) (body : List Byte) : State :=
  match hdrMkind h with
  | 4 => s.baseRecord h body false
  | 5 => s.baseRecord h body true
  | 6 => s.restoreRecord h body false
  | 7 => s.restoreRecord h body true
  | _ => s.logRecord h body

/-! ### Folds -/

/-- What one log entry writes (R353): none where it is not applied; the region and position, or a miss. -/
def State.foldEntry (s : State) (h : List Word) : Option (Option (Region × Nat × Nat)) :=
  let role := hdrRole h
  let imgs := (List.range 16).map fun i => s.region true i
  match hdrMkind h with
  | 0 =>
    if role = 1 || role = 2 || role = 3 then
      let n := bits (hdr h 11) 12 0 * 2
      match imgs.find? fun r => r.role == role && r.tid == bits (hdr h 11) 31 16 with
      | some r =>
        let pos := (hdrPos h - r.coord0) * 2
        some (if r.coord0 ≤ hdrPos h && pos + n ≤ r.bytes then some (r, pos, n) else none)
      | none => some none
    else none
  | 2 =>
    if role = 5 then none
    else
      let r? := if role = 4 then imgs.find? fun r => r.role == 4
        else if role = 6 then imgs[hdrRegion h]? else none
      match r? with
      | some r =>
        some (if r.role ≠ 0 && hdrPos h < r.bytes then some (r, hdrPos h, min 4096 (r.bytes - hdrPos h)) else none)
      | none => some none
  | _ => none

/-- One entry of a fold applied (R353). -/
def State.foldOne (base : Nat) (s : State) (k : Nat) : State :=
  let (h, body, range, gone) := s.readLog base k
  let t := s.noteFabric range gone
  match t.foldEntry h with
  | none => t
  | some none => (t.modMirror fun u => { u with image := .invalid }).mark 10 4
  | some (some (r, pos, n)) =>
    let x := t.writeFabric (wrap48 (r.base + pos)) (body.take n) [] none
    x.1.noteFabric x.2.1 x.2.2

/-- The fold of a half ends (R353), of two that of the earlier step, which the later one is applied over. -/
def State.mirrorFoldDone (s : State) : State :=
  match s.oldHalf .folding with
  | some p =>
    if !s.up || s.mirror.logWrites.any (fun w => w.half == p) then s
    else
      let x := s.half p
      let t := (List.range x.index).foldl (State.foldOne (s.logBase p)) s
      (t.setHalf p { x with state := .folded }).mark 10 0
  | none => s

/-- What a COMMIT does to the half of its step (R353). -/
def State.commitHalf (s : State) (step : BitVec 48) : State :=
  let p := step.toNat % 2
  let x := s.half p
  if x.step ≠ step then s
  else
    match x.state with
    | .isOpen => s.startFold p
    | .damaged => s.modMirror fun u => { u with image := .invalid }
    | _ => s

/-- What an ABORT does to the half of its step (R353). -/
def State.abortHalf (s : State) (step : BitVec 48) : State :=
  let p := step.toNat % 2
  let x := s.half p
  if x.step = step && x.state = .isOpen then s.setHalf p { x with state := .discarded } else s

/-- What a STEP_OPEN does to the mirror: MSEQ and GROUP restart, GAP and DAMAGED clear, and base copies are cut, their
queued records with them (R344, R346, R349, R352). -/
def State.mirrorOpen (s : State) : State :=
  let t := (s.modMirror fun u =>
    { u with group := 0, gap := false, damaged := false, expMseq := u.expMseq.map fun _ => 0
             image := if u.image = .filling then .invalid else u.image
             rxCut := u.rxCut || u.image == .filling }).restartMseq
  if t.mirror.op = some .baseCopy then
    (t.modMirror fun u => { u with queue := u.queue.filter fun r => hdrMkind r.hdr != 4 }).opEnd .baseCopy 1
  else t

/-! ### Region writes -/

/-- An R_CTL write: a rule of R343 that it breaks takes its ROLE (R448, R449). -/
def State.writeRCtl (s : State) (img : Bool) (i : Nat) (v : Word) : State :=
  let w := v &&& (if img then 0xF000FFFF else 0xF007FFFF)
  let o := regionOff img i
  let role := bits w 31 28
  let four := (List.range 16).any fun j => j != i && (s.region true j).role == 4
  let why : Nat :=
    if role = 0 then 0
    else if role > 6 then 1
    else if img && role = 5 then 2
    else if img && role = 4 && four then 3
    else if bits (s.reg 10 o) 5 0 ≠ 0 || bits (s.reg 10 (o + 8)) 5 0 ≠ 0 then 4
    else 0
  if why = 0 then s.setReg 10 (o + 4) w
  else
    let rep := BitVec.ofNat 32 (2 ^ 12 + (if img then 2 ^ 11 else 0) + i * 2 ^ 7 + why * 2 ^ 4)
    (s.setReg 10 (o + 4) (w &&& 0x0FFFFFFF)).modMirror fun u => { u with regReport := rep }

end Sys2Proof.Machine
end

