-- ==== Sys2Proof/Machine/Net.lean ====
section
/-!
DEFINITION. The network port: the exchange plan and releases (R298 to R301), arrivals (R284, R297, R380,
R381), the outbound port (R281, R283), RX and the plan's registers (R445, R446).
-/

namespace Sys2Proof.Machine

/-! ### The plan -/

/-- A plan entry (R299, R445). -/
structure PlanEntry where
  valid : Bool
  package : BitVec 15
  wz : BitVec 7
  stream : BitVec 15
  count : Nat
deriving DecidableEq, Repr

/-- Plan entry `i`. -/
def State.plan (s : State) (i : Nat) : PlanEntry :=
  let a := s.reg 9 (0x200 + 8 * i)
  let b := s.reg 9 (0x204 + 8 * i)
  { valid := a.getLsbD 31, package := BitVec.ofNat 15 (bits a 21 7), wz := BitVec.ofNat 7 (bits a 6 0)
    stream := BitVec.ofNat 15 (bits b 14 0), count := bits b 31 16 }

def State.modNet (s : State) (f : NetUnit → NetUnit) : State := { s with net := f s.net }

/-- The first valid entry at or after `i`. -/
def State.planFrom (s : State) (i : Nat) : Option Nat := (List.range 64).find? fun j => i ≤ j && (s.plan j).valid

/-- A stream named by a valid entry (R299). -/
def State.planned (s : State) (st : BitVec 15) : Bool :=
  (List.range 64).any fun j => (s.plan j).valid && (s.plan j).stream == st

/-- The entry names the source and stream of the address word. -/
def PlanEntry.names (p : PlanEntry) (a : BitVec 37) : Bool := p.valid && addrWord p.package p.wz p.stream == a

/-- One record of the entry at PLAN_NEXT is released; a full entry passes the turn on (R299). -/
def State.planStep (s : State) (n : Nat) : State :=
  let r := s.net.released + n
  if r < (s.plan s.net.planNext).count then s.modNet fun u => { u with released := r }
  else
    match s.planFrom (s.net.planNext + 1) with
    | some j => s.modNet fun u => { u with planNext := j, released := 0 }
    | none => s.modNet fun u => { u with released := (s.plan s.net.planNext).count, planEnd := true }

/-- The binding that a released record of a stream matches (R245, R301). -/
def State.arrivalBinding (s : State) (st : BitVec 15) : Option Nat := s.matchBinding 1 st.toNat

/-- An arrival event (R247, R284, R301): into the trigger queue when a binding matches, or refused under ENGINE_DOWN,
which sets UNBOUND; with its notice where the own matrix engine is bound. -/
def State.arrivalEvent (s : State) (a : BitVec 37) (tag : Word) : State :=
  match s.arrivalBinding (addrStream a) with
  | none => s
  | some b =>
    let t := if s.trouble.engineDown then s.mark 7 0 else s.addTrigger ⟨b, true, tag, a.zeroExtend 64⟩
    if (s.bindWord b 0).getLsbD 30 && s.partner.coupling.meSrc == 0xFE#8 then
      { t with outbox := t.outbox ++ [.tileNotice (addrStream a) tag] } else t

/-- The slots with their numbers. -/
def State.arrivals (s : State) : List (Nat × Arrival) :=
  (List.range 16).filterMap fun k => ((s.net.slots[k]?).getD none).map fun x => (k, x)

def State.setArrival (s : State) (k : Nat) (x : Option Arrival) : State :=
  s.modNet fun u => { u with slots := u.slots.setIfInBounds k x }

/-- The record may be released now: an unplanned one, or one of the entry at PLAN_NEXT (R299). -/
def State.releasable (s : State) (x : Arrival) : Bool :=
  let a := hdrSrc x.hdr
  !x.released && !x.early && !x.missed &&
    (!s.planned (addrStream a) || (!s.net.planEnd && (s.plan s.net.planNext).names a))

/-- The earliest record of a list. -/
def earliest : List (Nat × Arrival) → Option (Nat × Arrival)
  | [] => none
  | p :: t =>
    match earliest t with
    | some q => if q.2.seq < p.2.seq then some q else some p
    | none => some p

/-- The trigger queue is full: no arrival event is accepted, whether or not a binding matches it (R246, R283). -/
def State.eventBlocked (s : State) : Bool := s.edging.trig.length ≥ 16

/-- `n` records of a source and stream that never came are released as GONE (R300). -/
def State.addGone (s : State) (a : BitVec 37) (n : Nat) : State :=
  s.modNet fun u => { u with gones := u.gones ++ [⟨u.arrivals, a, n⟩] }

/-- The next record that is released, and the state after it (R299 to R301); none when nothing is. -/
def State.releaseNext (s : State) : Option State :=
  match earliest (s.arrivals.filter fun p => s.releasable p.2) with
  | some (k, x) =>
    let a := hdrSrc x.hdr
    if s.eventBlocked then none
    else
      let ours := s.planned (addrStream a)
      let t := (s.setArrival k (some { x with released := true
                                              goneRelease := ours && !s.reachable (addrPackage a) })).arrivalEvent
        a (hdr x.hdr 5)
      some (if ours then t.planStep 1 else t)
  | none =>
    let p := s.plan s.net.planNext
    let a := addrWord p.package p.wz p.stream
    if s.net.planEnd || !p.valid || s.reachable p.package || s.eventBlocked then none
    else if (s.arrivalBinding p.stream).isSome then
      some (((({ s with freeCount := s.freeCount + 1 } : State).addGone a 1).arrivalEvent a
        (Config.freeTag s.freeCount)).planStep 1)
    else some ((s.addGone a (p.count - s.net.released)).planStep (p.count - s.net.released))

/-- Records that the plan can no longer release (R299). -/
def State.markMissed (s : State) : State :=
  s.arrivals.foldl (fun (t : State) p =>
    let a := hdrSrc p.2.hdr
    let left := (List.range 64).any fun j =>
      (t.plan j).names a && (if j = t.net.planNext then !t.net.planEnd else t.net.planNext ≤ j)
    if p.2.released || p.2.early || p.2.missed || !t.planned (addrStream a) || left then t
    else (t.setArrival p.1 (some { p.2 with missed := true })).mark 9 4) s

/-- Releases as far as they go; `fuel` bounds slots, trigger-queue room and plan entries. -/
def State.releaseLoop : Nat → State → State
  | 0, s => s
  | n + 1, s =>
    match s.releaseNext with
    | some t => State.releaseLoop n t
    | none => s

/-- The plan goes on as far as it can (R299 to R301). -/
def State.runPlan (s : State) : State := (State.releaseLoop 112 s).markMissed

/-- PLAN_NEXT reset (R299). -/
def State.resetPlan (s : State) : State :=
  match s.planFrom 0 with
  | some i => s.modNet fun u => { u with planNext := i, released := 0, planEnd := false }
  | none => s.modNet fun u => { u with planNext := 0, released := 0, planEnd := true }

/-- Every exchange record freed, GONE releases included (R301, R396); a GONE release that an aborted NRECV takes is used
up at the boundary after it (R326). -/
def State.freeArrivals (s : State) : State :=
  let t := s.freeRecords
  match s.issue.retry with
  | some r =>
    match r.takes with
    | some (.gone g) => (t.modNet fun u => { u with gones := [g] }).modIssue fun i =>
        { i with retry := some { r with freed := true } }
    | _ => t.modNet fun u => { u with gones := [] }
  | none => t.modNet fun u => { u with gones := [] }

/-! ### Arrivals -/

/-- The STEP rule of R297: a record of this step, of the next one, or stale. -/
inductive StepRule where
  | now
  | next
  | stale
deriving DecidableEq, Repr

def State.stepRule (s : State) (h : List Word) : StepRule :=
  if hdrStep h = s.twist.step then .now else if hdrStep h = s.twist.step + 1 then .next else .stale

/-- A stale record is dropped (R297). -/
def State.staleDrop (s : State) : State := (s.mark 9 3).bump .stale 1

/-- An exchange record enters free slot `k`; its payload goes to the slab of RX_HOOP (R298). -/
def State.placeArrival (s : State) (k : Nat) (h : List Word) (body : List Byte) (early : Bool) : State :=
  let t := s.writeSlab s.net.rxHoop.toNat k (padBytes 4096 body)
  let u := t.setArrival k (some { hdr := h, early := early, released := false, goneRelease := false, missed := false
                                  seq := t.net.arrivals })
  u.modNet fun x => { x with arrivals := x.arrivals + 1 }

/-- The slot that the port grants a record (R298): the last free one only to a record that the plan can release
next. -/
def State.slotFor (s : State) (h : List Word) (early : Bool) : Option Nat :=
  if !s.net.rxEn then none
  else
    match (List.range 16).filter fun k => ((s.net.slots[k]?).getD none).isNone with
    | [] => none
    | [k] =>
      if !early && !s.net.planEnd && (s.plan s.net.planNext).names (hdrSrc h) then some k else none
    | k :: _ => some k

/-- The header checks of R297: VERSION, KIND, LEN and DST. -/
def State.headerOk (s : State) (h : List Word) : Bool :=
  bits (hdr h 0) 31 24 == 1 && bits (hdr h 0) 23 20 ≤ 1 && bits (hdr h 9) 15 0 == 4096 &&
    (hdrDst h).extractLsb' 15 22 == s.package ++ s.wz

/-- A verified exchange record (R297, R298): placed, or not yet taken for want of a slot. -/
def State.takeExchange (s t : State) (h : List Word) (body : List Byte) : State :=
  match t.stepRule h with
  | .stale => t.staleDrop
  | r =>
    match t.slotFor h (r == .next) with
    | none => s
    | some k => ((t.placeArrival k h body (r == .next)).exchanged (addrPackage (hdrSrc h))).runPlan

/-- A verified mirror record (R350); one for the half that is being folded gets no credit and is not yet taken
(R353). -/
def State.takeMirrorRec (s t : State) (h : List Word) (body : List Byte) : State :=
  let a := hdrSrc h
  if t.partner.buddy ≠ some (addrPackage a) || addrWz a ≠ t.wz then t.mark 10 3
  else if hdrMkind h > 7 then t.mark 9 2
  else
    let u := (t.exchanged (addrPackage a)).noteMseq (hdr h 10)
    if hdrMkind h > 3 then u.takeMirror h body
    else
      match u.stepRule h with
      | .stale => (t.noteMseq (hdr h 10)).staleDrop
      | .next => if u.foldHolds h then s else u.modMirror fun m => { m with rxHeld := m.rxHeld ++ [⟨h, body⟩] }
      | .now => if u.foldHolds h then s else u.takeMirror h body

/-- An inbound record finishes verification (R380, R381) and is checked (R297, R350). -/
def State.recordVerified (s : State) (r : WireRec) : State :=
  if !s.works || r.hdr.length ≠ 16 || r.body.length ≠ 4096 then s
  else
    match s.verify r with
    | (none, t) => t
    | (some body, t) =>
      if !t.headerOk r.hdr then t.mark 9 2
      else if hdrMirror r.hdr then s.takeMirrorRec t r.hdr body
      else s.takeExchange t r.hdr body

/-- Held mirror records of the step now open proceed as new ones, but for those that a fold holds (R297, R353). -/
def State.wakeMirror (s : State) : State :=
  s.mirror.rxHeld.foldl (fun (v : State) r =>
    match v.stepRule r.hdr with
    | .now =>
      if v.foldHolds r.hdr then v.modMirror fun m => { m with rxHeld := m.rxHeld ++ [r] } else v.takeMirror r.hdr r.body
    | .next => v.modMirror fun m => { m with rxHeld := m.rxHeld ++ [r] }
    | .stale => v.staleDrop) (s.modMirror fun m => { m with rxHeld := [] })

/-- Held records of the step that opens proceed as new ones (R297). -/
def State.wakeHeld (s : State) : State :=
  State.wakeMirror <| s.arrivals.foldl (fun (t : State) p =>
    if p.2.missed then t.setArrival p.1 none
    else if !p.2.early then t
    else
      match t.stepRule p.2.hdr with
      | .now => t.setArrival p.1 (some { p.2 with early := false })
      | .next => t
      | .stale => (t.setArrival p.1 none).staleDrop) s

/-- The fold of a half ends, and the records that it held are taken (R353). -/
def State.foldDone (s : State) : State := s.mirrorFoldDone.wakeMirror

/-- A log write completes; where it ended a fold by its failure, the records that the fold held are taken (R351,
R353). -/
def State.logDone (s : State) : State :=
  let t := s.logWriteDone
  if (List.range 2).any fun p => (s.half p).state == .folding && (t.half p).state != .folding then t.wakeMirror else t

/-! ### The outbound port -/

/-- The record at the head of the port has left it (R281). -/
def State.recordLeaves (s : State) : State :=
  match s.net.outQ with
  | _ :: os => s.modNet fun u => { u with outQ := os }
  | [] => s

/-- A record discarded at the port no longer awaits its acknowledgement. -/
def State.dropUnacked (s : State) (o : OutRec) : State :=
  if o.mirror then s.modMirror fun u => { u with unacked := u.unacked.filter (· != o.counter) } else s

/-- The stream whose NSEND waits for credit: a run's goes before the main program's (R251, R283). -/
def State.creditStream (s : State) : Option Stream :=
  [Stream.edge, Stream.main].find? fun st =>
    let b := s.fetched st
    s.canOffer st && s.creditWaits ⟨s, st, b, s.twCap⟩ b.m

/-- The oldest NSEND whose record has not left the port in time is discarded (R283): the record at the head of the
port, or with none there the NSEND that waits for credit. -/
def State.sendTimeout (s : State) : State :=
  match s.net.outQ with
  | o :: os => (((s.modNet fun u => { u with outQ := os }).discardOut o.mirror).dropUnacked o).mark 8 2
  | [] =>
    match s.creditStream with
    | some st => s.issueBundle { stream := st, bundle := s.fetched st } .sendTimeout none
    | none => s

/-- Outbound credit arrives (R283). -/
def State.addCredit (s : State) (p : BitVec 15) (n : Nat) : State :=
  if s.up then s.modNet fun u => { u with credit := u.credit.set 0 p.toNat (u.credit.get 0 p.toNat + n) } else s

/-! ### Registers -/

/-- RX and the plan accept writes only in a CLOSED step with every slot free (R446). -/
def State.planClosed (s : State) (f : State → State) : State :=
  if s.stepOpen || !s.arrivals.isEmpty then s.storeBusy 9 else f s

/-- A write of RX (R446). -/
def State.writeRx (s : State) (v : Word) : State :=
  let h := bits v 2 0
  let held := (List.range 8).any fun b => s.armed b && (s.bindWord b 2).getLsbD (8 + h)
  let bad := h > 5 || !s.hoopPresent h || held
  let en := v.getLsbD 31
  s.modNet fun u => { u with rxHoop := BitVec.ofNat 3 h, rxEn := en && !bad
                             rxRefused := if en then bad else u.rxRefused }

/-- A write of PLAN_SRC (R446). With no valid entry left PLAN_NEXT and RELEASED are 0 and PLAN_END is set (R299). -/
def State.writePlanSrc (s : State) (i : Nat) (v : Word) : State :=
  let w := v &&& 0x803FFFFF
  let t := s.setReg 9 (0x200 + 8 * i) (if (s.plan i).count = 0 then w &&& 0x7FFFFFFF else w)
  if (t.planFrom 0).isNone then t.resetPlan else t

end Sys2Proof.Machine
end

