-- ==== Sys2Proof/Machine/Partner.lean ====
section
/-!
DEFINITION. Partners: events, roll calls and binds (R266 to R270, R276, R285 to R287, R442 to R444), and
coupling changes (R273).
-/

namespace Sys2Proof.Machine

def State.modPartner (s : State) (f : PartnerUnit → PartnerUnit) : State := { s with partner := f s.partner }

/-! ### Roll calls -/

/-- ACC_PORT_EN is 0, a held write of 1 included; a hold with nothing left to change ends (R273, R444). -/
def State.clearAccPort (s : State) : State :=
  s.modPartner fun p =>
    let c := { p.coupling with accPortEn := false }
    let h := p.couplingHeld.map fun x => { x with accPortEn := false }
    { p with coupling := c, couplingHeld := if h = some c then none else h }

/-- A roll call starts, or is merged into the pending one (R268, R270); at rest it runs at exit (R397). -/
def State.startRoll (s : State) : State :=
  let t := s.clearAccPort
  if t.partner.rollBusy || !t.works then t.modPartner fun p => { p with rollPending := true }
  else t.modPartner fun p => { p with rollBusy := true, probeAbsent := [] }

/-- ME_SRC, in force or held, becomes NONE when it names a lost engine (R268); a hold with nothing left to change
ends. -/
def State.unbindMe (s : State) (lost : Byte → Bool) : State :=
  let f (c : Coupling) : Coupling := if lost c.meSrc then { c with meSrc := 0xFF } else c
  s.modPartner fun p =>
    let c := f p.coupling
    let h := p.couplingHeld.map f
    { p with coupling := c, couplingHeld := if h = some c then none else h }

/-- A WAIT of kind 1 ends when no matrix engine is bound (R285). -/
def State.endTileWaits (s : State) : State :=
  if s.meUp then s
  else
    [Stream.main, Stream.edge].foldl (fun (t : State) st =>
      match t.waitOf st with
      | some w => if w.kind = .bobbin then t.endWait st 1 else t
      | none => t) s

/-- What an absent control core does: a waiting WAITDIR ends as by its timeout and picots are dropped (R115,
R116, R285). -/
def State.coreAbsent (s : State) : State :=
  let t : State := s.modPartner fun p => { p with core := false }
  let u : State :=
    match t.issue.wait with
    | some w => if w.kind = .dir then (t.endWait .main (BitVec.allOnes 64)).mark 1 7 else t
    | none => t
  (u.issue.posts.foldl (fun (v : State) p => v.dropPicot p.stream p.sd) u).modIssue fun x => { x with posts := [] }

/-- Whether STATES.ME reports the own engine (R442). -/
def State.ownMe (s : State) : Bool := s.partner.coupling.meSrc == 0xFF#8 || s.partner.coupling.meSrc == 0xFE#8

/-- The matrix engine that STATES.ME reports is marked absent (R268). -/
def State.meAbsent (s : State) : State :=
  ((s.modPartner fun p => { p with me := false }).unbindMe
    fun m => m == (if s.ownMe then 0xFE#8 else s.partner.coupling.meSrc)).endTileWaits

/-- Step 1 of R268 for a partner on the package; transfers in flight lose the target (R286). A matrix engine that
STATES.ME does not report may be named by a held write of ME_SRC, which reads back (R443). -/
def State.markAbsent (s : State) (p : Partner) : State :=
  match p with
  | .me own =>
    if own = s.ownMe then s.meAbsent else s.unbindMe fun m => if own then m == 0xFE#8 else m != 0xFE#8 && m != 0xFF#8
  | .core => s.coreAbsent
  | .sram d => (s.modPartner fun q => { q with sram := q.sram.setIfInBounds d.toNat false }).loseTarget (.sram d.toNat)
  | .dram => (s.modPartner fun q => { q with dram := false }).loseTarget .dram

/-- A partner-change event on the package (R267, R268). -/
def State.partnerEvent (s : State) (p : Partner) : State :=
  if !s.up then s else (s.markAbsent p).startRoll

/-! ### Packages -/

/-- Records on their way to a package that is absent are discarded (R285, R286). -/
def State.discardTo (s : State) (p : BitVec 15) : State :=
  (s.net.outQ.filter fun o => o.package == p).foldl
    (fun (t : State) o => ((t.goneOnce.discardOut o.mirror).dropUnacked o))
    (s.modNet fun u => { u with outQ := u.outQ.filter fun o => o.package != p })

/-- The buddy is lost: it is unbound and queued mirror records are discarded (R268, R285). -/
def State.buddyAbsent (s : State) : State :=
  let t := s.modPartner fun p => { p with buddy := none, buddyPresent := false }
  t.mirror.queue.foldl (fun (u : State) _ => u.mirrorDiscard 1) (t.modMirror fun u => { u with queue := [] })

/-- A reachability notice (R267, R268, R442): the map, and an event when the package is the buddy or was
exchanged with in this step or the previous one. -/
def State.reachNotice (s : State) (p : BitVec 15) (on : Bool) : State :=
  if !s.up || p.toNat > Config.maxPackage || p = s.package then s
  else
    let w := s.partner.reach.get 0 (p.toNat / 32)
    let bit := BitVec.ofNat 32 (2 ^ (p.toNat % 32))
    let was := w.getLsbD (p.toNat % 32)
    let t := s.modPartner fun q =>
      { q with reach := q.reach.set 0 (p.toNat / 32) (if on then w ||| bit else w &&& ~~~ bit) }
    let buddy := s.partner.buddy = some p
    if was = on then t
    else if buddy || s.partner.recent.contains p || s.partner.recentPrev.contains p then
      let u := (t.modPartner fun q => { q with marked := p :: q.marked.filter (· != p) }).discardTo p
      ((if buddy then u.buddyAbsent else u).startRoll).runPlan
    else t.runPlan

/-! ### Probes and publication -/

/-- A probe that is not answered (R268). -/
def State.probeTimeout (s : State) (p : Probe) : State :=
  if s.up && s.partner.rollBusy then
    s.modPartner fun q => { q with probeAbsent := p :: q.probeAbsent.filter (· != p) }
  else s

/-- The fabric targets that did not answer the probe. -/
def State.probeLost (s : State) : List Target :=
  (((List.range 4).map Target.sram) ++ [Target.dram]).filter fun t =>
    match t with
    | .sram d => s.partner.probeAbsent.contains (.sram (BitVec.ofNat 2 d))
    | .dram => s.partner.probeAbsent.contains .dram
    | .unmapped => false

/-- The roll call publishes (R268 to R270), and a pending one starts, or at rest waits for the exit (R397); transfers in
flight lose the targets that did not answer (R286), and ACC_PORT_EN clears where the port failed its probe while the
queue answered (R273). The matrix engine that STATES.ME reports answers by its queue, the own one by its port too (R22,
R276). -/
def State.publish (s : State) : State :=
  if !s.up || !s.partner.rollBusy then s
  else
    let gone (p : Probe) : Bool := s.partner.probeAbsent.contains p
    let meIn := !(gone .bobbin && (!s.ownMe || gone .accPort))
    let t := s.modPartner fun q =>
      { q with
        me := meIn, core := !gone .core, dram := !gone .dram
        sram := Vector.ofFn fun d : Fin 4 => !gone (.sram (BitVec.ofNat 2 d.val))
        marked := [], rollGen := q.rollGen + 1, rollBusy := q.rollPending && s.works
        rollPending := q.rollPending && !s.works, probeAbsent := [] }
    let l := s.probeLost.foldl State.loseTarget t
    let a := if gone .accPort && !gone .bobbin then l.clearAccPort else l
    let u := if meIn then a else a.meAbsent
    let v := if gone .core then u.coreAbsent else u
    let w :=
      match v.partner.buddy with
      | some b => if v.reachable b then v.modPartner fun q => { q with buddyPresent := true } else v.buddyAbsent
      | none => v.modPartner fun q => { q with buddyPresent := false }
    (w.mark 8 0).runPlan

/-! ### Couplings -/

/-- The conditions of R273 for a coupling change. -/
def State.couplingFree (s : State) : Bool :=
  s.edging.trig.isEmpty && s.edging.run.isNone && s.edging.tiles.isEmpty

/-- A coupling takes effect; with no matrix engine bound any more a WAIT of kind 1 that waits ends (R273, R285). -/
def State.couple (s : State) (c : Coupling) : State :=
  (s.modPartner fun p => { p with coupling := c, couplingHeld := none }).endTileWaits

/-- A write that changes the coupling: at once, or held (R273, R443). -/
def State.changeCoupling (s : State) (f : Coupling → Coupling) : State :=
  let now := s.partner.couplingHeld.getD s.partner.coupling
  if f now = now then s
  else if s.couplingFree then s.couple (f now)
  else s.modPartner fun p => { p with couplingHeld := some (f now) }

/-- A held change takes effect (R273). -/
def State.couplingChange (s : State) : State :=
  match s.partner.couplingHeld with
  | some c => if s.up && s.couplingFree then s.couple c else s
  | none => s

/-- A write of ACC_PORT_EN; a 1 is lost during a roll call (R273, R444). -/
def State.writeAccPort (s : State) (v : Bool) : State :=
  if v && s.partner.rollBusy then s.clearAccPort else s.changeCoupling fun c => { c with accPortEn := v }

/-- A write of ME_SRC: accepted, or refused with its reason (R276, R443). -/
def State.writeMeSrc (s : State) (v : Word) (present serving : Bool) : State :=
  let n := bits v 7 0
  let own := n = 0xFE || n = s.wz.toNat
  let there := if own && s.ownMe then s.partner.me else present
  let why : Nat :=
    if n = 0xFF then 0
    else if own then (if there then 0 else 2)
    else if n > 0x7F then 4
    else if n / 32 ≠ s.wz.toNat / 32 then 1
    else if !there then 2
    else if serving then 3
    else 0
  if why ≠ 0 then s.modPartner fun p => { p with bindRefused := why }
  else
    (s.modPartner fun p => { p with bindRefused := 0 }).changeCoupling fun c =>
      { c with meSrc := if own then 0xFE else BitVec.ofNat 8 n }

/-- A write of BIND_BUDDY; the expected MSEQ is taken afresh (R351, R443). -/
def State.writeBuddy (s : State) (v : Word) : State :=
  let p := BitVec.ofNat 15 (bits v 14 0)
  (s.modPartner fun q => { q with buddyId := p, buddy := if v.getLsbD 31 then some p else none }).modMirror fun u =>
    { u with expMseq := none }

/-- A requested roll call (R267, R397). -/
def State.rollRequest (s : State) : State := if s.works then s.startRoll else s.storeBusy 8

end Sys2Proof.Machine
end

