-- ==== Sys2Proof/Machine/Trouble.lean ====
section
/-!
DEFINITION. Counter snapshots and clears (R408, R409), DARN_APPLY (R455), proofing and staged starts, and
RESTITCH (R340, R341).
-/

namespace Sys2Proof.Machine

def State.modTrouble (s : State) (f : TroubleUnit → TroubleUnit) : State := { s with trouble := f s.trouble }

/-! ### Snapshots -/

/-- A snapshot starts: its capture cycle (R409). -/
def State.startSnap (s : State) : State :=
  if s.trouble.copying.isSome then s
  else s.modTrouble fun t => { t with copying := some (t.counters, s.twist.step) }

/-- A snapshot completes (R409). -/
def State.snapshotDone (s : State) : State :=
  match s.trouble.copying with
  | some (v, st) =>
    if s.up then
      (s.modTrouble fun t => { t with snaps := v, snapStep := st, snapGen := t.snapGen + 1, copying := none }).mark 14 15
    else s
  | none => s

/-- Every live counter cleared (R408). -/
def State.clearCounters (s : State) : State := s.modTrouble fun t => { t with counters := Vector.replicate 25 0 }

/-! ### Structural starts by software -/

/-- DARN_APPLY (R338, R455). -/
def State.darnApply (s : State) : State :=
  if s.issue.running || s.edging.run.isSome || !s.works then s.modTrouble fun t => { t with applyIgnored := true }
  else (s.modTrouble fun t => { t with applyIgnored := false }).startStaged .mmio

/-- ARBITER.CTRL.PROOF (R335, R397, R451). -/
def State.startProof (s : State) (a : Nat) : State :=
  if s.works then s.startStruct ⟨.proofing a, .mmio⟩ else s.storeBusy 12

/-! ### RESTITCH -/

/-- The loads under way of the main program. -/
def State.mainLoads (s : State) : List Xfer := s.xfers.filter fun x => x.op.isLoad && x.stream == .main

/-- Bundles that have written back and are younger than the oldest one whose load is abandoned: those counted after
it, less the counted ones whose own loads are abandoned with it (R341). -/
def State.youngerDone (s : State) : Nat :=
  match s.mainLoads with
  | x :: xs => s.issue.count - (x.count + 1) - (xs.filter fun y => y.count < s.issue.count).length
  | [] => 0

/-- A bundle whose WAIT or WAITDIR waits has not written back (R113): discarded, it leaves SD as it was and stands at its
own index again, the oldest bundle not written back unless a load is older (R341; DEDUCED, log 17). -/
def State.discardWait (s : State) (st : Stream) : State :=
  match s.waitOf st with
  | none => s
  | some _ =>
    let t := (s.setWait st none).setPc st (s.pcOf st - 1)
    match st with
    | .main => t.modIssue fun i => { i with count := i.count - 1 }
    | .edge => t

/-- A RESTITCH starts (R340, R341): `auto` on a PIPE_FAULT, which discards an aborted bundle and one that waits; one that
is requested lets them write back. -/
def State.startRestitch (s : State) (auto : Bool) : State :=
  if s.trouble.restitchBusy then s
  else
    let load := s.mainLoads.head?
    let t := if auto then (s.discardWait .main).discardWait .edge else (s.abandonWait .main).abandonWait .edge
    let inexact := auto && t.youngerDone != 0
    let u := t.modIssue fun i =>
      { i with
        running := false, dirLatch := none
        reason := if i.running then .restitch else i.reason
        stop := if !i.running || load.isSome then none else some .restitch
        stopPc := match load with | some x => x.index | none => i.stopPc }
    let d : State := { u with xfers := u.xfers.filter fun x => !x.op.isLoad, clock := { u.clock with pendings := [] } }
    let v := (((if auto then d.retryOver else d).abortRun .stopped).clearAccPort).modTrouble fun x =>
      { x with restitchBusy := true, lastRestitch := if auto then 2 else 1 }
    v.markIf inexact 14 13

/-- A RESTITCH completes once an aborted bundle and the structural activity that ran have ended (R341): a wait or a
load that the re-execution of that bundle began is abandoned with the others, as are the pricking starts that fell due
meanwhile, the direction latch is empty, and ACC_PORT_EN is 0 (R273). -/
def State.restitchDone (s : State) : State :=
  if !s.trouble.restitchBusy || !s.works || s.issue.retry.isSome || s.arb.running.isSome then s
  else
    let t := (s.abandonWait .main).abandonWait .edge
    let u := t.modIssue fun i =>
      { i with
        stop := none, dirLatch := none
        stopPc := if i.stop = some .restitch then
            (match t.mainLoads with | x :: _ => x.index | [] => i.pc % Config.programBundles)
          else i.stopPc }
    let v : State := { u with xfers := u.xfers.filter fun x => !x.op.isLoad, clock := { u.clock with pendings := [] } }
    (v.clearAccPort.modTrouble fun x => { x with restitchBusy := false }).arbNext

/-- PIPE_FAULT (R330). -/
def State.pipeFault (s : State) : State := if s.works then (s.mark 14 5).startRestitch true else s

/-- TROUBLE.CTRL.RESTITCH, ignored at rest (R340, R397). -/
def State.restitchRequest (s : State) : State := if s.works then s.startRestitch false else s

end Sys2Proof.Machine
end

