-- ==== Sys2Proof/Machine/Clock.lean ====
section
/-!
DEFINITION. The step clock and the pricking table: frames (R312 to R315), marks and their effects (R169,
R178, R179, R288, R296, R299, R301, R306 to R309, R316, R317, R353, R377), the freeze (R307), REJOIN (R358), the commit walk
(R178, R180) and pricking starts (R318 to R322).
-/

namespace Sys2Proof.Machine

def State.modClock (s : State) (f : ClockUnit → ClockUnit) : State := { s with clock := f s.clock }

/-! ### The pricking table -/

/-- Word `k` of entry `i` (R318). -/
def State.entryWord (s : State) (i k : Nat) : Word := s.reg 11 (0x400 + 16 * i + 4 * k)

/-- Why an entry may not be VALID (R318, R319, R450); 0 when it may. -/
def entryReason (ctl when_ arg : Word) : Nat :=
  let period := bits when_ 31 16
  let a := bits arg 11 0
  let ok : Option Bool :=
    match bits ctl 27 24 with
    | 0 | 4 | 5 | 7 => some (a == 0)
    | 1 => some (a < 8 && a != 6)
    | 3 => some (a < 16)
    | 6 => some (a < 4)
    | _ => none
  if period = 0 then 1
  else if bits when_ 15 0 ≥ period then 2
  else
    match ok with
    | none => 3
    | some b => if b then 0 else 4

/-- A write to word `k` of entry `i`: it may cost VALID, and CTL and WHEN cancel the pending start (R318,
R322). -/
def State.writeEntry (s : State) (i k : Nat) (v : Word) : State :=
  let w := if k = 0 then v &&& 0xAFFFFFFF else if k = 2 then v &&& 0xFFF else v
  let t := s.setReg 11 (0x400 + 16 * i + 4 * k) w
  let u := if k = 2 then t else t.modClock fun c => { c with pendings := c.pendings.filter fun p => p.entry != i }
  let why := entryReason (u.entryWord i 0) (u.entryWord i 1) (u.entryWord i 2)
  if (u.entryWord i 0).getLsbD 31 && why ≠ 0 then
    (u.setReg 11 (0x400 + 16 * i) (u.entryWord i 0 &&& 0x7FFFFFFF)).modClock fun c =>
      { c with refused := BitVec.ofNat 32 (2 ^ 31 + i * 2 ^ 16 + why) }
  else u

/-- A start dropped (R321). -/
def State.prickSkip (s : State) : State := (s.mark 11 6).bump .skip 1

/-- An entry that matches is scheduled; an earlier pending start of it is dropped (R320, R322). -/
def State.schedule (s : State) (i : Nat) : State :=
  let had := s.clock.pendings.any fun p => p.entry == i
  (if had then s.prickSkip else s).modClock fun c =>
    { c with pendings := (c.pendings.filter fun p => p.entry != i) ++ [⟨i, true⟩] }

/-- The entries that match a mark (R320). -/
def State.matchEntries (s : State) (code : Nat) (step : BitVec 48) : State :=
  (List.range 64).foldl (fun (t : State) i =>
    let c := t.entryWord i 0
    let w := t.entryWord i 1
    if c.getLsbD 31 && bits c 23 20 == code && step.toNat % bits w 31 16 == bits w 15 0 then t.schedule i else t) s

/-- A scrub of one hoop starts; whether it was already running (R319, R321). -/
def State.startScrub (acc : State × Bool) (h : Nat) : State × Bool :=
  let s := acc.1
  if !s.hoopPresent h then acc
  else if s.clock.scrubs.any fun p => p.1 == h then (s, true)
  else (s.modClock fun c => { c with scrubs := c.scrubs ++ [(h, 0)] }, acc.2)

/-- The structural activity that runs. -/
def State.runningAct (s : State) : Option Act := s.arb.running.map (·.act)

/-- The proofing that runs is that of `a`, or proofs a spare panel that `a` names (R319, R321). -/
def State.proofRuns (s : State) (a : Nat) : Bool :=
  match s.runningAct with
  | some (.proofing b) => b == a || (proofPanels a).any (proofPanels b).contains
  | _ => false

/-- The activity of an entry starts, or is dropped where it already runs (R319, R321). -/
def State.startEntry (s : State) (i : Nat) : State :=
  let a := bits (s.entryWord i 2) 11 0
  match bits (s.entryWord i 0) 27 24 with
  | 1 =>
    let r := (if a = 7 then List.range 6 else [a]).foldl State.startScrub (s, false)
    if r.2 then r.1.prickSkip else r.1
  | 3 => s.requestSwap a
  | 4 => if s.trouble.copying.isSome then s.prickSkip else s.startSnap
  | 5 => if s.mirror.op.isSome then s.prickSkip else s.startFlush
  | 6 => if s.proofRuns a then s.prickSkip else s.startStruct ⟨.proofing a, .pricking i⟩
  | 7 => if s.runningAct = some .staged then s.prickSkip else s.startStaged (.pricking i)
  | _ => s

/-- A pending start falls due (R320, R321); a ONESHOT entry loses VALID. -/
def State.prickingStart (s : State) (i : Nat) : State :=
  if s.works && s.clock.pendings.any fun p => p.entry == i then
    let t := s.modClock fun c => { c with pendings := c.pendings.filter fun p => p.entry != i }
    let c := t.entryWord i 0
    let u := if c.getLsbD 29 then t.setReg 11 (0x400 + 16 * i) (c &&& 0x7FFFFFFF) else t
    u.startEntry i
  else s

/-! ### Marks -/

/-- The effects of ABORT (R179, R299, R301, R316, R322, R353). While the walk of a COMMIT is due the staged fields are
the committed step's, since no scaled CVT has issued after it (R180): the walk applies them and clears them (R178,
R313). -/
def State.abortEffects (s : State) : State :=
  let step := s.twist.step
  let u := if s.scale.walkDue.isEmpty then s.mapSlots ScaleSlot.unstage else s
  let t := (u.freeArrivals.resetPlan).abortHalf step
  t.modClock fun c =>
    { c with phase := 6, isOpen := false, lastAbort := some step, frozenGuard := none, freezeDue := false
             pendings := c.pendings.filter fun p => !p.inStep }

/-- What STEP_OPEN and REJOIN share (R296, R297, R299, R306, R316, R346, R358, R377). -/
def State.openStep (s : State) (step : BitVec 48) : State :=
  let t : State :=
    { s with
      twist := { s.twist with step := step }
      trouble := { s.trouble with guardBit := false }
      net := { s.net with rcount := 0 }
      partner := { s.partner with recentPrev := s.partner.recent, recent := [] }
      clock := { s.clock with isOpen := true, phase := 0, frozen := false, freezeDue := false, frozenGuard := none } }
  ((((t.spend 0).mirrorOpen).resetPlan).wakeHeld).runPlan

/-- The staged seeds go live (R168). -/
def State.liveSeeds (s : State) : State :=
  if s.twist.pending then
    { s with twist := { s.twist with s0 := s.twist.staged0, s1 := s.twist.staged1, pending := false } }
  else s

/-- The effects of STEP_OPEN (R316, R317). -/
def State.markOpen (s : State) (step : BitVec 48) : State :=
  let t := if s.stepOpen then s.abortEffects.mark 11 2 else s
  let c := t.clock
  let gap := (c.lastCommit.isSome || c.lastAbort.isSome) && c.lastCommit.map (· + 1) != some step &&
    c.lastAbort != some step
  let u := (t.markIf gap 11 4).modClock fun c =>
    { c with pendings := c.pendings.map fun p => { p with inStep := false } }
  (u.openStep step).liveSeeds

/-- FWD, BWD and EXCH (R316). -/
def State.markPhase (s : State) (code : Nat) : State :=
  (s.markIf (code < s.clock.phase.toNat) 11 2).modClock fun c => { c with phase := BitVec.ofNat 4 code }

/-- UPDATE: the guard freeze begins (R307, R316). -/
def State.markUpdate (s : State) : State :=
  s.modClock fun c => { c with phase := 4, freezeDue := true, frozen := true }

/-- COMMIT (R178, R288, R309, R316, R353). -/
def State.markCommit (s : State) : State :=
  let step := s.twist.step
  let t := (s.markIf (!s.clock.frozen) 11 2).markIf (s.guardReads || (s.sticky 14).getLsbD 9) 14 10
  let u : State :=
    { t with
      mirror := { t.mirror with parity := !t.mirror.parity }
      scale := { t.scale with walkDue := t.scale.walkDue ++ [step] }
      clock := { t.clock with phase := 5, isOpen := false, lastCommit := some step, frozenGuard := none
                              freezeDue := false } }
  u.commitHalf step

/-- Whether the table of R316 accepts a code. -/
def State.markOk (s : State) (code : Nat) : Bool :=
  match code with
  | 1 | 2 | 3 | 5 | 6 => s.stepOpen
  | 4 => s.stepOpen && !s.clock.frozen
  | _ => true

/-- WAIT kind 2 sees a mark (R108, R316). -/
def State.waitMark (s : State) (code : BitVec 4) : State :=
  s.modIssue fun i => { i with wait := i.wait.map fun w => if w.kind = .mark code then { w with met := true } else w }

/-- A mark by its code (R316, R317, R320). -/
def State.applyMark (s : State) (f : Frame) : State :=
  let code := f.code.toNat
  if 1 ≤ code && code ≤ 6 && f.step != s.twist.step then (s.mark 11 3).bump .mismatch 1
  else if !s.markOk code then (s.mark 11 2).waitMark f.code
  else
    let t :=
      match code with
      | 0 => s.markOpen f.step
      | 1 | 2 | 3 => s.markPhase code
      | 4 => s.markUpdate
      | 5 => s.markCommit
      | 6 => s.abortEffects
      | 7 => s.modClock fun c => { c with phase := 7 }
      | _ => s
    let u := (t.waitMark f.code).modClock fun c =>
      { c with lastCode := f.code, lastSeq := f.seq, lastStep := f.step }
    u.matchEntries code (if code = 0 then f.step else u.twist.step)

/-- SEQ of an accepted frame (R314). -/
def State.takeSeq (s : State) (seq : BitVec 8) : State :=
  let t :=
    match s.clock.expSeq with
    | some e => if seq = e then s else (s.mark 11 1).bump .markLost (seq - e).toNat
    | none => s
  t.modClock fun c => { c with expSeq := some (seq + 1), seqSeen := seq, quiet := false }

/-- A frame that passed its check: tracked, and applied unless the engine is at rest (R397). -/
def State.acceptFrame (s : State) (f : Frame) : State :=
  let t := s.takeSeq f.seq
  if t.works then t.applyMark f else t.mark 11 7

/-- A frame of the cluster's step clock whose mark is `code` (R312, R457). -/
def State.receive (s : State) (f : Frame) (ok : Nat → Bool) : State :=
  if !s.up || !ok f.code.toNat || s.testLocal then s
  else if Frame.check f ≠ f.crc.toNat then s.mark 11 0
  else s.acceptFrame f

/-- No frame for MARK_LIMIT (R315). -/
def State.clockQuiet (s : State) : State :=
  if s.up && !s.clock.quiet && bits (s.reg 11 0x040) 15 0 ≠ 0 then (s.modClock fun c => { c with quiet := true }).mark 11 5
  else s

/-! ### The freeze and the walk -/

/-- The guard is frozen (R307). -/
def State.guardFreeze (s : State) : State :=
  if s.works && s.clock.freezeDue && s.issue.retry.isNone then
    s.modClock fun c => { c with freezeDue := false, frozenGuard := some s.trouble.guardBit }
  else s

/-- The commit walk of the oldest COMMIT that has had none (R178, R189): every valid slot in index order. It waits for
an aborted bundle, and not for an SCLD or SCST still outstanding, which takes effect at its completion (R181;
DEDUCED, log 55). -/
def State.commitWalk (s : State) : State :=
  match s.scale.walkDue with
  | step :: due =>
    if s.up && !s.scale.walkBusy && s.issue.retry.isNone then
      let t := s.slotErrs.mapSlots fun x => if x.valid then x.walk else x
      { t with scale := { t.scale with walkDue := due, walkBusy := true, walkStep := step } }
    else s
  | [] => s

/-- The commit walk ends, and the writes of slots that it held are made (R180). -/
def State.commitWalkEnd (s : State) : State :=
  if s.up then ({ s with scale := { s.scale with walkBusy := false } } : State).releaseHeld else s

/-! ### REJOIN -/

/-- The step of MIRROR.REJOIN_STEP. -/
def State.rejoinStep (s : State) : BitVec 48 := BitVec.ofNat 16 (bits (s.reg 10 0x050) 15 0) ++ s.reg 10 0x04C

/-- REJOIN (R358). -/
def State.rejoin (s : State) : State :=
  if !s.works then s.storeBusy 10
  else if s.stepOpen || s.issue.running then s.mark 10 5
  else
    (s.openStep s.rejoinStep).modClock fun c => { c with phase := 4, frozen := true, frozenGuard := some false }

end Sys2Proof.Machine
end

