-- ==== Sys2Proof/Machine/Reset.lean ====
section
/-!
DEFINITION. Resets that end a session (R387 to R394), loss of power (R363), and rest states (R395 to R398).
-/

namespace Sys2Proof.Machine

/-! ### Resets -/

/-- Precedence of a reset kind (R388). -/
def ResetKind.rank : ResetKind → Nat
  | .pwr => 3
  | .pkg => 2
  | .blk => 1

/-- LAST_RESET of a reset kind (R392). -/
def ResetKind.code : ResetKind → BitVec 2
  | .pwr => 0
  | .pkg => 1
  | .blk => 2

/-- The reset state with what lies outside the engine kept: the waiting commands, the engine's place, fabric
memory and what it has sent. -/
def State.fresh (s : State) : State :=
  { State.reset with
    pending := s.pending, wz := s.wz, package := s.package, fabric := s.fabric, mmioOut := s.mmioOut
    maskOut := s.maskOut, outbox := s.outbox }

/-- The reset state of PKG, BLK and exit from REST3: the IDENT page and CAP_GEN are kept (R393, R394), and so
is the mailbox, which control core d holds (R25). A field that R393 lists in no group takes its PWR value: WRITER of
the other pages, the ADDR and selector registers, MASKCTL, CAUSAL_OFS, DROP, CE_LIMIT, IRQ_ROUTE and their like
(DESIGN CHOICE, log 50). -/
def State.freshKeep (s : State) (code : BitVec 2) : State :=
  let f := s.fresh
  { f with lastReset := code, capGen := s.capGen, restRefused := s.restRefused
           pages := f.pages.setIfInBounds 0 (s.page 0)
           issue := { f.issue with mailbox := s.issue.mailbox } }

/-- A reset takes over unless one of equal or higher precedence runs (R388). -/
def State.takesReset (s : State) (k : ResetKind) : Bool :=
  match s.resetting with
  | some j => j.rank < k.rank
  | none => true

/-- The transfers and records that a BLK reset still completes (R390); scrubs and measurements end with the rest. -/
def State.blkKeep (s : State) : State :=
  { s with
    xfers := s.xfers.filter fun x => !x.op.isLoad
    issue := { s.issue with running := false, stop := none, wait := none, retry := none, posts := [] }
    edging := { s.edging with run := none, compl := none, trig := [], tiles := [] }
    net := { s.net with slots := Vector.replicate 16 none, gones := [] }
    arb := Arbiter.reset
    clock := { s.clock with scrubs := [], pendings := [] }
    keys := { s.keys with requested := [], sending := none, awaiting := [], stale := [] }
    trouble := { s.trouble with restitchBusy := false }
    outbox := s.outbox ++ s.edging.tiles.map fun t => .tileRelease t.tag }

/-- A power-on reset starts, and the package holds it (R389). -/
def State.pwrReset (s : State) : State :=
  if s.takesReset .pwr then { s.fresh with resetting := some .pwr, resetHeld := true } else s

/-- A package reset starts, and the package holds it: everything but IDENT is at its reset value, and the figures
follow when the reset completes (R389, R393, R394). -/
def State.pkgReset (s : State) : State :=
  if s.powered && s.takesReset .pkg then
    let f := s.freshKeep s.lastReset
    { f with resetting := some .pkg, resetHeld := true, panelMap := s.panelMap, panels := s.panels
             hoopMeta := { f.hoopMeta with present := s.hoopMeta.present, spare := s.hoopMeta.spare }
             motif := { f.motif with spares := s.motif.spares }
             scale := { f.scale with spareFree := s.scale.spareFree } }
  else s

/-- What happens by itself where no command waits: the package releases a reset that it holds (R389), and arrivals that
a full trigger queue held go on as far as it has room now (R246, R283; log 2). -/
def State.tick (s : State) : State :=
  if s.resetHeld then { s with resetHeld := false }
  else if s.works then State.settle s s.runPlan
  else s

/-- A block reset starts (R390). -/
def State.blkReset (s : State) : State :=
  if s.powered && s.takesReset .blk then
    { s.blkKeep with resetting := some .blk, rest := .run, transit := none }
  else s

/-- A reset, released by then, completes and a roll call starts (R389, R390, R393, R394). -/
def State.resetComplete (s : State) : State :=
  match s.resetting with
  | none => s
  | some .pwr => { s.fresh with lastReset := 0 }
  | some k =>
    if k = .blk && !(s.xfers.isEmpty && s.net.outQ.isEmpty) then s else s.freshKeep k.code

/-- The core rail loses power (R363): nothing in the engine survives. -/
def State.powerLoss (s : State) : State := { s.fresh with powered := false }

/-! ### Rest -/

/-- The depth of a rest state. -/
def Rest.depth : Rest → Nat
  | .run => 0
  | .rest1 => 1
  | .rest2 => 2
  | .rest3 => 3

def Rest.ofReq (r : BitVec 2) : Rest :=
  match r.toNat with
  | 0 => .run
  | 1 => .rest1
  | 2 => .rest2
  | _ => .rest3

/-- The first failing condition of R395 (R425), 0 for none. -/
def State.restBlocked (s : State) : Nat :=
  let a := s.arb
  if s.issue.running || s.edging.run.isSome || s.edging.compl.isSome || !s.edging.trig.isEmpty ||
      !s.edging.tiles.isEmpty then 1
  else if s.stepOpen then 2
  else if a.running.isSome || !a.queue.isEmpty || !a.darns.isEmpty || !a.heldHoops.isEmpty || !a.heldSlots.isEmpty ||
      s.motif.slots.toList.any (·.pending) || s.xfers.any (fun x => match x.op with | .tbld .. => true | _ => false) ||
      !s.keys.requested.isEmpty || s.keys.sending.isSome || !s.keys.awaiting.isEmpty then 3
  else if !s.mirror.queue.isEmpty || !s.mirror.descs.isEmpty || s.mirrorBusy then 4
  else if s.outstanding ≠ 0 then 5
  else 0

def State.refuseRest (s : State) (why : Nat) : State := { s with restRefused := BitVec.ofNat 4 why }

/-- The TEST page closes (R457). -/
def State.closeTest (s : State) : State :=
  let t := { s with testEnable := false, testLocal := false }
  let u := t.setReg 15 0x040 (t.reg 15 0x040 &&& 0x7FFFFFF0)
  if s.testLocal then u.modClock fun c => { c with expSeq := none } else u

/-- Entry to a rest state: pending starts and scrubs are dropped, and before REST2 and REST3 the held exchange
records are freed (R396, R457). -/
def State.enterRest (s : State) (r : Rest) : State :=
  let t := (s.modClock fun c => { c with pendings := [], scrubs := [] }).closeTest
  let u := if r.depth ≥ 2 then t.freeArrivals else t
  u.modIssue fun i => { i with dirLatch := none }

/-- A write of REST_CTRL.REQ (R395, R396). -/
def State.restRequest (s : State) (req : BitVec 2) : State :=
  let r := Rest.ofReq req
  if s.resetting.isSome || s.trouble.restitchBusy then s
  else if s.transit.isSome then s.refuseRest 7
  else if r = .run then
    if s.rest = .run then s.refuseRest 0 else { s with transit := some .run, restRefused := 0 }
  else if s.rest ≠ .run && r.depth ≤ s.rest.depth then s.refuseRest 6
  else
    let why := s.restBlocked
    if why ≠ 0 then s.refuseRest why else { s.enterRest r with transit := some r, restRefused := 0 }

/-- A slot after REST2: leaf A is active, and leaves lost for good stay lost (R212, R393). -/
def MotifSlot.afterRest (x : MotifSlot) : MotifSlot := { MotifSlot.reset with lostA := x.lostA, lostB := x.lostB }

/-- What an exit from REST2 resets (R393). -/
def State.afterRest2 (s : State) : State :=
  { s with
    ctx := Ctx.reset, masks := masksReset, carries := Vector.replicate 4 Carry.reset
    motif := { s.motif with loadSeq := 0, slots := s.motif.slots.map MotifSlot.afterRest }
    ecc := s.ecc.filter fun e => e.target != .leaf }

/-- A roll call put off at rest starts; ACC_PORT_EN is 0 during it (R273, R397). -/
def State.restRoll (s : State) : State :=
  if s.partner.rollPending && !s.partner.rollBusy then
    s.clearAccPort.modPartner fun p => { p with rollBusy := true, rollPending := false, probeAbsent := [] }
  else s

/-- Zeroisation at the entry to REST3 (R386, R396): hoops with their check bits, the mirror queue and descriptor
buffer, the records held by the network port, mirror records among them, the keys; sealed mode ends (R385, R387). -/
def State.zeroise (s : State) : State :=
  { s with
    hoops := [], ecc := s.ecc.filter fun e => e.target != .hoop, keys := SealUnit.reset
    mirror := { s.mirror with queue := [], descs := [], rxHeld := [] }
    net := { s.net with slots := Vector.replicate 16 none, outQ := [], gones := [] } }

/-- The engine runs again after REST1 or REST2: the direction latch is empty, and a roll call put off starts (R393,
R397). -/
def State.restExit (s : State) : State :=
  ({ s.restRoll with rest := .run, transit := none } : State).modIssue fun i => { i with dirLatch := none }

/-- A transition ends (R393, R396). -/
def State.restDone (s : State) : State :=
  if !s.powered || s.resetting.isSome then s
  else
    match s.transit with
    | none => s
    | some .run =>
      match s.rest with
      | .rest3 => s.freshKeep 3
      | .rest2 => s.afterRest2.restExit
      | _ => s.restExit
    | some .rest3 => { s.zeroise with rest := .rest3, transit := none }
    | some r => { s with rest := r, transit := none }

end Sys2Proof.Machine
end

