-- ==== Sys2Proof/Machine/Control.lean ====
section
/-!
DEFINITION. Start and stop of issue (R45, R110, R114, R119, R427, R428), the ends of waits (R108, R116),
direction words (R25, R117), picots (R115), key loads and sealed mode (R375, R384, R385).
-/

namespace Sys2Proof.Machine

/-! ### Start and stop -/

/-- ISSUE.CTRL.GO (R45, R397, R427): under ENGINE_DOWN every request to start issue is refused and reported, during a
RESTITCH too. -/
def State.goIssue (s : State) : State :=
  if !s.works then s.storeBusy 1
  else if s.issue.running then s
  else if s.trouble.engineDown then s.modIssue fun i => { i with goRefused := true }
  else if s.trouble.restitchBusy then s
  else
    s.modIssue fun i =>
      { i with running := true, goRefused := false, pc := bits (s.reg 1 0x040) 10 0, stop := none, wait := none }

/-- ISSUE.CTRL.STOP (R119): a waiting WAIT or WAITDIR is abandoned, under a stop that is already pending too. -/
def State.stopIssue (s : State) : State :=
  if s.issue.running then
    (s.abandonWait .main).modIssue fun i => { i with stop := some (i.stop.getD .hostStop) }
  else s

/-- A pending stop takes effect once everything earlier has completed, a WAIT that waits included (R114). -/
def State.issueStop (s : State) : State :=
  match s.issue.stop with
  | none => s
  | some why =>
    let again : Bool := match s.issue.retry with | some r => r.stream == .main | none => false
    let late := s.xfers.any (fun x => x.stream == .main) || s.net.outQ.any (fun o => !o.mirror && o.stream == .main) ||
      s.issue.posts.any fun p => p.stream == .main
    if !s.works || !s.issue.running || again || late || s.issue.wait.isSome then s
    else
      s.modIssue fun i =>
        { i with running := false, stop := none, dirLatch := none, reason := why
                 stopPc := if why = .hostStop then i.pc else i.stopPc }

/-! ### Waits -/

/-- The condition of a waiting WAIT is met (R108); an unlimited wait of kind 3 ends by its own count. -/
def State.waitMet (s : State) (w : Wait) : Bool :=
  match w.kind with
  | .fabric n => n == 0
  | .bobbin => s.queueTile
  | .mark _ => w.met
  | .cycles => true
  | .dir => false

/-- WAIT_END: a WAIT ends with SD = 0 (R108). -/
def State.waitEnd (s : State) (st : Stream) : State :=
  match s.waitOf st with
  | some w => if s.executes && s.waitMet w then s.endWait st 0 else s
  | none => s

/-- WAIT_TIMEOUT: a WAIT of kind 0 to 2 reaches WAIT_LIMIT (R108). -/
def State.waitTimeout (s : State) (st : Stream) : State :=
  match s.waitOf st with
  | some w =>
    let limited : Bool := match w.kind with | .cycles => false | .dir => false | _ => true
    if s.executes && limited && !s.waitMet w then (s.endWait st 1).mark 1 6 else s
  | none => s

/-- DIR_TIMEOUT (R116). -/
def State.dirTimeout (s : State) : State :=
  match s.issue.wait with
  | some w => if s.executes && w.kind = .dir then (s.endWait .main (BitVec.allOnes 64)).mark 1 7 else s
  | none => s

/-- A direction word reaches the engine (R116, R117), at rest too (R397); an exit from rest empties the latch
(R393). -/
def State.directionWord (s : State) (w : Word) : State :=
  if !s.up then s
  else
    match s.issue.wait with
    | some ⟨.dir, sd, _⟩ => (s.setWait .main none).takeDir sd w
    | _ => (s.markIf s.issue.dirLatch.isSome 1 8).modIssue fun i => { i with dirLatch := some w }

/-- ISSUE.DIRWORD; a control-port word in the same cycle is taken in its place (R25). -/
def State.dirWordWrite (s : State) (w : Word) (sameCycle : Bool) : State :=
  if sameCycle then s.mark 1 9 else s.directionWord w

/-! ### Picots -/

/-- The oldest picot on its way reaches the mailbox, or is dropped (R115). -/
def State.picotPost (s : State) : State :=
  match s.issue.posts with
  | [] => s
  | p :: ps =>
    if !s.up then s
    else
      let t := s.modIssue fun i => { i with posts := ps }
      if t.issue.mailbox.length ≥ Config.mailbox then t.dropPicot p.stream p.sd
      else
        (t.modIssue fun i => { i with mailbox := i.mailbox ++ [⟨p.value, p.tag, p.index⟩] }).modCtx p.stream fun c =>
          c.setS p.sd 0

/-- Control core d consumes a mailbox entry (R115). -/
def State.mailboxTaken (s : State) : State := s.modIssue fun i => { i with mailbox := i.mailbox.tail }

/-! ### Keys and sealed mode -/

/-- A key load over the security port (R375, R397). -/
def State.keyLoad (s : State) (k : Nat) (key : BitVec 256) : State :=
  if !s.up then s
  else if k < 2 && (s.key k).state ≠ .empty then s.mark 13 0
  else s.setKey k { state := .live, key := key, lastStep := none }

/-- Sealed mode is asserted; the whole TEST page returns to its reset values (R384, R397). -/
def State.seal (s : State) : State :=
  if !s.up then s
  else
    let t := s.closeTest
    let u := [0x040, 0x044, 0x048, 0x04C].foldl (fun (v : State) o => v.setReg 15 o 0) t
    { u.setPage 15 (PageHdr.reset 15) with keys := { u.keys with isSealed := true } }

/-- A deassertion outside a session-ending reset (R385). -/
def State.unseal (s : State) : State := if s.up then s.mark 13 5 else s

end Sys2Proof.Machine
end

