-- ==== Sys2Proof/Machine/Reads.lean ====
section
/-!
DEFINITION. Register reads: the live value of every register of the sixteen pages (R419 to R457), the pair
capture of R12, and the reads of arrays and of the darn log (R337, R384, R424, R431).
-/

namespace Sys2Proof.Machine

/-! ### Codes -/

def StopReason.code : StopReason → Nat
  | .never => 0
  | .halt => 1
  | .hostStop => 2
  | .pcEnd => 3
  | .illegal => 4
  | .hoopGone => 5
  | .hoopUe => 6
  | .leafUe => 7
  | .laneHard => 8
  | .progUe => 9
  | .restitch => 10
  | .edgeLent => 11
  | .netLent => 12

def EW.code : EW → Nat
  | .w8 => 0
  | .w16 => 1
  | .w32 => 2

def PanelState.code : PanelState → Nat
  | .inService => 0
  | .spare => 1
  | .retired => 2
  | .bad => 3

def LeafState.code : LeafState → Nat
  | .empty => 0
  | .loading => 1
  | .checked => 2
  | .ready => 3
  | .bad => 4

def RunStatus.code : RunStatus → Nat
  | .ok => 0
  | .rowDone => 1
  | .rowOpen => 2
  | .rowOrder => 3
  | .bankBusy => 4
  | .rowLong => 5
  | .illegal => 6
  | .hoopGone => 7
  | .gone => 8
  | .overrun => 9
  | .stopped => 10
  | .noRun => 15

def HalfState.code : HalfState → Nat
  | .empty => 0
  | .isOpen => 1
  | .folding => 2
  | .folded => 3
  | .discarded => 4
  | .damaged => 5

def KeyState.code : KeyState → Nat
  | .empty => 0
  | .live => 1
  | .spent => 2

def MirrorOp.code : MirrorOp → Nat
  | .flush => 1
  | .baseCopy => 2
  | .restore => 3
  | .fold => 4

def Image.code : Image → Nat
  | .invalid => 0
  | .filling => 1
  | .valid => 2

def StoreVerdict.code : StoreVerdict → Nat
  | .none => 0
  | .awaited => 1
  | .favourable => 2
  | .unfavourable => 3

/-- The sum of fields, each a value at a bit position. -/
def fields (l : List (Nat × Nat)) : Nat := l.foldl (fun acc p => acc + p.1 * 2 ^ p.2) 0

/-- Bit i for each true entry. -/
def bitMap (l : List Bool) : Nat := fields (l.zipIdx.map fun p => (p.1.toNat, p.2))

def lo32 {n : Nat} (v : BitVec n) : Nat := v.toNat % 2 ^ 32
def hi32 {n : Nat} (v : BitVec n) : Nat := v.toNat / 2 ^ 32

/-- Half of a 48-bit counter (R405). -/
def half48 (v : Nat) (hi : Bool) : Nat := if hi then v / 2 ^ 32 else v % 2 ^ 32

/-! ### Arrays behind ADDR and DATA (R424) -/

/-- The index of an ADDR register after its access. -/
def nextIndex (i size width : Nat) : Nat := if i + 1 = size then 0 else (i + 1) % 2 ^ width

/-- ADDR advanced when AUTOINC is set: the index is the low `width` bits above bit 0. -/
def State.advance (s : State) (p off size width : Nat) : State :=
  let a := s.reg p off
  if a.getLsbD 31 then
    let i := a.toNat % 2 ^ width
    s.setReg p off (BitVec.ofNat 32 (a.toNat - i + nextIndex i size width))
  else s

/-- HOOP_ADDR's index over slabs and words (R431). -/
def hoopIndex (a : Word) : Nat := bits a 16 12 * 1024 + bits a 11 2

def State.advanceHoop (s : State) : State :=
  let a := s.reg 3 0x040
  if a.getLsbD 31 then
    let i := hoopIndex a
    let j := if i = 17 * 1024 - 1 then 0 else (i + 1) % (32 * 1024)
    s.setReg 3 0x040 (BitVec.ofNat 32 (fields [(1, 31), (bits a 20 18, 18), (j / 1024, 12), (j % 1024, 2)]))
  else s

/-- The physical slab that HOOP_ADDR reaches: none beyond the array (R431). -/
def State.hoopSlot (s : State) : Option (Nat × Nat) :=
  let a := s.reg 3 0x040
  let h := bits a 20 18
  let k := bits a 16 12
  if h > 5 || k > 16 then none else some (h, s.physSlab h k)

/-- A read of HOOP_DATA (R51, R70, R73, R431). -/
def State.readHoop (s : State) : Word × State :=
  let i := bits (s.reg 3 0x040) 11 2
  match (if s.keys.isSealed then none else s.hoopSlot) with
  | none => (0, s.advanceHoop)
  | some (h, phys) =>
    let w := (h * 17 + phys) * 512 + i / 2
    let es := s.ecc.filter fun e => e.target == .hoop && e.word == w
    let t := es.foldl State.hoopErr s
    let v := BitVec.ofNat 32 (leNat (getBytes s.hoops (slabKey h phys + 4 * i) 4))
    (if es.any EccErr.hard then 0 else v, t.advanceHoop)

/-- A read of LEAF_DATA (R218, R424, R432). -/
def State.leafData (s : State) : Word :=
  let a := s.reg 4 0x048
  let l := (s.mslot (bits a 20 16)).leaf (a.getLsbD 12)
  if s.keys.isSealed || bits a 20 16 > 15 || l.state = .empty then 0 else l.word (bits a 11 0)

/-- A correctable error of the word that LEAF_DATA reads is corrected in storage (R216). -/
def State.leafSound (s : State) : State :=
  let a := s.reg 4 0x048
  let w := bits a 20 16 * 2192 + (if a.getLsbD 12 then 1096 else 0) + bits a 11 0 / 2
  if s.keys.isSealed || bits a 20 16 > 15 || bits a 11 0 ≥ Config.leafWords then s
  else s.dropEcc (s.ecc.filter fun e => e.target == .leaf && e.word == w && !e.hard)

/-- Entries of the stage that are not yet applied (R452). -/
def State.stageLeft (s : State) : Nat := (s.trouble.stage.filter fun p => bits p.2 31 28 != 0).length

/-- A read of LEDGER_DATA (R384, R424, R437). -/
def State.ledgerData (s : State) : Word :=
  let i := bits (s.reg 7 0x070) 9 0
  if s.keys.isSealed then 0 else ((s.entry (i / 4)).words[i % 4]?).getD 0

/-- A read of REACH_DATA (R442, R444). -/
def State.reachData (s : State) : Word :=
  let i := bits (s.reg 8 0x064) 9 0
  let own := s.package.toNat
  if i > 639 then 0
  else s.partner.reach.get 0 i ||| (if own / 32 = i then BitVec.ofNat 32 (2 ^ (own % 32)) else 0)

/-! ### Pages -/

def State.stickyWord (s : State) (p : Nat) : Nat := (s.sticky p).toNat

/-- IDENT (R425). -/
def State.peekIdent (s : State) (off : Nat) : Nat :=
  let n := s.wz.toNat
  let rest (r : Rest) : Nat := r.depth
  match off with
  | 0x00C => fields [(s.restRefused.toNat, 12), (if s.transit.isSome then 4 else rest s.rest, 8), (s.lastReset.toNat, 0)]
  | 0x040 => fields [(n, 16), (n / 32, 12), (n % 32, 0)]
  | 0x044 => 0x2101
  | 0x048 => fields [((s.panels.toList.filter (· == .spare)).length, 8), (s.active, 0)]
  | 0x04C => 64 * s.active
  | 0x050 => fields [(16, 24), (16, 16), (4096, 0)]
  | 0x054 => fields [(bitMap (s.hoopMeta.spare.toList.map (· == .free)), 8), (bitMap s.hoopMeta.present.toList, 0)]
  | 0x058 => fields [((s.motif.spares.toList.filter (· == .free)).length, 16), (64, 8), (16, 0)]
  | 0x05C => fields [(s.scale.spareFree, 16), (1024, 0)]
  | 0x060 => fields [(256, 16), (2048, 0)]
  | 0x064 => fields [(64, 24), (8, 16), (16, 8), (64, 0)]
  | 0x068 => Config.rowLimit
  | 0x06C => s.capGen.toNat
  | 0x070 => rest (s.transit.getD s.rest)
  | _ => 0

/-- ISSUE (R426). -/
def State.peekIssue (s : State) (off : Nat) : Nat :=
  let i := s.issue
  match off with
  | 0x00C => fields [(i.running.toNat, 31), (i.goRefused.toNat, 30), (i.wait.isSome.toNat, 29), (i.reason.code, 24)]
  | 0x044 => i.stopPc
  | 0x054 => if s.keys.isSealed then 0 else (s.pstore.get 0 (bits (s.reg 1 0x050) 13 0)).toNat
  | 0x058 => s.counter .picotDrop
  | _ =>
    if 0x100 ≤ off && off < 0x200 then
      let v := s.ctx.sreg (BitVec.ofNat 5 ((off - 0x100) / 8))
      if off % 8 = 0 then lo32 v else hi32 v
    else if 0x200 ≤ off && off < 0x300 then
      let d := s.ctx.descAt ((off - 0x200) / 16)
      match off % 16 with
      | 0 => lo32 d.base
      | 4 => hi32 d.base
      | 8 => d.pitch.toNat
      | _ => 0
    else (s.reg 1 off).toNat

/-- LANES (R429). PANELMAP shows the places of lost panels as gone under an aborted bundle too (R334). -/
def State.peekLanes (s : State) (off : Nat) : Nat :=
  match off with
  | 0x040 => fields [(s.ctx.ew.code, 16), (s.ctx.vl, 0)]
  | 0x044 => s.ctx.rowshape
  | 0x0D0 => fields ((s.panels.toList.take 16).zipIdx.map fun p => (p.1.code, 2 * p.2))
  | 0x0D4 => fields ((s.panels.toList.drop 16).zipIdx.map fun p => (p.1.code, 2 * p.2))
  | 0x0E0 => half48 (s.counter .perm) false
  | 0x0E4 => half48 (s.counter .perm) true
  | _ =>
    if 0x048 ≤ off && off < 0x068 then (s.ctx.stride ((off - 0x048) / 4)).toNat
    else if 0x080 ≤ off && off < 0x0A0 then
      let c := (s.carries[(off - 0x080) / 8]?).getD Carry.reset
      if off % 8 = 0 then c.value.toNat else fields [(c.valid.toNat, 31), (c.wide.toNat, 0)]
    else if 0x0C0 ≤ off && off < 0x0D0 then
      fields ((List.range 4).map fun b =>
        match s.workPanels[off - 0x0C0 + b]? with
        | some x => (0x80 + x, 8 * b)
        | none => (0, 8 * b))
    else 0

/-- A byte of SPAREMAP. -/
def spareByte : SpareSlab → Nat
  | .free => 0
  | .inUse k => 0x40 + k
  | .bad => 0x80

/-- HOOPS (R430). -/
def State.peekHoops (s : State) (off : Nat) : Nat :=
  let sp (h : Nat) : Nat := spareByte (s.hoopMeta.spare[h]?.getD .free)
  match off with
  | 0x00C =>
    match s.arb.running with
    | some ⟨.spareIn h k _, _⟩ => fields [(1, 31), (h, 20), (k, 16)]
    | _ => 0
  | 0x048 => s.counter .hoopCorr
  | 0x050 => s.hoopMeta.ueRecord.toNat
  | 0x054 => fields ((List.range 4).map fun h => (sp h, 8 * h))
  | 0x058 => fields [(sp 4, 0), (sp 5, 8)]
  | _ => (s.reg 3 off).toNat

/-- A slot's registers on the MOTIF page (R432). -/
def MotifSlot.word (x : MotifSlot) (k : Nat) : Nat :=
  match k with
  | 0 => fields [(x.pending.toNat, 30), (x.isSingle.toNat, 29), (x.isNoLeaf.toNat, 28), (x.active.toNat, 24),
      (x.reason.toNat, 16), (x.leafB.state.code, 8), (x.leafA.state.code, 0)]
  | 1 => x.leafA.tag.toNat
  | 2 => x.leafB.tag.toNat
  | _ => fields [(x.leafB.seq.toNat, 16), (x.leafA.seq.toNat, 0)]

/-- MOTIF (R432). -/
def State.peekMotif (s : State) (off : Nat) : Nat :=
  let g (x : SpareLeaf) : Nat := match x with | .free => 0 | .inUse _ => 1 | .bad => 2
  match off with
  | 0x00C =>
    match s.arb.running with
    | some ⟨.leafRepair i _, _⟩ => fields [(1, 31), (i, 16)]
    | _ => 0
  | 0x040 => s.motif.loadSeq.toNat
  | 0x044 => fields (s.motif.spares.toList.zipIdx.map fun p => (g p.1, 2 * p.2))
  | 0x04C => s.leafData.toNat
  | _ =>
    if 0x100 ≤ off && off < 0x200 then (s.mslot ((off - 0x100) / 16)).word (off % 16 / 4)
    else (s.reg 4 off).toNat

/-- SCALE (R434). -/
def State.peekScale (s : State) (off : Nat) : Nat :=
  let i := bits (s.reg 5 0x040) 10 0
  let x := s.slot i
  let hidden := s.keys.isSealed || i ≥ Config.scaleSlots
  let shown (v : Nat) : Nat := if hidden then 0 else v
  match off with
  | 0x00C => fields [(s.scale.walkBusy.toNat, 31), (s.scale.dupSlot.toNat, 16), (s.scale.missTid.toNat, 0)]
  | 0x044 => shown x.ctlWord.toNat
  | 0x048 => shown x.est.toNat
  | 0x04C => shown x.ageWord.toNat
  | 0x050 => shown x.kWord.toNat
  | 0x054 => shown x.obs.toNat
  | 0x058 => shown (fields [(x.pinned.toNat, 2), (x.ovf.toNat, 1), (x.used.toNat, 0)])
  | _ => (s.reg 5 off).toNat

/-- TWIST (R436). -/
def State.peekTwist (s : State) (off : Nat) : Nat :=
  match off with
  | 0x00C => s.twist.pending.toNat
  | 0x060 => lo32 s.twist.step
  | 0x064 => hi32 s.twist.step
  | 0x068 => s.ctx.tid.toNat
  | 0x06C => lo32 s.ctx.base
  | 0x070 => hi32 s.ctx.base
  | _ => 0

/-- EDGING (R437, R438). -/
def State.peekEdging (s : State) (off : Nat) : Nat :=
  let e := s.edging
  let hdrK (k : Nat) : Nat :=
    let b := s.bank k
    fields [(b.occ.toNat, 31), (b.long.toNat, 30), (b.binding, 26), (b.cols, 0)]
  match off with
  | 0x00C =>
    let r := e.run
    fields [(e.armReason, 28), (e.armBinding, 24), (e.trig.length, 16), (r.isSome.toNat, 15),
      ((r.map (·.binding)).getD 0, 12), (((r.map (·.completion)).getD false).toNat, 11), ((s.bank 1).occ.toNat, 9),
      ((s.bank 0).occ.toNat, 8), ((e.verdict == .favourable).toNat, 7)]
  | 0x054 => if s.keys.isSealed then 0 else (s.estore.get 0 (bits (s.reg 7 0x050) 10 0)).toNat
  | 0x060 => hdrK 0
  | 0x064 => (s.bank 0).band.toNat
  | 0x068 => hdrK 1
  | 0x06C => (s.bank 1).band.toNat
  | 0x074 => s.ledgerData.toNat
  | _ =>
    if 0x100 ≤ off && off < 0x300 then
      let b := (off - 0x100) / 64
      let x := s.bindRep b
      match off % 64 with
      | 0x0C => fields [(x.holdCap, 24), (s.rowLen b, 0)]
      | 0x20 => fields [(x.status.code, 28), (x.bundle, 0)]
      | 0x24 => x.lastTag.toNat
      | _ => (s.reg 7 off).toNat
    else (s.reg 7 off).toNat

/-- PARTNER (R442). -/
def State.peekPartner (s : State) (off : Nat) : Nat :=
  let p := s.partner
  let c := p.couplingHeld.getD p.coupling
  match off with
  | 0x00C => fields [(p.rollBusy.toNat, 31), (p.rollPending.toNat, 30), (p.couplingHeld.isSome.toNat, 29), (p.bindRefused, 24)]
  | 0x018 => fields [(c.queueUse.toNat, 4), (c.accPortEn.toNat, 0)]
  | 0x040 => p.rollGen.toNat
  | 0x044 => fields ([(p.buddyPresent.toNat, 14), (p.dram.toNat, 12), (p.core.toNat, 2), (p.me.toNat, 0)] ++
      p.sram.toList.zipIdx.map fun x => (x.1.toNat, 4 + 2 * x.2))
  | 0x048 => c.meSrc.toNat
  | 0x04C => fields [(p.buddy.isSome.toNat, 31), (p.buddyId.toNat, 0)]
  | 0x05C => s.counter .gone
  | 0x060 => s.counter .sendDiscard
  | 0x068 => s.reachData.toNat
  | _ => (s.reg 8 off).toNat

/-- NETPORT (R445). -/
def State.peekNet (s : State) (off : Nat) : Nat :=
  let n := s.net
  let map (f : Arrival → Bool) : Nat := bitMap (n.slots.toList.map fun x => (x.map f).getD false)
  match off with
  | 0x00C => fields [(n.rxEn.toNat, 31), (n.rxRefused.toNat, 30), (n.planNext, 24), (n.planEnd.toNat, 23),
      (s.arrivals.length, 16), (n.released, 0)]
  | 0x040 => fields [(n.rxEn.toNat, 31), (n.rxHoop.toNat, 0)]
  | 0x044 => half48 (s.counter .gcmpOvf) false
  | 0x048 => half48 (s.counter .gcmpOvf) true
  | 0x04C => s.counter .stale
  | 0x050 => fields [(map (·.released), 16), (map fun _ => true, 0)]
  | _ => (s.reg 9 off).toNat

/-- MIRROR (R447). -/
def State.peekMirror (s : State) (off : Nat) : Nat :=
  let m := s.mirror
  let logWord (p : Nat) : Nat := fields [((s.half p).state.code, 29), ((s.half p).index, 0)]
  match off with
  | 0x00C =>
    fields [(s.tied.toNat, 31), (m.gap.toNat, 30), (m.damaged.toNat, 29), (s.mirrorBusy.toNat, 28),
      ((m.opLast.map (·.code)).getD 0, 25), (m.opStatus, 20), (m.image.code, 16), (m.rxRestore, 13), (m.regReport.toNat, 0)]
  | 0x018 => (s.reg 10 0x018).toNat
  | 0x040 => m.parity.toNat
  | 0x068 => logWord 0
  | 0x06C => lo32 (s.half 0).step
  | 0x070 => hi32 (s.half 0).step
  | 0x074 => logWord 1
  | 0x078 => lo32 (s.half 1).step
  | 0x07C => hi32 (s.half 1).step
  | 0x080 => m.mseq.toNat
  | _ => (s.reg 10 off).toNat

/-- PRICKING (R318, R450). -/
def State.peekPrick (s : State) (off : Nat) : Nat :=
  let c := s.clock
  let due (i : Nat) : Bool := c.pendings.any fun p => p.entry == i
  match off with
  | 0x00C => fields [(c.isOpen.toNat, 31), (c.frozen.toNat, 30), (c.phase.toNat, 24), (c.lastCode.toNat, 16),
      (c.lastSeq.toNat, 8), (s.testLocal.toNat, 0)]
  | 0x044 => lo32 c.lastStep
  | 0x048 => hi32 c.lastStep
  | 0x04C => c.refused.toNat
  | 0x050 => s.counter .markLost
  | 0x054 => s.counter .mismatch
  | 0x058 => s.counter .skip
  | 0x060 => bitMap ((List.range 32).map due)
  | 0x064 => bitMap ((List.range 32).map fun i => due (32 + i))
  | _ =>
    if 0x400 ≤ off && off < 0x800 && off % 16 = 0 then
      fields [((due ((off - 0x400) / 16)).toNat, 30), ((s.reg 11 off).toNat, 0)]
    else (s.reg 11 off).toNat

/-- An activity word; `staged` is the number of stage entries not yet applied (R452). -/
def Start.word (staged : Nat) (x : Start) : Nat :=
  let (src, entry) : Nat × Nat := match x.src with | .engine => (0, 0) | .pricking e => (1, e) | .mmio => (2, 0)
  let (act, unit) : Nat × Nat :=
    match x.act with
    | .darning p => (1, p)
    | .spareIn h k _ => (2, h * 16 + k)
    | .staged => (3, staged)
    | .leafRepair i b => (4, i + (if b then 32 else 0))
    | .proofing a => (5, a)
  fields [(1, 31), (act, 28), (src, 26), (entry, 16), (unit, 0)]

/-- ARBITER (R451). -/
def State.peekArb (s : State) (off : Nat) : Nat :=
  let a := s.arb
  match off with
  | 0x00C => a.queue.length
  | 0x040 => (a.running.map (Start.word s.stageLeft)).getD 0
  | 0x054 =>
    bitMap ((List.range 16).map fun h => a.heldHoops.any fun x => match x with | .spareIn g _ _ => g == h | _ => false) +
      2 ^ 16 * bitMap ((List.range 16).map fun i =>
        a.heldSlots.any fun x => match x with | .leafRepair j _ => j == i | _ => false)
  | 0x058 => s.counter .refused
  | _ => if 0x044 ≤ off && off < 0x054 then ((a.queue[(off - 0x044) / 4]?).map (Start.word s.stageLeft)).getD 0 else 0

/-- SEAL (R453). -/
def State.peekSeal (s : State) (off : Nat) : Nat :=
  let k := s.keys
  match off with
  | 0x00C => fields ([(k.isSealed.toNat, 31), ((k.sending.isSome || !k.awaiting.isEmpty).toNat, 30), (k.requested.length + k.sending.isSome.toNat, 24)] ++
      k.keys.toList.zipIdx.map fun p => (p.1.state.code, 2 * p.2))
  | 0x044 => s.counter .sealFail
  | 0x048 => s.edging.verdict.code
  | _ => (s.reg 13 off).toNat

/-- FLAGS with FL_ANY (R400). -/
def State.flagsWord (s : State) : Nat :=
  let f := s.trouble.flags.toNat
  f * 16 + ((f % 16) ||| (f / 16 % 16) ||| (f / 256 % 16) ||| (f / 4096 % 16))

/-- Counters in the layout of R405 from a base offset: ten of 48 bits and the others of 32 bits. -/
def counterAt (v : Vector Nat 25) (wide : List Nat) (narrow : List Nat) (o : Nat) : Nat :=
  let w := 8 * wide.length
  if o < w then half48 ((wide[o / 8]?.bind fun i => v[i]?).getD 0) (o % 8 == 4)
  else ((narrow[(o - w) / 4]?.bind fun i => v[i]?).getD 0)

/-- TROUBLE (R404, R405, R410, R413, R454). -/
def State.peekTrouble (s : State) (off : Nat) : Nat :=
  let t := s.trouble
  match off with
  | 0x00C =>
    fields [(t.engineDown.toNat, 31), (t.laneHard.toNat, 30), (s.guardReads.toNat, 29), (t.restitchBusy.toNat, 28),
      (t.copying.isSome.toNat, 27), (t.lastRestitch.toNat, 25),
      (s.staging.toNat, 24), (t.skipValid.toNat, 23), (t.skipIndex, 16),
      (t.applyIgnored.toNat, 15), (t.darnLog.length, 0)]
  | 0x040 => s.flagsWord
  | 0x044 => t.first.toNat
  | 0x048 => lo32 t.firstStep
  | 0x04C => hi32 t.firstStep
  | 0x054 => fields [(s.partnerLine.toNat, 17), ((t.engineDown || t.laneHard).toNat, 16),
      (bitMap ((List.range 16).map s.asserting), 0)]
  | 0x058 => t.snapGen.toNat
  | 0x05C => lo32 t.snapStep
  | 0x060 => hi32 t.snapStep
  | 0x064 => t.laneErr.toNat
  | 0x068 => (t.darnLog.head?.map BitVec.toNat).getD 0
  | 0x070 => (t.stage.get 0 (bits (s.reg 14 0x06C) 5 0)).toNat
  | 0x074 => t.proofStatus.toNat
  | _ =>
    if 0x080 ≤ off && off < 0x0D4 then
      counterAt t.counters (List.range 8) [10, 11, 12, 13, 14] (off - 0x080)
    else if 0x100 ≤ off && off < 0x18C then
      counterAt t.snaps (List.range 10) ((List.range 15).map (10 + ·)) (off - 0x100)
    else (s.reg 14 off).toNat

/-- TEST (R384, R456). -/
def State.peekTest (s : State) (off : Nat) : Nat :=
  match off with
  | 0x00C => fields [(s.testEnable.toNat, 31), (((s.reg 15 0x040).getLsbD 31).toNat, 30), (s.testLocal.toNat, 29)]
  | 0x018 => fields [(s.testEnable.toNat, 31), (s.testLocal.toNat, 1)]
  | _ => if s.keys.isSealed then 0 else (s.reg 15 off).toNat

/-- The common header but PAGE_STATUS and PAGE_CTRL (R420). -/
def State.peekHeader (s : State) (p off : Nat) : Option Nat :=
  match off with
  | 0x000 => some (fields [(0x575A, 16), (s.wz.toNat, 8), (p, 0)])
  | 0x004 => some 1
  | 0x008 => some 0
  | 0x010 => some (s.stickyWord p)
  | 0x014 => some (s.page p).en.toNat
  | 0x01C => some (fields [((s.page p).refused.toNat, 16), ((s.page p).writer.toNat, 0)])
  | _ => none

/-- The live value of a register. -/
def State.peek (s : State) (p off : Nat) : Word :=
  BitVec.ofNat 32 (
    match s.peekHeader p off with
    | some v => v
    | none =>
      match p with
      | 0 => s.peekIdent off
      | 1 => s.peekIssue off
      | 2 => s.peekLanes off
      | 3 => s.peekHoops off
      | 4 => s.peekMotif off
      | 5 => s.peekScale off
      | 6 => s.peekTwist off
      | 7 => s.peekEdging off
      | 8 => s.peekPartner off
      | 9 => s.peekNet off
      | 10 => s.peekMirror off
      | 11 => s.peekPrick off
      | 12 => s.peekArb off
      | 13 => s.peekSeal off
      | 14 => s.peekTrouble off
      | _ => s.peekTest off)

/-! ### Accesses -/

/-- The page answers MMIO (R392, R397): in a PWR or PKG reset IDENT does once the package has released it. -/
def State.answers (s : State) (p : Nat) : Bool :=
  s.powered && (match s.resetting with
    | some .blk => p == 0
    | some _ => p == 0 && !s.resetHeld
    | none => p == 0 || !s.dark)

/-- The held write would change what the register shows (R51, R180, R230): a hoop word by whatever name its slab has
(R73, R430). -/
def State.heldHere (s : State) (p off : Nat) (x : HeldWrite) : Bool :=
  match x with
  | .carry c _ _ => p == 2 && 0x080 + 8 * c ≤ off && off < 0x088 + 8 * c
  | .hoop h k i _ =>
    let a := s.reg 3 0x040
    p == 3 && off == 0x044 && bits a 20 18 == h && s.physSlab h (bits a 16 12) == s.physSlab h k && bits a 11 2 == i
  | .slot i _ _ => p == 5 && 0x044 ≤ off && off < 0x05C && bits (s.reg 5 0x040) 10 0 == i
  | .inject t w _ =>
    let a := s.reg 3 0x040
    let h := bits a 20 18
    (t == .hoop && p == 3 && off == 0x044 &&
        (h * 17 + s.physSlab h (bits a 16 12)) * 512 + bits a 11 2 / 2 == s.injPlace t w) ||
      (t == .scale && p == 5 && 0x044 ≤ off && off < 0x05C && bits (s.reg 5 0x040) 10 0 == w / 2)

/-- A read that is held: of a slot of the SCALE page while the commit walk is due or runs (R180), and of whatever an
earlier write that is held will change, since the accesses of one path keep their order (R461). -/
def State.readHeld (s : State) (p off : Nat) : Bool :=
  (p == 5 && 0x044 ≤ off && off < 0x05C && s.walkHolds) || s.issue.held.any (s.heldHere p off)

/-- The register is the low word of a pair (R12). -/
def isLow (p off : Nat) : Bool :=
  match p with
  | 1 => (0x100 ≤ off && off < 0x200 && off % 8 == 0) || (0x200 ≤ off && off < 0x300 && off % 16 == 0)
  | 2 => off == 0x0E0
  | 6 => [0x040, 0x048, 0x050, 0x058, 0x060, 0x06C].contains off
  | 7 => 0x100 ≤ off && off < 0x300 && off % 64 == 0x14
  | 9 => off == 0x044
  | 10 => [0x04C, 0x054, 0x05C, 0x06C, 0x078].contains off || (0x400 ≤ off && off < 0x800 && off % 32 == 0x10)
  | 11 => off == 0x044
  | 14 => off == 0x048 || off == 0x05C || (0x080 ≤ off && off < 0x0C0 && off % 8 == 0) ||
      (0x100 ≤ off && off < 0x150 && off % 8 == 0)
  | 15 => off == 0x04C
  | _ => false

/-- What a read changes beyond the capture: arrays advance, a scale slot's errors are found, the darn log's
head leaves (R189, R337, R424). -/
def State.readEffect (s : State) (p off : Nat) : Word × State :=
  let v := s.peek p off
  match p, off with
  | 1, 0x054 => (v, s.advance 1 0x050 16384 14)
  | 3, 0x044 => s.readHoop
  | 4, 0x04C => (v, s.leafSound.advance 4 0x048 2192 12)
  | 7, 0x054 => (v, s.advance 7 0x050 2048 11)
  | 7, 0x074 => (v, s.advance 7 0x070 1024 10)
  | 8, 0x068 => (v, s.advance 8 0x064 640 10)
  | 14, 0x070 => (v, s.advance 14 0x06C 64 6)
  | 14, 0x068 => (v, s.modTrouble fun t => { t with darnLog := t.darnLog.tail })
  | 5, _ =>
    if 0x044 ≤ off && off < 0x05C then
      let i := bits (s.reg 5 0x040) 10 0
      let t := (s.ecc.filter fun e => e.target == .scale && e.word / 2 == i).foldl State.slotErr s
      (t.peek 5 off, t)
    else (v, s)
  | _, _ => (v, s)

/-- A read with the capture of R12. -/
def State.readReg (s : State) (p off : Nat) : Word × State :=
  let h := s.page p
  match h.capture with
  | some (o, v) =>
    if o = off then (v, s.setPage p { h with capture := none })
    else
      let r := s.readEffect p off
      if isLow p off then
        (r.1, r.2.setPage p { r.2.page p with capture := some (off + 4, s.peek p (off + 4)) })
      else r
  | none =>
    let r := s.readEffect p off
    if isLow p off then (r.1, r.2.setPage p { r.2.page p with capture := some (off + 4, s.peek p (off + 4)) }) else r

/-- An MMIO read: the word it returns is left in `mmioOut`, zero for any read but that of an aligned 32-bit word (R12,
R392, R397). -/
def State.mmioRead (s : State) (p off : Nat) (size : AccSize) : State :=
  if !s.answers p || size = .other || off % 4 ≠ 0 then { s with mmioOut := some 0 }
  else if s.readHeld p off then s
  else
    let r := s.readReg p off
    { r.2 with mmioOut := some r.1 }

end Sys2Proof.Machine
end

