-- ==== Sys2Proof/Machine/Writes.lean ====
section
/-!
DEFINITION. Register writes: who may write (R422), stopped and closed writes (R423, R441), the access codes
(R10, R11), arrays (R424, R431, R435, R439, R455), the TEST page (R457), and every register's own effect.
-/

namespace Sys2Proof.Machine

/-! ### Who may write -/

/-- WRITER admits the writer (R422). -/
def State.admits (s : State) (w : Writer) (p : Nat) : Bool :=
  let k := (s.page p).writer
  match w with
  | .host => k != 2
  | .coreD => k != 1
  | .otherCore => false

/-- A write that reaches a page: ignored where the page does not answer, refused by WRITER, or made (R392,
R397, R422). -/
def State.write (s : State) (w : Writer) (p : Nat) (f : State → State) : State :=
  if !s.answers p then s
  else if s.admits w p then f s
  else s.setPage p { s.page p with refused := true }

/-- An access to a DATA register: a read of it, or a write that has the effect `f` (R424). -/
def State.access (s : State) (a : Access) (p off : Nat) (f : State → Word → State) : State :=
  match a with
  | .read => s.mmioRead p off .word
  | .write w v => s.write w p fun s => f s v

/-- Issue is stopped, with no aborted bundle left, no edging run is active, and the engine is not at rest (R423). -/
def State.isStopped (s : State) : Bool :=
  !s.issue.running && s.issue.retry.isNone && s.edging.run.isNone && s.works

/-- A stopped write (R423). -/
def State.stoppedWrite (s : State) (p : Nat) (f : State → State) : State := if s.isStopped then f s else s.storeBusy p

/-- A closed write of the MIRROR page: not while an operation runs (R441, R449). -/
def State.mirrorClosed (s : State) (f : State → State) : State :=
  if s.stepOpen || s.mirrorBusy then s.storeBusy 10 else f s

/-- PAGE_LOCK (R420, R422): only the host writes it, whatever WRITER holds. -/
def State.writeLock (s : State) (w : Writer) (p : Nat) (v : Word) : State :=
  if !s.answers p || w ≠ .host then s
  else
    let h := s.page p
    s.setPage p { h with refused := h.refused && !v.getLsbD 16
                         writer := if bits v 1 0 = 3 then h.writer else BitVec.ofNat 2 (bits v 1 0) }

/-! ### ISSUE -/

/-- PSTORE_DATA (R118, R424). -/
def State.writePstore (s : State) (v : Word) : State :=
  s.stoppedWrite 1 fun s =>
    let i := bits (s.reg 1 0x050) 13 0
    (({ s with pstore := s.pstore.set 0 i v } : State).soundHalf .program i).advance 1 0x050 16384 14

/-- A 64-bit value with one 32-bit half replaced. -/
def putHalf (x : BitVec 64) (hi : Bool) (v : Word) : BitVec 64 :=
  if hi then v ++ x.extractLsb' 0 32 else x.extractLsb' 32 32 ++ v

/-- The ISSUE page's scalar and descriptor words (R426). -/
def State.writeContext (s : State) (off : Nat) (v : Word) : State :=
  s.stoppedWrite 1 fun s =>
    if off < 0x200 then
      let k := BitVec.ofNat 5 ((off - 0x100) / 8)
      s.modCtx .main fun c => c.setS k (putHalf (c.sreg k) (off % 8 == 4) v)
    else
      let n := (off - 0x200) / 16
      s.modCtx .main fun c =>
        let d := c.descAt n
        match off % 16 with
        | 0 => c.setDesc n { d with base := d.base.extractLsb' 32 16 ++ v }
        | 4 => c.setDesc n { d with base := v.extractLsb' 0 16 ++ d.base.extractLsb' 0 32 }
        | 8 => c.setDesc n { d with pitch := v }
        | _ => c

/-- ISSUE.PAGE_CTRL: the highest bit set acts (R427). -/
def State.issueCtrl (s : State) (v : Word) : State :=
  if v.getLsbD 31 then s.blkReset else if v.getLsbD 1 then s.stopIssue else if v.getLsbD 0 then s.goIssue else s

/-! ### LANES -/

/-- VL (R52, R429). -/
def State.writeVl (s : State) (v : Word) : State :=
  s.stoppedWrite 2 fun s =>
    let m := s.vlmax s.ctx.ew
    (s.modCtx .main fun c => { c with vl := min (bits v 12 0) m }).markIf (bits v 12 0 > m) 2 0

/-- ROWSHAPE (R56, R429). -/
def State.writeRowshape (s : State) (v : Word) : State :=
  s.stoppedWrite 2 fun s =>
    let m := s.vlmax s.ctx.ew
    (s.modCtx .main fun c => { c with rowshape := min (bits v 12 0) m }).markIf (bits v 12 0 > m) 2 1

/-- A stride register (R59, R429). -/
def State.writeStride (s : State) (j : Nat) (v : Word) : State :=
  s.stoppedWrite 2 fun s => s.modCtx .main fun c => c.setEs j v

/-- CY_VALUE and CY_CTL (R68, R230, R429): after the writeback of a scan that was issued before. -/
def State.writeCarry (s : State) (c : Nat) (ctl : Bool) (v : Word) : State := s.holdOr (.carry c ctl v)

/-! ### HOOPS -/

/-- HOOP_DATA (R51, R73, R424, R431). -/
def State.writeHoopData (s : State) (v : Word) : State :=
  let a := s.reg 3 0x040
  let i := bits a 11 2
  match s.hoopSlot with
  | none => s.advanceHoop
  | some (h, _) =>
    let sparing := match s.arb.running with | some ⟨.spareIn g k _, _⟩ => g == h && k == bits a 16 12 | _ => false
    if s.keys.isSealed || !s.hoopPresent h then s
    else if sparing then s.storeBusy 3
    else (s.holdOr (.hoop h (bits a 16 12) i v)).advanceHoop

/-- A register whose bit 31 is W1C. -/
def clearValid (x v : Word) : Word := if v.getLsbD 31 then x &&& 0x7FFFFFFF else x

/-! ### MOTIF -/

/-- SLOT_STATE.SWAP (R213, R397, R432). -/
def State.writeSwap (s : State) (i : Nat) : State := if s.works then s.requestSwap i else s.storeBusy 4

/-! ### SCALE -/

/-- A write to the slot that SLOT_SEL names, between two bundles and outside the walk (R180, R181, R397,
R434, R435); before that it is held. -/
def State.slotWrite (s : State) (r : SlotReg) (v : Word) : State :=
  let i := bits (s.reg 5 0x040) 10 0
  if !s.works then s.storeBusy 5
  else if i ≥ Config.scaleSlots then s
  else s.holdOr (.slot i r v)

/-! ### TWIST -/

/-- A live seed word or the twist step: only while issue is stopped and no run is active (R168, R169). -/
def State.seedWrite (s : State) (f : TwistUnit → TwistUnit) : State :=
  if s.issue.running || s.edging.run.isSome then s.mark 6 0 else { s with twist := f s.twist }

/-- A live seed word (R436). -/
def State.writeLive (s : State) (k : Nat) (v : Word) : State :=
  s.seedWrite fun t =>
    if k < 2 then { t with s0 := putHalf t.s0 (k == 1) v } else { t with s1 := putHalf t.s1 (k == 3) v }

/-- A staged seed word (R168). -/
def State.writeStaged (s : State) (k : Nat) (v : Word) : State :=
  let t := s.twist
  { s with twist :=
      if k < 2 then { t with staged0 := putHalf t.staged0 (k == 1) v, pending := true }
      else { t with staged1 := putHalf t.staged1 (k == 3) v, pending := true } }

/-- A word of the twist step (R169). -/
def State.writeStep (s : State) (hi : Bool) (v : Word) : State :=
  s.seedWrite fun t =>
    { t with step := if hi then v.extractLsb' 0 16 ++ t.step.extractLsb' 0 32 else t.step.extractLsb' 32 16 ++ v }

/-! ### EDGING -/

/-- The bits of a binding's word that a write stores (R438); none for words that are read-only. -/
def bindMask (k : Nat) : Option Word :=
  match k with
  | 1 => some 0xFF7FFF7F
  | 2 => some 0x7FF73FFF
  | 3 => some 0x001FFFFF
  | 4 => some 0xFFFFFFFF
  | 5 => some 0xFFFFFFFF
  | 6 => some 0x0000FFFF
  | 7 => some 0xFFFFFFFF
  | _ => none

/-- A binding's word other than B_CTL (R439). -/
def State.writeBind (s : State) (b k : Nat) (v : Word) : State :=
  match bindMask k with
  | none => s
  | some m => if s.armed b then s.storeBusy 7 else s.setReg 7 (0x100 + 64 * b + 4 * k) (v &&& m)

/-- ESTORE_DATA (R243, R383, R397, R424). -/
def State.writeEstore (s : State) (v : Word) : State :=
  if s.anyArmed || s.rest == .rest2 || s.transit.isSome then s.storeBusy 7
  else
    let i := bits (s.reg 7 0x050) 10 0
    let t := { s with estore := s.estore.set 0 i v, edging := { s.edging with verdict := .none } }
    ((t.measCancel .store).soundHalf .edging i).advance 7 0x050 2048 11

/-- LEDGER_HDR.RELEASE (R440): at once where no run is active, else at the end of the one that is. -/
def State.writeRelease (s : State) (k : Nat) : State :=
  (s.setBank k { s.bank k with releaseDue := true }).ledgerRelease k

/-! ### SEAL and TROUBLE -/

/-- MEASURE_EDGE (R382, R397, R453). -/
def State.measureEdge (s : State) : State :=
  if !s.works || s.anyArmed then s.storeBusy 13
  else ({ s with edging := { s.edging with verdict := .awaited } } : State).measRequest .store

/-- STAGE_DATA (R339, R424). -/
def State.writeStage (s : State) (v : Word) : State :=
  if s.staging then s.mark 14 12
  else
    (s.modTrouble fun t => { t with stage := t.stage.set 0 (bits (s.reg 14 0x06C) 5 0) (v &&& 0xFF00FFFF) }).advance
      14 0x06C 64 6

/-- TROUBLE.PAGE_CTRL: every bit set acts, in the order of R455. -/
def State.troubleCtrl (s : State) (v : Word) : State :=
  let on (i : Nat) (f : State → State) (t : State) : State := if v.getLsbD i then f t else t
  on 3 State.restitchRequest (on 2 State.darnApply (on 4 State.guardRaise (on 0 State.clearCounters
    (on 1 State.startSnap s))))

/-! ### TEST -/

/-- A write to a function of the TEST page, which ENABLE opens: while it is clear, in sealed mode too, the write is
ignored and sets STORE_BUSY (R384, R457). -/
def State.testWrite (s : State) (f : State → State) : State := if s.testEnable then f s else s.storeBusy 15

/-- LOCAL (R457): the expected SEQ is taken from the next frame. -/
def State.writeLocal (s : State) (v : Bool) : State :=
  if v = s.testLocal then s else ({ s with testLocal := v } : State).modClock fun c => { c with expSeq := none }

/-- The 64-bit word that INJ_ECC names (R456); none for a target or a word that does not exist. -/
def injWord (w : Word) : Option (EccTarget × Nat) :=
  let a := bits w 21 3 * 8
  match bits w 31 28 with
  | 0 =>
    let h := a / 2 ^ 18 % 8
    let k := a / 2 ^ 12 % 32
    if h > 5 || k > 16 then none else some (.hoop, (h * 17 + k) * 512 + a / 8 % 512)
  | 1 =>
    let i := a / 2 ^ 16 % 32
    let n := a % 2 ^ 12
    if i > 15 || n ≥ Config.leafWords then none else some (.leaf, i * 2192 + a / 2 ^ 12 % 2 * 1096 + n / 2)
  | 2 => if a / 8 % 2048 ≥ Config.scaleSlots then none else some (.scale, a / 8 % 2048 * 2 + a / 2 ^ 15 % 2)
  | 3 => if a ≥ 16384 then none else some (.program, a / 2)
  | 4 => if a ≥ 2048 then none else some (.edging, a / 2)
  | _ => none

/-- INJ_GO (R457): a hoop word is named as programs name its slab, 16 the physical spare; the words of a retired hoop
and of a lost leaf are absent on the engine. It acts after an earlier write to its word that is held (R461). -/
def State.injGo (s : State) : State :=
  let b := s.reg 15 0x048
  match injWord (s.reg 15 0x044) with
  | none => s.mark 15 1
  | some (t, w) =>
    let (i, j) := (bits b 6 0, bits b 14 8)
    if i > 71 || (b.getLsbD 15 && j > 71) || (t = .hoop && !s.hoopPresent (w / 8704)) ||
        (t = .leaf && (s.mslot (w / 2192)).lost (w / 1096 % 2 == 1)) then s.mark 15 1
    else
      let bit (n : Nat) : BitVec 72 := 1#72 <<< n
      s.inject t w (if b.getLsbD 15 then bit i ^^^ bit j else bit i)

/-- LOCAL_MARK_HI: one local frame, with the SEQ after that of the frame accepted last (R457). -/
def State.localMark (s : State) (v : Word) : State :=
  if !s.testLocal then s
  else
    let step : BitVec 48 := v.extractLsb' 0 16 ++ s.reg 15 0x04C
    s.acceptFrame { step := step, code := v.extractLsb' 16 4, seq := s.clock.seqSeen + 1, crc := 0 }

/-- A word of TEST.PAGE_CTRL: ENABLE, LOCAL and INJ_GO (R456). -/
def testCtrlWord (enable local_ go : Bool) : Word :=
  BitVec.ofNat 32 (fields [(enable.toNat, 31), (local_.toNat, 1), (go.toNat, 0)])

/-- TEST.PAGE_CTRL (R456, R457). With ENABLE clear only a write that sets it acts, and only where the page may open.
With ENABLE set, a write that clears it clears LOCAL, which requires it, and injects nothing (DEDUCED, log 31). -/
def State.testCtrl (s : State) (v : Word) : State :=
  let open_ := v.getLsbD 31 && (s.testEnable || (s.isStopped && !s.keys.isSealed))
  if !s.testEnable && !open_ then s.storeBusy 15
  else if open_ then
    let u := ({ s with testEnable := true } : State).writeLocal (v.getLsbD 1)
    if v.getLsbD 0 then u.injGo else u
  else ({ s with testEnable := false } : State).writeLocal false

/-! ### Page controls -/

/-- MIRROR.PAGE_CTRL: RESTORE_LOG first, then the highest start (R449). -/
def State.mirrorPageCtrl (s : State) (v : Word) : State :=
  let t := s.setReg 10 0x018 (v &&& 0x20)
  if v.getLsbD 31 then t.rejoin
  else if v.getLsbD 4 then t.mirrorCtl State.foldRequest
  else if v.getLsbD 3 then t.mirrorCtl State.startRestore
  else if v.getLsbD 2 then t.mirrorCtl State.startBase
  else if v.getLsbD 1 then t.mirrorCtl State.startFlush
  else t

/-- PARTNER.PAGE_CTRL (R442). -/
def State.partnerCtrl (s : State) (v : Word) : State :=
  let t := (s.changeCoupling fun c => { c with queueUse := v.getLsbD 4 }).writeAccPort (v.getLsbD 0)
  if v.getLsbD 31 then t.rollRequest else t

/-- PAGE_CTRL of a page. -/
def State.writeCtrl (s : State) (p : Nat) (v : Word) : State :=
  match p with
  | 1 => s.issueCtrl v
  | 8 => s.partnerCtrl v
  | 10 => s.mirrorPageCtrl v
  | 12 => if v.getLsbD 4 then s.startProof (bits v 1 0) else s
  | 13 => if v.getLsbD 0 then s.measureEdge else s
  | 14 => s.troubleCtrl v
  | 15 => s.testCtrl v
  | _ => s

/-! ### The common header -/

/-- Sticky bits of a page that its table assigns. -/
def stickyMask (p : Nat) : Word :=
  BitVec.ofNat 32 (2 ^ ([1, 12, 4, 4, 7, 7, 1, 13, 4, 9, 7, 8, 3, 7, 17, 3][p]?.getD 0) - 1)

/-- The header registers (R401, R412, R420): none for an offset that the header does not hold. -/
def State.writeHeader (s : State) (w : Writer) (p off : Nat) (v : Word) : Option State :=
  let h := s.page p
  match off with
  | 0x010 => some (s.setPage p { h with sticky := h.sticky &&& ~~~ v })
  | 0x014 => some (s.setPage p { h with en := (v &&& stickyMask p) ||| forcedEn p })
  | 0x018 => some (s.writeCtrl p v)
  | 0x01C => some (s.writeLock w p v)
  | _ => if off < 0x040 then some s else none

/-! ### Every other register -/

/-- The bits of a register that any write stores; none for the others. -/
def plainMask (p off : Nat) : Option Word :=
  match p, off with
  | 1, 0x048 => some 0xFFFFFFFF
  | 1, 0x050 => some 0x80003FFF
  | 3, 0x040 => some 0x801DFFFC
  | 3, 0x04C => some 0x0000FFFF
  | 4, 0x048 => some 0x801F1FFF
  | 5, 0x040 => some 0x000007FF
  | 7, 0x040 => some 0x00007F07
  | 7, 0x044 => some 0xFFFFFFFF
  | 7, 0x048 => some 0xFFFFFFFF
  | 7, 0x04C => some 0xFFFFFFFF
  | 7, 0x050 => some 0x800007FF
  | 7, 0x070 => some 0x800003FF
  | 8, 0x050 => some 0xFFFFFFFF
  | 8, 0x054 => some 0xFFFFFFFF
  | 8, 0x058 => some 0xFFFFFFFF
  | 8, 0x064 => some 0x800003FF
  | 10, 0x048 => some 0xFFFFFFFF
  | 10, 0x04C => some 0xFFFFFFFF
  | 10, 0x050 => some 0x0000FFFF
  | 11, 0x040 => some 0x0000FFFF
  | 13, 0x040 => some 0xFFFFFFFF
  | 14, 0x050 => some 0x0000000F
  | 14, 0x06C => some 0x8000003F
  | _, _ => none

/-- The bits that a closed write of the MIRROR page stores (R447, R448). -/
def mirrorMask (off : Nat) : Option Word :=
  match off with
  | 0x044 => some 0x00007FFF
  | 0x054 => some 0xFFFFFFFF
  | 0x058 => some 0x0000FFFF
  | 0x05C => some 0xFFFFFFFF
  | 0x060 => some 0x0000FFFF
  | 0x064 => some 0xFFFFFFFF
  | _ =>
    if 0x400 ≤ off && off < 0x800 then
      match off % 32 with
      | 0x00 => some 0xFFFFFFFF
      | 0x08 => some 0xFFFFFFFF
      | 0x0C => some 0x0000FFFF
      | 0x10 => some 0xFFFFFFFF
      | 0x14 => some 0x0000FFFF
      | _ => none
    else none

def State.writeIssue (s : State) (off : Nat) (v : Word) : State :=
  if off = 0x040 || (0x060 ≤ off && off < 0x080) then s.stoppedWrite 1 fun s => s.setReg 1 off (v &&& 0x7FF)
  else if off = 0x04C then s.dirWordWrite v false
  else if off = 0x054 then s.writePstore v
  else if 0x100 ≤ off && off < 0x300 && !(0x200 ≤ off && off % 16 == 12) then s.writeContext off v
  else s

def State.writeLanes (s : State) (off : Nat) (v : Word) : State :=
  if off = 0x040 then s.writeVl v
  else if off = 0x044 then s.writeRowshape v
  else if 0x048 ≤ off && off < 0x068 then s.writeStride ((off - 0x048) / 4) v
  else if 0x080 ≤ off && off < 0x0A0 then s.writeCarry ((off - 0x080) / 8) (off % 8 == 4) v
  else s

def State.writeHoops (s : State) (off : Nat) (v : Word) : State :=
  if off = 0x044 then s.writeHoopData v
  else if off = 0x050 then
    { s with hoopMeta := { s.hoopMeta with ueRecord := clearValid s.hoopMeta.ueRecord v } }
  else s

def State.writeMotif (s : State) (off : Nat) (v : Word) : State :=
  if 0x100 ≤ off && off < 0x200 && off % 16 = 0 && v.getLsbD 31 then s.writeSwap ((off - 0x100) / 16) else s

def State.writeScale (s : State) (off : Nat) (v : Word) : State :=
  if off = 0x044 then s.slotWrite .ctl v
  else if off = 0x048 then s.slotWrite .est v
  else if off = 0x04C then s.slotWrite .age v
  else s

def State.writeTwist (s : State) (off : Nat) (v : Word) : State :=
  if 0x040 ≤ off && off < 0x050 then s.writeLive ((off - 0x040) / 4) v
  else if 0x050 ≤ off && off < 0x060 then s.writeStaged ((off - 0x050) / 4) v
  else if off = 0x060 then s.writeStep false v
  else if off = 0x064 then s.writeStep true v
  else s

def State.writeEdging (s : State) (off : Nat) (v : Word) : State :=
  if off = 0x054 then s.writeEstore v
  else if off = 0x060 || off = 0x068 then (if v.getLsbD 29 then s.writeRelease ((off - 0x060) / 8) else s)
  else if 0x100 ≤ off && off < 0x300 then
    let b := (off - 0x100) / 64
    if off % 64 = 0 then s.writeBCtl b v else s.writeBind b (off % 64 / 4) v
  else s

def State.writeNet (s : State) (off : Nat) (v : Word) : State :=
  if off = 0x040 then s.planClosed fun s => s.writeRx v
  else if 0x200 ≤ off && off < 0x400 then
    s.planClosed fun s =>
      if off % 8 = 0 then s.writePlanSrc ((off - 0x200) / 8) v else s.setReg 9 off (v &&& 0xFFFF7FFF)
  else s

def State.writeMirror (s : State) (off : Nat) (v : Word) : State :=
  if off = 0x040 then
    if s.stepOpen then s.storeBusy 10 else s.modMirror fun m => { m with parity := v.getLsbD 0 }
  else if 0x400 ≤ off && off < 0x800 && off % 32 = 4 then
    s.mirrorClosed fun s => s.writeRCtl (0x600 ≤ off) (off % 0x200 / 32) v
  else
    match mirrorMask off with
    | some m => s.mirrorClosed fun s => s.setReg 10 off (v &&& m)
    | none => s

def State.writePrick (s : State) (off : Nat) (v : Word) : State :=
  if 0x400 ≤ off && off < 0x800 && off % 16 < 12 then s.writeEntry ((off - 0x400) / 16) (off % 16 / 4) v else s

def State.writeTrouble (s : State) (off : Nat) (v : Word) : State :=
  if off = 0x040 then s.modTrouble fun t => { t with flags := t.flags &&& ~~~ (v.extractLsb' 4 16) }
  else if off = 0x044 then s.modTrouble fun t => { t with first := clearValid t.first v }
  else if off = 0x064 then s.modTrouble fun t => { t with laneErr := clearValid t.laneErr v }
  else if off = 0x070 then s.writeStage v
  else s

def State.writeTest (s : State) (off : Nat) (v : Word) : State :=
  s.testWrite fun s =>
    match off with
    | 0x040 => s.setReg 15 0x040 (v &&& 0x831F000F)
    | 0x044 => s.setReg 15 0x044 (v &&& 0xF03FFFF8)
    | 0x048 => s.setReg 15 0x048 (v &&& 0x0000FF7F)
    | 0x04C => s.setReg 15 0x04C v
    | 0x050 => s.localMark v
    | _ => s

/-- A write to a register of a page (R10). BIND_ME needs the package's answers and has a command of its own. -/
def State.writeReg (s : State) (w : Writer) (p off : Nat) (v : Word) : State :=
  match s.writeHeader w p off v with
  | some t => t
  | none =>
    match plainMask p off with
    | some m => s.setReg p off (v &&& m)
    | none =>
      match p with
      | 0 => if off = 0x070 then s.restRequest (BitVec.ofNat 2 (bits v 1 0)) else s
      | 1 => s.writeIssue off v
      | 2 => s.writeLanes off v
      | 3 => s.writeHoops off v
      | 4 => s.writeMotif off v
      | 5 => s.writeScale off v
      | 6 => s.writeTwist off v
      | 7 => s.writeEdging off v
      | 8 => if off = 0x04C then s.writeBuddy v else s
      | 9 => s.writeNet off v
      | 10 => s.writeMirror off v
      | 11 => s.writePrick off v
      | 14 => s.writeTrouble off v
      | 15 => s.writeTest off v
      | _ => s

/-- An MMIO write: only an aligned 32-bit word is one (R12); PAGE_LOCK takes the host's whatever WRITER holds
(R422). -/
def State.mmioWrite (s : State) (w : Writer) (p off : Nat) (size : AccSize) (v : Word) : State :=
  if size = .other || off % 4 ≠ 0 then s
  else if off = 0x01C then s.writeLock w p v
  else s.write w p fun s => s.writeReg w p off v

end Sys2Proof.Machine
end

