-- ==== Sys2Proof/Machine/Completions.lean ====
section
/-!
DEFINITION. Completions of the engine's own activities: stops, transfers, limits, lane errors, structural activities, walks, snapshots, table loads, verdicts and swaps.
-/

namespace Sys2Proof.Machine

/-- ISSUE_STOP (R114). -/
def execIssueStop (s : State) : Host.Outcome State Fault Refusal := act (fun s => s.issueStop) s

/-- FABRIC_TRANSFER_DONE (R278). -/
def execFabricTransferDone (s : State) : Host.Outcome State Fault Refusal :=
  act (fun s => s.transferDone none) s

/-- FABRIC_TIMEOUT (R278). -/
def execFabricTimeout (arrived : Nat) (s : State) : Host.Outcome State Fault Refusal :=
  act (fun s => s.transferDone (some arrived)) s

/-- SEND_TIMEOUT (R283). -/
def execSendTimeout (s : State) : Host.Outcome State Fault Refusal := act (fun s => s.sendTimeout) s

/-- RECV_TIMEOUT (R301). -/
def execRecvTimeout (i : Issue) (s : State) : Host.Outcome State Fault Refusal :=
  act (fun s => s.issueBundle i .recvTimeout none) s

/-- POPQ_TIMEOUT (R275). -/
def execPopqTimeout (i : Issue) (s : State) : Host.Outcome State Fault Refusal :=
  act (fun s => s.issueBundle i .popqTimeout none) s

/-- LANE_ERROR (R326). -/
def execLaneError (i : Issue) (errs : List LaneErr) (handed : Bool) (s : State) : Host.Outcome State Fault Refusal :=
  act (fun s => s.laneError i errs handed) s

/-- RETRY_REEXECUTE (R327). -/
def execRetryReexecute (s : State) : Host.Outcome State Fault Refusal := act (fun s => s.reexecute) s

/-- DARNING_DONE (R332). -/
def execDarningDone (pass16 pass17 : Bool) (s : State) : Host.Outcome State Fault Refusal :=
  act (fun s => s.darningDone pass16 pass17) s

/-- SLAB_SPARE_IN_DONE (R73). -/
def execSlabSpareInDone (s : State) : Host.Outcome State Fault Refusal := act (fun s => s.spareInDone) s

/-- LEAF_REPAIR_DONE (R216). -/
def execLeafRepairDone (s : State) : Host.Outcome State Fault Refusal := act (fun s => s.leafRepairDone) s

/-- PROOFING_DONE (R335). -/
def execProofingDone (bad16 bad17 : Bool) (badSlabs : BitVec 6) (s : State) : Host.Outcome State Fault Refusal :=
  act (fun s => s.proofingDone bad16 bad17 badSlabs) s

/-- STAGED_DARNING_DONE (R338). -/
def execStagedDarningDone (s : State) : Host.Outcome State Fault Refusal := act (fun s => s.stagedDone) s

/-- SCRUB_SLAB (R319). -/
def execScrubSlab (hoop : BitVec 3) (s : State) : Host.Outcome State Fault Refusal :=
  act (fun s => s.scrubSlab hoop.toNat) s

/-- COMMIT_WALK (R178). -/
def execCommitWalk (s : State) : Host.Outcome State Fault Refusal := act (fun s => s.commitWalk) s

/-- COMMIT_WALK_END (R178). -/
def execCommitWalkEnd (s : State) : Host.Outcome State Fault Refusal := act (fun s => s.commitWalkEnd) s

/-- SNAPSHOT_DONE (R409). -/
def execSnapshotDone (s : State) : Host.Outcome State Fault Refusal := act (fun s => s.snapshotDone) s

/-- TBLD_DONE (R211). -/
def execTbldDone (s : State) : Host.Outcome State Fault Refusal := act (fun s => s.tbldDone) s

/-- VERDICT (R383). -/
def execVerdict (t : MeasTarget) (favourable : Bool) (s : State) : Host.Outcome State Fault Refusal :=
  act (fun s => s.verdict t favourable 7) s

/-- VERDICT_TIMEOUT (R383). -/
def execVerdictTimeout (t : MeasTarget) (s : State) : Host.Outcome State Fault Refusal :=
  act (fun s => s.verdictTimeout t) s

/-- SWAP_TAKES_EFFECT (R213). -/
def execSwapTakesEffect (slot : BitVec 4) (s : State) : Host.Outcome State Fault Refusal :=
  act (fun s => s.swapNow slot.toNat) s

end Sys2Proof.Machine
end

