-- ==== Sys2Proof/Machine/Life.lean ====
section
/-!
DEFINITION. Direction words, keys, sealed mode, resets, RESTITCH and rest states.
-/

namespace Sys2Proof.Machine

/-- DIRECTION_WORD (R117). -/
def execDirectionWord (word : Word) (s : State) : Host.Outcome State Fault Refusal :=
  act (fun s => s.directionWord word) s

/-- KEY_LOAD (R375). -/
def execKeyLoad (slot : BitVec 2) (key : BitVec 256) (s : State) : Host.Outcome State Fault Refusal :=
  act (fun s => s.keyLoad slot.toNat key) s

/-- SEALED_MODE_ASSERT (R384). -/
def execSealedModeAssert (s : State) : Host.Outcome State Fault Refusal := act (fun s => s.seal) s

/-- UNSEAL_REFUSED (R385). -/
def execUnsealRefused (s : State) : Host.Outcome State Fault Refusal := act (fun s => s.unseal) s

/-- PWR_RESET (R389). -/
def execPwrReset (s : State) : Host.Outcome State Fault Refusal := act (fun s => s.pwrReset) s

/-- PKG_RESET (R389). -/
def execPkgReset (s : State) : Host.Outcome State Fault Refusal := act (fun s => s.pkgReset) s

/-- RESET_COMPLETE (R389). -/
def execResetComplete (s : State) : Host.Outcome State Fault Refusal := act (fun s => s.resetComplete) s

/-- PIPE_FAULT (R330). -/
def execPipeFault (s : State) : Host.Outcome State Fault Refusal := act (fun s => s.pipeFault) s

/-- RESTITCH_DONE (R341). -/
def execRestitchDone (s : State) : Host.Outcome State Fault Refusal := act (fun s => s.restitchDone) s

/-- REST_TRANSITION_DONE (R396). -/
def execRestTransitionDone (s : State) : Host.Outcome State Fault Refusal := act (fun s => s.restDone) s

end Sys2Proof.Machine
end

