-- ==== Sys2Proof/Machine/Marks.lean ====
section
/-!
DEFINITION. Marks of the step clock and pricking starts (R313 to R322).
-/

namespace Sys2Proof.Machine

/-- STEP_OPEN (R316). -/
def execStepOpen (f : Frame) (s : State) : Host.Outcome State Fault Refusal :=
  act (fun s => s.receive f (· == 0)) s

/-- FWD (R316). -/
def execFwd (f : Frame) (s : State) : Host.Outcome State Fault Refusal :=
  act (fun s => s.receive f (· == 1)) s

/-- BWD (R316). -/
def execBwd (f : Frame) (s : State) : Host.Outcome State Fault Refusal :=
  act (fun s => s.receive f (· == 2)) s

/-- EXCH (R316). -/
def execExch (f : Frame) (s : State) : Host.Outcome State Fault Refusal :=
  act (fun s => s.receive f (· == 3)) s

/-- UPDATE (R316). -/
def execUpdate (f : Frame) (s : State) : Host.Outcome State Fault Refusal :=
  act (fun s => s.receive f (· == 4)) s

/-- GUARD_FREEZE (R307). -/
def execGuardFreeze (s : State) : Host.Outcome State Fault Refusal := act (fun s => s.guardFreeze) s

/-- COMMIT (R316). -/
def execCommit (f : Frame) (s : State) : Host.Outcome State Fault Refusal :=
  act (fun s => s.receive f (· == 5)) s

/-- ABORT (R316). -/
def execAbort (f : Frame) (s : State) : Host.Outcome State Fault Refusal :=
  act (fun s => s.receive f (· == 6)) s

/-- IDLE (R316). -/
def execIdle (f : Frame) (s : State) : Host.Outcome State Fault Refusal :=
  act (fun s => s.receive f (· == 7)) s

/-- USER_MARK (R316). -/
def execUserMark (f : Frame) (s : State) : Host.Outcome State Fault Refusal :=
  act (fun s => s.receive f (8 ≤ ·)) s

/-- CLOCK_QUIET (R315). -/
def execClockQuiet (s : State) : Host.Outcome State Fault Refusal := act (fun s => s.clockQuiet) s

/-- PRICKING_START (R320). -/
def execPrickingStart (entry : BitVec 6) (s : State) : Host.Outcome State Fault Refusal :=
  act (fun s => s.prickingStart entry.toNat) s

end Sys2Proof.Machine
end

