-- ==== Sys2Proof/Machine/MemorySlot.lean ====
section
/-!
DEFINITION. Issue commands of the M slot (R101, R111).
-/

namespace Sys2Proof.Machine

/-- LD (R101). -/
def execLd (i : Issue) (s : State) : Host.Outcome State Fault Refusal := act (fun s => s.issueRow (.m 1) i) s

/-- ST (R101). -/
def execSt (i : Issue) (s : State) : Host.Outcome State Fault Refusal := act (fun s => s.issueRow (.m 2) i) s

/-- GATHER (R101). -/
def execGather (i : Issue) (s : State) : Host.Outcome State Fault Refusal :=
  act (fun s => s.issueRow (.m 3) i) s

/-- SCATTER (R101). -/
def execScatter (i : Issue) (s : State) : Host.Outcome State Fault Refusal :=
  act (fun s => s.issueRow (.m 4) i) s

/-- MOVA (R252). -/
def execMova (i : Issue) (s : State) : Host.Outcome State Fault Refusal :=
  act (fun s => s.issueRow (.m 5) i) s

/-- POPQ (R275). -/
def execPopq (i : Issue) (s : State) : Host.Outcome State Fault Refusal :=
  act (fun s => s.issueRow (.m 6) i) s

/-- NSEND (R281). -/
def execNsend (i : Issue) (s : State) : Host.Outcome State Fault Refusal :=
  act (fun s => s.issueRow (.m 7) i) s

/-- NRECV (R301). -/
def execNrecv (i : Issue) (s : State) : Host.Outcome State Fault Refusal :=
  act (fun s => s.issueRow (.m 8) i) s

/-- MOVS (R58). -/
def execMovs (i : Issue) (s : State) : Host.Outcome State Fault Refusal :=
  act (fun s => s.issueRow (.m 9) i) s

/-- GETS (R101). -/
def execGets (i : Issue) (s : State) : Host.Outcome State Fault Refusal :=
  act (fun s => s.issueRow (.m 10) i) s

/-- KST (R102). -/
def execKst (i : Issue) (s : State) : Host.Outcome State Fault Refusal :=
  act (fun s => s.issueRow (.m 11) i) s

/-- KLD (R102). -/
def execKld (i : Issue) (s : State) : Host.Outcome State Fault Refusal :=
  act (fun s => s.issueRow (.m 12) i) s

/-- TBLD (R211). -/
def execTbld (i : Issue) (s : State) : Host.Outcome State Fault Refusal :=
  act (fun s => s.issueRow (.m 13) i) s

/-- TBSWAP (R213). -/
def execTbswap (i : Issue) (s : State) : Host.Outcome State Fault Refusal :=
  act (fun s => s.issueRow (.m 14) i) s

/-- SCLD (R188). -/
def execScld (i : Issue) (s : State) : Host.Outcome State Fault Refusal :=
  act (fun s => s.issueRow (.m 15) i) s

/-- SCST (R187). -/
def execScst (i : Issue) (s : State) : Host.Outcome State Fault Refusal :=
  act (fun s => s.issueRow (.m 16) i) s

/-- LGST (R262). -/
def execLgst (i : Issue) (s : State) : Host.Outcome State Fault Refusal :=
  act (fun s => s.issueRow (.m 17) i) s

/-- LGLD (R263). -/
def execLgld (i : Issue) (s : State) : Host.Outcome State Fault Refusal :=
  act (fun s => s.issueRow (.m 18) i) s

/-- PREF (R101). -/
def execPref (i : Issue) (s : State) : Host.Outcome State Fault Refusal :=
  act (fun s => s.issueRow (.m 19) i) s

/-- FENCEM (R280). -/
def execFencem (i : Issue) (s : State) : Host.Outcome State Fault Refusal :=
  act (fun s => s.issueRow (.m 20) i) s

end Sys2Proof.Machine
end

