-- ==== Sys2Proof/Machine/Network.lean ====
section
/-!
DEFINITION. Records and acknowledgements of the network port and the mirror.
-/

namespace Sys2Proof.Machine

/-- RECORD_VERIFIED (R380). -/
def execRecordVerified (r : WireRec) (s : State) : Host.Outcome State Fault Refusal :=
  act (fun s => s.recordVerified r) s

/-- MIRROR_LOG_WRITE_DONE (R351). -/
def execMirrorLogWriteDone (s : State) : Host.Outcome State Fault Refusal := act (fun s => s.logDone) s

/-- MIRROR_ACK (R349). -/
def execMirrorAck (mseq : Word) (s : State) : Host.Outcome State Fault Refusal :=
  act (fun s => s.mirrorAcked mseq) s

/-- ACK_TIMEOUT (R349). -/
def execAckTimeout (mseq : Word) (s : State) : Host.Outcome State Fault Refusal :=
  act (fun s => s.ackTimeout mseq) s

/-- MIRROR_SEND (R348). -/
def execMirrorSend (s : State) : Host.Outcome State Fault Refusal := act (fun s => s.mirrorSend) s

/-- DESC_SEND_TIMER (R345). -/
def execDescSendTimer (s : State) : Host.Outcome State Fault Refusal := act (fun s => s.descTimer) s

/-- MIRROR_FLUSH_DONE (R347). -/
def execMirrorFlushDone (s : State) : Host.Outcome State Fault Refusal := act (fun s => s.opDone .flush 3) s

/-- BASE_COPY_DONE (R352). -/
def execBaseCopyDone (s : State) : Host.Outcome State Fault Refusal := act (fun s => s.opDone .baseCopy 5) s

/-- RESTORE_DONE (R357). -/
def execRestoreDone (s : State) : Host.Outcome State Fault Refusal := act (fun s => s.opDone .restore 7) s

/-- MIRROR_FOLD_DONE (R353). -/
def execMirrorFoldDone (s : State) : Host.Outcome State Fault Refusal := act (fun s => s.foldDone) s

end Sys2Proof.Machine
end

