-- ==== Sys2Proof/Machine/Partnership.lean ====
section
/-!
DEFINITION. Events of partners: presence, reachability, roll calls, couplings, tiles, edging runs and mask requests.
-/

namespace Sys2Proof.Machine

/-- PARTNER_CHANGE_EVENT (R267). -/
def execPartnerChangeEvent (p : Partner) (s : State) : Host.Outcome State Fault Refusal :=
  act (fun s => s.partnerEvent p) s

/-- REACHABILITY_NOTICE (R267). -/
def execReachabilityNotice (package : BitVec 15) (reachable : Bool) (s : State) : Host.Outcome State Fault Refusal :=
  act (fun s => s.reachNotice package reachable) s

/-- PROBE_TIMEOUT (R268). -/
def execProbeTimeout (p : Probe) (s : State) : Host.Outcome State Fault Refusal :=
  act (fun s => s.probeTimeout p) s

/-- ROLL_CALL_PUBLISH (R268). -/
def execRollCallPublish (s : State) : Host.Outcome State Fault Refusal := act (fun s => s.publish) s

/-- COUPLING_CHANGE (R273). -/
def execCouplingChange (s : State) : Host.Outcome State Fault Refusal := act (fun s => s.couplingChange) s

/-- TILE_COMPLETION (R245). -/
def execTileCompletion (tag : Word) (stream : BitVec 16) (tile : List (Nat × Word)) (s : State) : Host.Outcome State Fault Refusal :=
  act (fun s => s.tileCompletion tag stream tile) s

/-- EDGING_RUN_START (R247). The place that it frees in the trigger queue goes to the event that is offered next, of a
tile or of an arrival (R246; log 2). -/
def execEdgingRunStart (s : State) : Host.Outcome State Fault Refusal := act (fun s => s.runStart) s

/-- EDGING_RUN_END (R254), and the held arrivals go on as far as the trigger queue has room (R246, R283). -/
def execEdgingRunEnd (s : State) : Host.Outcome State Fault Refusal := act (fun s => if s.edging.run.isSome then s.runEnd.runPlan else s) s

/-- COMPLETION_RUN_START (R260). -/
def execCompletionRunStart (s : State) : Host.Outcome State Fault Refusal :=
  act (fun s => s.completionStart) s

/-- EDGING_OVERRUN (R255). -/
def execEdgingOverrun (s : State) : Host.Outcome State Fault Refusal := act (fun s => s.overrun) s

/-- MASK_REQUEST (R264). -/
def execMaskRequest (m : BitVec 2) (row : Word) (col : Word) (s : State) : Host.Outcome State Fault Refusal :=
  act (fun s => s.maskRequest m row col) s

end Sys2Proof.Machine
end

