-- ==== Sys2Proof/Machine/Port.lean ====
section
/-!
DEFINITION. Credits, records leaving the port, mailbox entries, register pairs, measurement streams and power loss.
-/

namespace Sys2Proof.Machine

/-- OUTBOUND_CREDIT (R283). -/
def execOutboundCredit (package : BitVec 15) (count : Nat) (s : State) : Host.Outcome State Fault Refusal :=
  act (fun s => s.addCredit package count) s

/-- RECORD_LEAVES_PORT (R281). -/
def execRecordLeavesPort (s : State) : Host.Outcome State Fault Refusal := act (fun s => s.recordLeaves) s

/-- MAILBOX_ENTRY_CONSUMED (R115). -/
def execMailboxEntryConsumed (s : State) : Host.Outcome State Fault Refusal := act (fun s => s.mailboxTaken) s

/-- REGISTER_PAIR_READ (R12). -/
def execRegisterPairRead (page : BitVec 4) (place : ReadPlace) (s : State) : Host.Outcome State Fault Refusal :=
  act (fun s => s.mmioRead page.toNat place.off.toNat place.size) s

/-- MEASUREMENT_STREAM_END (R383). -/
def execMeasurementStreamEnd (s : State) : Host.Outcome State Fault Refusal := act (fun s => s.streamEnd) s

/-- CORE_RAIL_POWER_LOSS (R363). -/
def execCoreRailPowerLoss (s : State) : Host.Outcome State Fault Refusal := act (fun s => s.powerLoss) s

end Sys2Proof.Machine
end

