-- ==== Sys2Proof/Machine/Registers.lean ====
section
/-!
DEFINITION. MMIO writes and reads by register (R420 to R457).
-/

namespace Sys2Proof.Machine

/-- GO (R427). -/
def execGo (w : Writer) (s : State) : Host.Outcome State Fault Refusal :=
  act (fun s => s.write w 1 State.goIssue) s

/-- STOP (R119). -/
def execStop (w : Writer) (s : State) : Host.Outcome State Fault Refusal :=
  act (fun s => s.write w 1 State.stopIssue) s

/-- BLK_RESET (R390). -/
def execBlkReset (w : Writer) (s : State) : Host.Outcome State Fault Refusal :=
  act (fun s => s.write w 1 State.blkReset) s

/-- DIRWORD (R25). -/
def execDirword (w : Writer) (word : Word) (sameCycle : Bool) (s : State) : Host.Outcome State Fault Refusal :=
  act (fun s => s.write w 1 fun s => s.dirWordWrite word sameCycle) s

/-- PSTORE_DATA (R118). -/
def execPstoreData (a : Access) (s : State) : Host.Outcome State Fault Refusal :=
  act (fun s => s.access a 1 0x054 State.writePstore) s

/-- VL (R429). -/
def execVl (w : Writer) (v : Word) (s : State) : Host.Outcome State Fault Refusal :=
  act (fun s => s.write w 2 fun s => s.writeVl v) s

/-- ROWSHAPE (R429). -/
def execRowshape (w : Writer) (v : Word) (s : State) : Host.Outcome State Fault Refusal :=
  act (fun s => s.write w 2 fun s => s.writeRowshape v) s

/-- CY_VALUE (R230). -/
def execCyValue (w : Writer) (c : BitVec 2) (ctl : Bool) (v : Word) (s : State) : Host.Outcome State Fault Refusal :=
  act (fun s => s.write w 2 fun s => s.writeCarry c.toNat ctl v) s

/-- HOOP_DATA (R51). -/
def execHoopData (a : Access) (s : State) : Host.Outcome State Fault Refusal :=
  act (fun s => s.access a 3 0x044 State.writeHoopData) s

/-- LEAF_DATA (R424). -/
def execLeafData (s : State) : Host.Outcome State Fault Refusal := act (fun s => s.mmioRead 4 0x04C .word) s

/-- SWAP (R213). -/
def execSwap (w : Writer) (slot : BitVec 4) (s : State) : Host.Outcome State Fault Refusal :=
  act (fun s => s.write w 4 fun s => s.writeSwap slot.toNat) s

/-- SLOT_CTL (R435). -/
def execSlotCtl (w : Writer) (v : Word) (s : State) : Host.Outcome State Fault Refusal :=
  act (fun s => s.write w 5 fun s => s.slotWrite .ctl v) s

/-- SLOT_EST (R434). -/
def execSlotEst (w : Writer) (v : Word) (s : State) : Host.Outcome State Fault Refusal :=
  act (fun s => s.write w 5 fun s => s.slotWrite .est v) s

/-- SLOT_AGE (R434). -/
def execSlotAge (w : Writer) (v : Word) (s : State) : Host.Outcome State Fault Refusal :=
  act (fun s => s.write w 5 fun s => s.slotWrite .age v) s

/-- LIVE_SEED_WRITE (R168). -/
def execLiveSeedWrite (w : Writer) (k : BitVec 2) (v : Word) (s : State) : Host.Outcome State Fault Refusal :=
  act (fun s => s.write w 6 fun s => s.writeLive k.toNat v) s

/-- STAGED_SEED_WRITE (R168). -/
def execStagedSeedWrite (w : Writer) (k : BitVec 2) (v : Word) (s : State) : Host.Outcome State Fault Refusal :=
  act (fun s => s.write w 6 fun s => s.writeStaged k.toNat v) s

/-- TWIST_STEP_WRITE (R169). -/
def execTwistStepWrite (w : Writer) (hi : Bool) (v : Word) (s : State) : Host.Outcome State Fault Refusal :=
  act (fun s => s.write w 6 fun s => s.writeStep hi v) s

/-- B_CTL (R242). -/
def execBCtl (w : Writer) (b : BitVec 3) (v : Word) (s : State) : Host.Outcome State Fault Refusal :=
  act (fun s => s.write w 7 fun s => s.writeBCtl b.toNat v) s

/-- ESTORE_DATA (R243). -/
def execEstoreData (a : Access) (s : State) : Host.Outcome State Fault Refusal :=
  act (fun s => s.access a 7 0x054 State.writeEstore) s

/-- RELEASE (R440). -/
def execRelease (w : Writer) (bank : BitVec 1) (s : State) : Host.Outcome State Fault Refusal :=
  act (fun s => s.write w 7 fun s => s.writeRelease bank.toNat) s

/-- LEDGER_RELEASE (R440). -/
def execLedgerRelease (bank : BitVec 1) (s : State) : Host.Outcome State Fault Refusal :=
  act (fun s => s.ledgerRelease bank.toNat) s

/-- LEDGER_DATA (R424). -/
def execLedgerData (s : State) : Host.Outcome State Fault Refusal := act (fun s => s.mmioRead 7 0x074 .word) s

/-- ROLLCALL (R267). -/
def execRollcall (w : Writer) (s : State) : Host.Outcome State Fault Refusal :=
  act (fun s => s.write w 8 State.rollRequest) s

/-- ACC_PORT_EN (R273). -/
def execAccPortEn (w : Writer) (v : Bool) (s : State) : Host.Outcome State Fault Refusal :=
  act (fun s => s.write w 8 fun s => s.writeAccPort v) s

/-- QUEUE_USE (R443). -/
def execQueueUse (w : Writer) (v : Bool) (s : State) : Host.Outcome State Fault Refusal :=
  act (fun s => s.write w 8 fun s => s.changeCoupling fun c => { c with queueUse := v }) s

/-- BIND_ME (R443). -/
def execBindMe (w : Writer) (v : Word) (present serving : Bool) (s : State) : Host.Outcome State Fault Refusal :=
  act (fun s => s.write w 8 fun s => s.writeMeSrc v present serving) s

/-- BIND_BUDDY (R443). -/
def execBindBuddy (w : Writer) (v : Word) (s : State) : Host.Outcome State Fault Refusal :=
  act (fun s => s.write w 8 fun s => s.writeBuddy v) s

/-- REACH_DATA (R424). -/
def execReachData (s : State) : Host.Outcome State Fault Refusal := act (fun s => s.mmioRead 8 0x068 .word) s

/-- RX (R446). -/
def execRx (w : Writer) (v : Word) (s : State) : Host.Outcome State Fault Refusal :=
  act (fun s => s.write w 9 fun s => s.planClosed fun s => s.writeRx v) s

/-- PLAN_SRC (R446). -/
def execPlanSrc (w : Writer) (entry : BitVec 6) (v : Word) (s : State) : Host.Outcome State Fault Refusal :=
  act (fun s => s.write w 9 fun s => s.planClosed fun s => s.writePlanSrc entry.toNat v) s

/-- REJOIN (R358). -/
def execRejoin (w : Writer) (s : State) : Host.Outcome State Fault Refusal :=
  act (fun s => s.write w 10 State.rejoin) s

/-- FOLD_REQUEST (R353). -/
def execFoldRequest (w : Writer) (s : State) : Host.Outcome State Fault Refusal :=
  act (fun s => s.write w 10 fun s => s.mirrorCtl State.foldRequest) s

/-- RESTORE (R357). -/
def execRestore (w : Writer) (s : State) : Host.Outcome State Fault Refusal :=
  act (fun s => s.write w 10 fun s => s.mirrorCtl State.startRestore) s

/-- BASECOPY (R352). -/
def execBasecopy (w : Writer) (s : State) : Host.Outcome State Fault Refusal :=
  act (fun s => s.write w 10 fun s => s.mirrorCtl State.startBase) s

/-- FLUSH (R347). -/
def execFlush (w : Writer) (s : State) : Host.Outcome State Fault Refusal :=
  act (fun s => s.write w 10 fun s => s.mirrorCtl State.startFlush) s

/-- R_CTL (R448). -/
def execRCtl (w : Writer) (img : Bool) (entry : BitVec 4) (v : Word) (s : State) : Host.Outcome State Fault Refusal :=
  act (fun s => s.write w 10 fun s => s.mirrorClosed fun s => s.writeRCtl img entry.toNat v) s

/-- ENTRY_CTL (R318). -/
def execEntryCtl (w : Writer) (entry : BitVec 6) (v : Word) (s : State) : Host.Outcome State Fault Refusal :=
  act (fun s => s.write w 11 fun s => s.writeEntry entry.toNat 0 v) s

/-- PROOF (R335). -/
def execProof (w : Writer) (arg : BitVec 2) (s : State) : Host.Outcome State Fault Refusal :=
  act (fun s => s.write w 12 fun s => s.startProof arg.toNat) s

/-- MEASURE_EDGE (R382). -/
def execMeasureEdge (w : Writer) (s : State) : Host.Outcome State Fault Refusal :=
  act (fun s => s.write w 13 State.measureEdge) s

/-- GUARD_SET (R306). -/
def execGuardSet (w : Writer) (s : State) : Host.Outcome State Fault Refusal :=
  act (fun s => s.write w 14 State.guardRaise) s

/-- RESTITCH (R341). -/
def execRestitch (w : Writer) (s : State) : Host.Outcome State Fault Refusal :=
  act (fun s => s.write w 14 State.restitchRequest) s

/-- DARN_APPLY (R338). -/
def execDarnApply (w : Writer) (s : State) : Host.Outcome State Fault Refusal :=
  act (fun s => s.write w 14 State.darnApply) s

/-- SNAP (R409). -/
def execSnap (w : Writer) (s : State) : Host.Outcome State Fault Refusal :=
  act (fun s => s.write w 14 State.startSnap) s

/-- CNT_CLEAR (R408). -/
def execCntClear (w : Writer) (s : State) : Host.Outcome State Fault Refusal :=
  act (fun s => s.write w 14 State.clearCounters) s

/-- DARN_LOG (R337). -/
def execDarnLog (s : State) : Host.Outcome State Fault Refusal := act (fun s => s.mmioRead 14 0x068 .word) s

/-- STAGE_DATA (R424). -/
def execStageData (a : Access) (s : State) : Host.Outcome State Fault Refusal :=
  act (fun s => s.access a 14 0x070 State.writeStage) s

/-- REST_CTRL (R395). -/
def execRestCtrl (w : Writer) (req : BitVec 2) (s : State) : Host.Outcome State Fault Refusal :=
  act (fun s => s.write w 0 fun s => s.restRequest req) s

/-- ENABLE (R457): a write of PAGE_CTRL that keeps LOCAL. -/
def execEnable (w : Writer) (v : Bool) (s : State) : Host.Outcome State Fault Refusal :=
  act (fun s => s.write w 15 fun s => s.testCtrl (testCtrlWord v s.testLocal false)) s

/-- LOCAL (R457): a write of PAGE_CTRL that keeps ENABLE. -/
def execLocalMarks (w : Writer) (v : Bool) (s : State) : Host.Outcome State Fault Refusal :=
  act (fun s => s.write w 15 fun s => s.testCtrl (testCtrlWord s.testEnable v false)) s

/-- INJ_GO (R457): a write of PAGE_CTRL that keeps ENABLE and LOCAL. -/
def execInjGo (w : Writer) (s : State) : Host.Outcome State Fault Refusal :=
  act (fun s => s.write w 15 fun s => s.testCtrl (testCtrlWord s.testEnable s.testLocal true)) s

/-- INJ_LANE (R457). -/
def execInjLane (w : Writer) (v : Word) (s : State) : Host.Outcome State Fault Refusal :=
  act (fun s => s.write w 15 fun s => s.testWrite fun s => s.setReg 15 0x040 (v &&& 0x831F000F)) s

/-- LOCAL_MARK_HI (R457). -/
def execLocalMarkHi (w : Writer) (v : Word) (s : State) : Host.Outcome State Fault Refusal :=
  act (fun s => s.write w 15 fun s => s.testWrite fun s => s.localMark v) s

/-- PAGE_LOCK (R422). -/
def execPageLock (w : Writer) (page : BitVec 4) (v : Word) (s : State) : Host.Outcome State Fault Refusal :=
  act (fun s => s.writeLock w page.toNat v) s

/-- REGISTER_WRITE (R10). -/
def execRegisterWrite (w : Writer) (page : BitVec 4) (off : BitVec 12) (size : AccSize) (v : Word) (s : State) : Host.Outcome State Fault Refusal :=
  act (fun s => s.mmioWrite w page.toNat off.toNat size v) s

end Sys2Proof.Machine
end

