-- ==== Sys2Proof/Machine/ScalarSlot.lean ====
section
/-!
DEFINITION. Issue commands of the S slot (R106, R111), the ends of waits (R108, R116) and picots (R115).
-/

namespace Sys2Proof.Machine

/-- ADDI (R106). -/
def execAddi (i : Issue) (s : State) : Host.Outcome State Fault Refusal :=
  act (fun s => s.issueRow (.s 0x01) i) s

/-- ADD (R106). -/
def execAdd (i : Issue) (s : State) : Host.Outcome State Fault Refusal :=
  act (fun s => s.issueRow (.s 0x02) i) s

/-- SUB (R106). -/
def execSub (i : Issue) (s : State) : Host.Outcome State Fault Refusal :=
  act (fun s => s.issueRow (.s 0x03) i) s

/-- MUL (R106). -/
def execMul (i : Issue) (s : State) : Host.Outcome State Fault Refusal :=
  act (fun s => s.issueRow (.s 0x04) i) s

/-- AND (R106). -/
def execAnd (i : Issue) (s : State) : Host.Outcome State Fault Refusal :=
  act (fun s => s.issueRow (.s 0x05) i) s

/-- OR (R106). -/
def execOr (i : Issue) (s : State) : Host.Outcome State Fault Refusal :=
  act (fun s => s.issueRow (.s 0x06) i) s

/-- XOR (R106). -/
def execXor (i : Issue) (s : State) : Host.Outcome State Fault Refusal :=
  act (fun s => s.issueRow (.s 0x07) i) s

/-- SHLI (R106). -/
def execShli (i : Issue) (s : State) : Host.Outcome State Fault Refusal :=
  act (fun s => s.issueRow (.s 0x08) i) s

/-- SHRI (R106). -/
def execShri (i : Issue) (s : State) : Host.Outcome State Fault Refusal :=
  act (fun s => s.issueRow (.s 0x09) i) s

/-- SARI (R106). -/
def execSari (i : Issue) (s : State) : Host.Outcome State Fault Refusal :=
  act (fun s => s.issueRow (.s 0x0A) i) s

/-- SHIN (R106). -/
def execShin (i : Issue) (s : State) : Host.Outcome State Fault Refusal :=
  act (fun s => s.issueRow (.s 0x0B) i) s

/-- FADD (R152). -/
def execFadd (i : Issue) (s : State) : Host.Outcome State Fault Refusal :=
  act (fun s => s.issueRow (.s 0x0C) i) s

/-- FMUL (R152). -/
def execFmul (i : Issue) (s : State) : Host.Outcome State Fault Refusal :=
  act (fun s => s.issueRow (.s 0x0D) i) s

/-- SETVL (R52). -/
def execSetvl (i : Issue) (s : State) : Host.Outcome State Fault Refusal :=
  act (fun s => s.issueRow (.s 0x10) i) s

/-- SETROW (R56). -/
def execSetrow (i : Issue) (s : State) : Host.Outcome State Fault Refusal :=
  act (fun s => s.issueRow (.s 0x11) i) s

/-- SETES (R106). -/
def execSetes (i : Issue) (s : State) : Host.Outcome State Fault Refusal :=
  act (fun s => s.issueRow (.s 0x12) i) s

/-- SETD (R67). -/
def execSetd (i : Issue) (s : State) : Host.Outcome State Fault Refusal :=
  act (fun s => s.issueRow (.s 0x13) i) s

/-- SETTW (R87). -/
def execSettw (i : Issue) (s : State) : Host.Outcome State Fault Refusal :=
  act (fun s => s.issueRow (.s 0x14) i) s

/-- RDVL (R106). -/
def execRdvl (i : Issue) (s : State) : Host.Outcome State Fault Refusal :=
  act (fun s => s.issueRow (.s 0x15) i) s

/-- JMP (R106). -/
def execJmp (i : Issue) (s : State) : Host.Outcome State Fault Refusal :=
  act (fun s => s.issueRow (.s 0x18) i) s

/-- LOOP (R107). -/
def execLoop (i : Issue) (s : State) : Host.Outcome State Fault Refusal :=
  act (fun s => s.issueRow (.s 0x19) i) s

/-- WAIT (R108). -/
def execWait (i : Issue) (s : State) : Host.Outcome State Fault Refusal :=
  act (fun s => s.issueRow (.s 0x1A) i) s

/-- WAIT_END (R108). -/
def execWaitEnd (st : Stream) (s : State) : Host.Outcome State Fault Refusal := act (fun s => s.waitEnd st) s

/-- WAIT_TIMEOUT (R108). -/
def execWaitTimeout (st : Stream) (s : State) : Host.Outcome State Fault Refusal :=
  act (fun s => s.waitTimeout st) s

/-- PICOT (R115). -/
def execPicot (i : Issue) (s : State) : Host.Outcome State Fault Refusal :=
  act (fun s => s.issueRow (.s 0x1B) i) s

/-- PICOT_POST (R115). -/
def execPicotPost (s : State) : Host.Outcome State Fault Refusal := act (fun s => s.picotPost) s

/-- WAITDIR (R116). -/
def execWaitdir (i : Issue) (s : State) : Host.Outcome State Fault Refusal :=
  act (fun s => s.issueRow (.s 0x1C) i) s

/-- DIR_TIMEOUT (R116). -/
def execDirTimeout (s : State) : Host.Outcome State Fault Refusal := act (fun s => s.dirTimeout) s

/-- SETENT (R106). -/
def execSetent (i : Issue) (s : State) : Host.Outcome State Fault Refusal :=
  act (fun s => s.issueRow (.s 0x1D) i) s

/-- HALT (R119). -/
def execHalt (i : Issue) (s : State) : Host.Outcome State Fault Refusal :=
  act (fun s => s.issueRow (.s 0x1E) i) s

end Sys2Proof.Machine
end

