-- ==== Sys2Proof/Machine/Vector.lean ====
section
/-!
DEFINITION. Issue commands of the V0 and V1 slots, and the no-op (R80, R88, R97, R111).
-/

namespace Sys2Proof.Machine

/-- NOP (R80). -/
def execNop (i : Issue) (s : State) : Host.Outcome State Fault Refusal := act (fun s => s.issueRow .nop i) s

/-- CHAIN (R95). -/
def execChain (i : Issue) (s : State) : Host.Outcome State Fault Refusal := act (fun s => s.issueRow .v0 i) s

/-- FUNC (R197). -/
def execFunc (i : Issue) (s : State) : Host.Outcome State Fault Refusal :=
  act (fun s => s.issueRow (.v1 1) i) s

/-- GACT (R208). -/
def execGact (i : Issue) (s : State) : Host.Outcome State Fault Refusal :=
  act (fun s => s.issueRow (.v1 2) i) s

/-- CVT (R159). -/
def execCvt (i : Issue) (s : State) : Host.Outcome State Fault Refusal :=
  act (fun s => s.issueRow (.v1 3) i) s

/-- RED (R223). -/
def execRed (i : Issue) (s : State) : Host.Outcome State Fault Refusal :=
  act (fun s => s.issueRow (.v1 4) i) s

/-- SCAN (R226). -/
def execScan (i : Issue) (s : State) : Host.Outcome State Fault Refusal :=
  act (fun s => s.issueRow (.v1 5) i) s

/-- LSCAN (R227). -/
def execLscan (i : Issue) (s : State) : Host.Outcome State Fault Refusal :=
  act (fun s => s.issueRow (.v1 6) i) s

/-- PERM (R237). -/
def execPerm (i : Issue) (s : State) : Host.Outcome State Fault Refusal :=
  act (fun s => s.issueRow (.v1 7) i) s

/-- XPOSE (R238). -/
def execXpose (i : Issue) (s : State) : Host.Outcome State Fault Refusal :=
  act (fun s => s.issueRow (.v1 8) i) s

/-- CPRS (R239). -/
def execCprs (i : Issue) (s : State) : Host.Outcome State Fault Refusal :=
  act (fun s => s.issueRow (.v1 9) i) s

/-- EXPD (R239). -/
def execExpd (i : Issue) (s : State) : Host.Outcome State Fault Refusal :=
  act (fun s => s.issueRow (.v1 10) i) s

/-- TSEL (R240). -/
def execTsel (i : Issue) (s : State) : Host.Outcome State Fault Refusal :=
  act (fun s => s.issueRow (.v1 11) i) s

/-- GCMP (R292). -/
def execGcmp (i : Issue) (s : State) : Host.Outcome State Fault Refusal :=
  act (fun s => s.issueRow (.v1 12) i) s

/-- GDEC (R302). -/
def execGdec (i : Issue) (s : State) : Host.Outcome State Fault Refusal :=
  act (fun s => s.issueRow (.v1 13) i) s

/-- UPD (R304). -/
def execUpd (i : Issue) (s : State) : Host.Outcome State Fault Refusal :=
  act (fun s => s.issueRow (.v1 14) i) s

end Sys2Proof.Machine
end

