-- ==== Sys2Proof/Machine/Dispatch.lean ====
section
/-!
DEFINITION. One arm per command, each one call of its meaning.
-/

namespace Sys2Proof.Machine

open Sys2Proof

def exec (i : Instr) (s : State) : Host.Outcome State Fault Refusal :=
  match i with
  | .nop x => Sys2Proof.Machine.execNop x s
  | .chain x => Sys2Proof.Machine.execChain x s
  | .func x => Sys2Proof.Machine.execFunc x s
  | .gact x => Sys2Proof.Machine.execGact x s
  | .cvt x => Sys2Proof.Machine.execCvt x s
  | .red x => Sys2Proof.Machine.execRed x s
  | .scan x => Sys2Proof.Machine.execScan x s
  | .lscan x => Sys2Proof.Machine.execLscan x s
  | .perm x => Sys2Proof.Machine.execPerm x s
  | .xpose x => Sys2Proof.Machine.execXpose x s
  | .cprs x => Sys2Proof.Machine.execCprs x s
  | .expd x => Sys2Proof.Machine.execExpd x s
  | .tsel x => Sys2Proof.Machine.execTsel x s
  | .gcmp x => Sys2Proof.Machine.execGcmp x s
  | .gdec x => Sys2Proof.Machine.execGdec x s
  | .upd x => Sys2Proof.Machine.execUpd x s
  | .ld x => Sys2Proof.Machine.execLd x s
  | .st x => Sys2Proof.Machine.execSt x s
  | .gather x => Sys2Proof.Machine.execGather x s
  | .scatter x => Sys2Proof.Machine.execScatter x s
  | .mova x => Sys2Proof.Machine.execMova x s
  | .popq x => Sys2Proof.Machine.execPopq x s
  | .nsend x => Sys2Proof.Machine.execNsend x s
  | .nrecv x => Sys2Proof.Machine.execNrecv x s
  | .movs x => Sys2Proof.Machine.execMovs x s
  | .gets x => Sys2Proof.Machine.execGets x s
  | .kst x => Sys2Proof.Machine.execKst x s
  | .kld x => Sys2Proof.Machine.execKld x s
  | .tbld x => Sys2Proof.Machine.execTbld x s
  | .tbswap x => Sys2Proof.Machine.execTbswap x s
  | .scld x => Sys2Proof.Machine.execScld x s
  | .scst x => Sys2Proof.Machine.execScst x s
  | .lgst x => Sys2Proof.Machine.execLgst x s
  | .lgld x => Sys2Proof.Machine.execLgld x s
  | .pref x => Sys2Proof.Machine.execPref x s
  | .fencem x => Sys2Proof.Machine.execFencem x s
  | .addi x => Sys2Proof.Machine.execAddi x s
  | .add x => Sys2Proof.Machine.execAdd x s
  | .sub x => Sys2Proof.Machine.execSub x s
  | .mul x => Sys2Proof.Machine.execMul x s
  | .and x => Sys2Proof.Machine.execAnd x s
  | .or x => Sys2Proof.Machine.execOr x s
  | .xor x => Sys2Proof.Machine.execXor x s
  | .shli x => Sys2Proof.Machine.execShli x s
  | .shri x => Sys2Proof.Machine.execShri x s
  | .sari x => Sys2Proof.Machine.execSari x s
  | .shin x => Sys2Proof.Machine.execShin x s
  | .fadd x => Sys2Proof.Machine.execFadd x s
  | .fmul x => Sys2Proof.Machine.execFmul x s
  | .setvl x => Sys2Proof.Machine.execSetvl x s
  | .setrow x => Sys2Proof.Machine.execSetrow x s
  | .setes x => Sys2Proof.Machine.execSetes x s
  | .setd x => Sys2Proof.Machine.execSetd x s
  | .settw x => Sys2Proof.Machine.execSettw x s
  | .rdvl x => Sys2Proof.Machine.execRdvl x s
  | .jmp x => Sys2Proof.Machine.execJmp x s
  | .loop x => Sys2Proof.Machine.execLoop x s
  | .wait x => Sys2Proof.Machine.execWait x s
  | .waitEnd st => Sys2Proof.Machine.execWaitEnd st s
  | .waitTimeout st => Sys2Proof.Machine.execWaitTimeout st s
  | .picot x => Sys2Proof.Machine.execPicot x s
  | .picotPost => Sys2Proof.Machine.execPicotPost s
  | .waitdir x => Sys2Proof.Machine.execWaitdir x s
  | .dirTimeout => Sys2Proof.Machine.execDirTimeout s
  | .setent x => Sys2Proof.Machine.execSetent x s
  | .halt x => Sys2Proof.Machine.execHalt x s
  | .issueStop => Sys2Proof.Machine.execIssueStop s
  | .fabricTransferDone => Sys2Proof.Machine.execFabricTransferDone s
  | .fabricTimeout arrived => Sys2Proof.Machine.execFabricTimeout arrived s
  | .sendTimeout => Sys2Proof.Machine.execSendTimeout s
  | .recvTimeout x => Sys2Proof.Machine.execRecvTimeout x s
  | .popqTimeout x => Sys2Proof.Machine.execPopqTimeout x s
  | .laneError x errs handed => Sys2Proof.Machine.execLaneError x errs handed s
  | .retryReexecute => Sys2Proof.Machine.execRetryReexecute s
  | .darningDone pass16 pass17 => Sys2Proof.Machine.execDarningDone pass16 pass17 s
  | .slabSpareInDone => Sys2Proof.Machine.execSlabSpareInDone s
  | .leafRepairDone => Sys2Proof.Machine.execLeafRepairDone s
  | .proofingDone bad16 bad17 badSlabs => Sys2Proof.Machine.execProofingDone bad16 bad17 badSlabs s
  | .stagedDarningDone => Sys2Proof.Machine.execStagedDarningDone s
  | .scrubSlab hoop => Sys2Proof.Machine.execScrubSlab hoop s
  | .commitWalk => Sys2Proof.Machine.execCommitWalk s
  | .commitWalkEnd => Sys2Proof.Machine.execCommitWalkEnd s
  | .snapshotDone => Sys2Proof.Machine.execSnapshotDone s
  | .tbldDone => Sys2Proof.Machine.execTbldDone s
  | .verdict t favourable => Sys2Proof.Machine.execVerdict t favourable s
  | .verdictTimeout t => Sys2Proof.Machine.execVerdictTimeout t s
  | .swapTakesEffect slot => Sys2Proof.Machine.execSwapTakesEffect slot s
  | .partnerChangeEvent p => Sys2Proof.Machine.execPartnerChangeEvent p s
  | .reachabilityNotice package reachable => Sys2Proof.Machine.execReachabilityNotice package reachable s
  | .probeTimeout p => Sys2Proof.Machine.execProbeTimeout p s
  | .rollCallPublish => Sys2Proof.Machine.execRollCallPublish s
  | .couplingChange => Sys2Proof.Machine.execCouplingChange s
  | .tileCompletion tag stream tile => Sys2Proof.Machine.execTileCompletion tag stream tile s
  | .edgingRunStart => Sys2Proof.Machine.execEdgingRunStart s
  | .edgingRunEnd => Sys2Proof.Machine.execEdgingRunEnd s
  | .completionRunStart => Sys2Proof.Machine.execCompletionRunStart s
  | .edgingOverrun => Sys2Proof.Machine.execEdgingOverrun s
  | .maskRequest m row col => Sys2Proof.Machine.execMaskRequest m row col s
  | .recordVerified r => Sys2Proof.Machine.execRecordVerified r s
  | .mirrorLogWriteDone => Sys2Proof.Machine.execMirrorLogWriteDone s
  | .mirrorAck mseq => Sys2Proof.Machine.execMirrorAck mseq s
  | .ackTimeout mseq => Sys2Proof.Machine.execAckTimeout mseq s
  | .mirrorSend => Sys2Proof.Machine.execMirrorSend s
  | .descSendTimer => Sys2Proof.Machine.execDescSendTimer s
  | .mirrorFlushDone => Sys2Proof.Machine.execMirrorFlushDone s
  | .baseCopyDone => Sys2Proof.Machine.execBaseCopyDone s
  | .restoreDone => Sys2Proof.Machine.execRestoreDone s
  | .mirrorFoldDone => Sys2Proof.Machine.execMirrorFoldDone s
  | .stepOpen f => Sys2Proof.Machine.execStepOpen f s
  | .fwd f => Sys2Proof.Machine.execFwd f s
  | .bwd f => Sys2Proof.Machine.execBwd f s
  | .exch f => Sys2Proof.Machine.execExch f s
  | .update f => Sys2Proof.Machine.execUpdate f s
  | .guardFreeze => Sys2Proof.Machine.execGuardFreeze s
  | .commit f => Sys2Proof.Machine.execCommit f s
  | .abort f => Sys2Proof.Machine.execAbort f s
  | .idle f => Sys2Proof.Machine.execIdle f s
  | .userMark f => Sys2Proof.Machine.execUserMark f s
  | .clockQuiet => Sys2Proof.Machine.execClockQuiet s
  | .prickingStart entry => Sys2Proof.Machine.execPrickingStart entry s
  | .directionWord word => Sys2Proof.Machine.execDirectionWord word s
  | .keyLoad slot key => Sys2Proof.Machine.execKeyLoad slot key s
  | .sealedModeAssert => Sys2Proof.Machine.execSealedModeAssert s
  | .unsealRefused => Sys2Proof.Machine.execUnsealRefused s
  | .pwrReset => Sys2Proof.Machine.execPwrReset s
  | .pkgReset => Sys2Proof.Machine.execPkgReset s
  | .resetComplete => Sys2Proof.Machine.execResetComplete s
  | .pipeFault => Sys2Proof.Machine.execPipeFault s
  | .restitchDone => Sys2Proof.Machine.execRestitchDone s
  | .restTransitionDone => Sys2Proof.Machine.execRestTransitionDone s
  | .go w => Sys2Proof.Machine.execGo w s
  | .stop w => Sys2Proof.Machine.execStop w s
  | .blkReset w => Sys2Proof.Machine.execBlkReset w s
  | .dirword w word sameCycle => Sys2Proof.Machine.execDirword w word sameCycle s
  | .pstoreData a => Sys2Proof.Machine.execPstoreData a s
  | .vl w v => Sys2Proof.Machine.execVl w v s
  | .rowshape w v => Sys2Proof.Machine.execRowshape w v s
  | .cyValue w c ctl v => Sys2Proof.Machine.execCyValue w c ctl v s
  | .hoopData a => Sys2Proof.Machine.execHoopData a s
  | .leafData => Sys2Proof.Machine.execLeafData s
  | .swap w slot => Sys2Proof.Machine.execSwap w slot s
  | .slotCtl w v => Sys2Proof.Machine.execSlotCtl w v s
  | .slotEst w v => Sys2Proof.Machine.execSlotEst w v s
  | .slotAge w v => Sys2Proof.Machine.execSlotAge w v s
  | .liveSeedWrite w k v => Sys2Proof.Machine.execLiveSeedWrite w k v s
  | .stagedSeedWrite w k v => Sys2Proof.Machine.execStagedSeedWrite w k v s
  | .twistStepWrite w hi v => Sys2Proof.Machine.execTwistStepWrite w hi v s
  | .bCtl w b v => Sys2Proof.Machine.execBCtl w b v s
  | .estoreData a => Sys2Proof.Machine.execEstoreData a s
  | .release w bank => Sys2Proof.Machine.execRelease w bank s
  | .ledgerRelease bank => Sys2Proof.Machine.execLedgerRelease bank s
  | .ledgerData => Sys2Proof.Machine.execLedgerData s
  | .rollcall w => Sys2Proof.Machine.execRollcall w s
  | .accPortEn w v => Sys2Proof.Machine.execAccPortEn w v s
  | .queueUse w v => Sys2Proof.Machine.execQueueUse w v s
  | .bindMe w v present serving => Sys2Proof.Machine.execBindMe w v present serving s
  | .bindBuddy w v => Sys2Proof.Machine.execBindBuddy w v s
  | .reachData => Sys2Proof.Machine.execReachData s
  | .rx w v => Sys2Proof.Machine.execRx w v s
  | .planSrc w entry v => Sys2Proof.Machine.execPlanSrc w entry v s
  | .rejoin w => Sys2Proof.Machine.execRejoin w s
  | .foldRequest w => Sys2Proof.Machine.execFoldRequest w s
  | .restore w => Sys2Proof.Machine.execRestore w s
  | .basecopy w => Sys2Proof.Machine.execBasecopy w s
  | .flush w => Sys2Proof.Machine.execFlush w s
  | .rCtl w img entry v => Sys2Proof.Machine.execRCtl w img entry v s
  | .entryCtl w entry v => Sys2Proof.Machine.execEntryCtl w entry v s
  | .proof w arg => Sys2Proof.Machine.execProof w arg s
  | .measureEdge w => Sys2Proof.Machine.execMeasureEdge w s
  | .guardSet w => Sys2Proof.Machine.execGuardSet w s
  | .restitch w => Sys2Proof.Machine.execRestitch w s
  | .darnApply w => Sys2Proof.Machine.execDarnApply w s
  | .snap w => Sys2Proof.Machine.execSnap w s
  | .cntClear w => Sys2Proof.Machine.execCntClear w s
  | .darnLog => Sys2Proof.Machine.execDarnLog s
  | .stageData a => Sys2Proof.Machine.execStageData a s
  | .restCtrl w req => Sys2Proof.Machine.execRestCtrl w req s
  | .enable w v => Sys2Proof.Machine.execEnable w v s
  | .localMarks w v => Sys2Proof.Machine.execLocalMarks w v s
  | .injGo w => Sys2Proof.Machine.execInjGo w s
  | .injLane w v => Sys2Proof.Machine.execInjLane w v s
  | .localMarkHi w v => Sys2Proof.Machine.execLocalMarkHi w v s
  | .pageLock w page v => Sys2Proof.Machine.execPageLock w page v s
  | .registerWrite w page off size v => Sys2Proof.Machine.execRegisterWrite w page off size v s
  | .outboundCredit package count => Sys2Proof.Machine.execOutboundCredit package count s
  | .recordLeavesPort => Sys2Proof.Machine.execRecordLeavesPort s
  | .mailboxEntryConsumed => Sys2Proof.Machine.execMailboxEntryConsumed s
  | .registerPairRead page place => Sys2Proof.Machine.execRegisterPairRead page place s
  | .measurementStreamEnd => Sys2Proof.Machine.execMeasurementStreamEnd s
  | .coreRailPowerLoss => Sys2Proof.Machine.execCoreRailPowerLoss s

end Sys2Proof.Machine
end

