-- ==== Sys2Proof/Machine/Step.lean ====
section
/-!
DEFINITION. One step: the command at the front of the queue is taken and executed on the state with the rest
of the queue; on an empty queue the block idles, but for the release of a reset that the package holds and for
arrivals that the trigger queue has room for again.
-/

namespace Sys2Proof.Machine

open Sys2Proof

/-- The command at the front of the queue takes effect. On an empty queue the block idles, except that a reset that
the package holds is released (R389) and held arrivals go on where the trigger queue has room (R246, R283; log 2). -/
def step (s : State) : Host.Outcome State Fault Refusal :=
  match s.pending with
  | [] => .next s.tick
  | c :: cs => exec c { s with pending := cs }

/-- The state with the command that a table word spells at the front of its queue; unchanged where the word
spells none, and no row of the table gives bits. -/
def State.withFetchWord (s : State) (nbits w : Nat) : State :=
  match decodeTableWord nbits w with
  | some c => { s with pending := c :: s.pending }
  | none => s

end Sys2Proof.Machine
end

