-- ==== Sys2Proof/WellFormed.lean ====
section
/-!
DEFINITION. Well-formed commands: the operands that the opcode table's rows admit. Whether a bundle is legal
is not a matter of form: an illegal bundle is a command, and R38 says what it does.
-/

namespace Sys2Proof

/-- The row of a command that issues a bundle; none for the other commands (R80, R88, R97, R101, R106). -/
def Instr.row : Instr → Option (Row × Issue)
  | .nop i => some (.nop, i)
  | .chain i => some (.v0, i)
  | .func i => some (.v1 1, i)
  | .gact i => some (.v1 2, i)
  | .cvt i => some (.v1 3, i)
  | .red i => some (.v1 4, i)
  | .scan i => some (.v1 5, i)
  | .lscan i => some (.v1 6, i)
  | .perm i => some (.v1 7, i)
  | .xpose i => some (.v1 8, i)
  | .cprs i => some (.v1 9, i)
  | .expd i => some (.v1 10, i)
  | .tsel i => some (.v1 11, i)
  | .gcmp i => some (.v1 12, i)
  | .gdec i => some (.v1 13, i)
  | .upd i => some (.v1 14, i)
  | .ld i => some (.m 1, i)
  | .st i => some (.m 2, i)
  | .gather i => some (.m 3, i)
  | .scatter i => some (.m 4, i)
  | .mova i => some (.m 5, i)
  | .popq i => some (.m 6, i)
  | .nsend i => some (.m 7, i)
  | .nrecv i => some (.m 8, i)
  | .movs i => some (.m 9, i)
  | .gets i => some (.m 10, i)
  | .kst i => some (.m 11, i)
  | .kld i => some (.m 12, i)
  | .tbld i => some (.m 13, i)
  | .tbswap i => some (.m 14, i)
  | .scld i => some (.m 15, i)
  | .scst i => some (.m 16, i)
  | .lgst i => some (.m 17, i)
  | .lgld i => some (.m 18, i)
  | .pref i => some (.m 19, i)
  | .fencem i => some (.m 20, i)
  | .addi i => some (.s 0x01, i)
  | .add i => some (.s 0x02, i)
  | .sub i => some (.s 0x03, i)
  | .mul i => some (.s 0x04, i)
  | .and i => some (.s 0x05, i)
  | .or i => some (.s 0x06, i)
  | .xor i => some (.s 0x07, i)
  | .shli i => some (.s 0x08, i)
  | .shri i => some (.s 0x09, i)
  | .sari i => some (.s 0x0A, i)
  | .shin i => some (.s 0x0B, i)
  | .fadd i => some (.s 0x0C, i)
  | .fmul i => some (.s 0x0D, i)
  | .setvl i => some (.s 0x10, i)
  | .setrow i => some (.s 0x11, i)
  | .setes i => some (.s 0x12, i)
  | .setd i => some (.s 0x13, i)
  | .settw i => some (.s 0x14, i)
  | .rdvl i => some (.s 0x15, i)
  | .jmp i => some (.s 0x18, i)
  | .loop i => some (.s 0x19, i)
  | .wait i => some (.s 0x1A, i)
  | .picot i => some (.s 0x1B, i)
  | .waitdir i => some (.s 0x1C, i)
  | .setent i => some (.s 0x1D, i)
  | .halt i => some (.s 0x1E, i)
  | _ => none

/-- A lane error names a panel 0 to 17 for a vector slot, the scalar unit 31 for the S slot (R324, R454). -/
def LaneErr.wf (e : LaneErr) : Bool := if e.slot = 3 then e.panel == 31 else e.panel.toNat ≤ 17

/-- A record as it crosses the port: 16 header words and one slab (R281). -/
def WireRec.wf (r : WireRec) : Bool := r.hdr.length == 16 && r.body.length == 4096

/-- The elements of a completed tile: 128 × 128, each at most once (R271). -/
def tileWf (tile : List (Nat × Word)) : Bool :=
  tile.all (fun p => decide (p.1 < 16384)) && decide (tile.map (·.1)).Nodup

/-- The code that a mark's row stands for (R313). -/
def markWf (code : Nat) (f : Frame) : Bool := f.code.toNat == code

/-- A command's operands are of the form its row admits. -/
def Instr.wf (c : Instr) : Bool :=
  match c.row with
  | some (r, i) => i.bundle.carries r
  | none =>
    match c with
    | .recvTimeout i => i.bundle.m.major == 8
    | .popqTimeout i => i.bundle.m.major == 6
    | .laneError _ errs _ => errs != [] && errs.all LaneErr.wf
    | .fabricTimeout arrived => decide (arrived < 2 ^ 4096)
    | .tileCompletion _ _ tile => tileWf tile
    | .recordVerified r => r.wf
    | .stepOpen f => markWf 0 f
    | .fwd f => markWf 1 f
    | .bwd f => markWf 2 f
    | .exch f => markWf 3 f
    | .update f => markWf 4 f
    | .commit f => markWf 5 f
    | .abort f => markWf 6 f
    | .idle f => markWf 7 f
    | .userMark f => decide (8 ≤ f.code.toNat)
    | .registerWrite _ page off size _ => !(size == .word && page == 8 && off == 0x048)
    | _ => true

/-- The command may execute a bundle: a row of a slot, a limit of a bundle that waits for the port or for credit, or a
re-execution. -/
def Instr.runs (c : Instr) : Bool :=
  c.row.isSome || match c with
    | .recvTimeout _ | .popqTimeout _ | .sendTimeout | .retryReexecute => true
    | _ => false

/-- The command ends a session or a rest: a power-on or package reset, a loss of power, the end of a reset or of a
transition. -/
def Instr.ends : Instr → Bool
  | .pwrReset | .pkgReset | .coreRailPowerLoss | .resetComplete | .restTransitionDone => true
  | _ => false

/-- The command writes a register that its address names. -/
def Instr.writesPage : Instr → Bool
  | .registerWrite .. => true
  | _ => false

end Sys2Proof
end

