-- ==== Sys2Proof/Safety.lean ====
section
/-!
DEFINITION. What claims say about states: the canonical form of every sparse array, when an offered bundle
executes, what the scalar majors compute, and the bounds that every run keeps.
-/

namespace Sys2Proof

/-- A bundle whose V0, V1 and M slots are all zero. -/
def Bundle.scalarOnly (b : Bundle) : Bool := b.v0.isNop && b.v1.isNop && b.m.isNop

/-- What a masked destination element takes (R62): zero under MP 1, else nothing. -/
def Bundle.off (b : Bundle) : Option Nat := if b.v0.mp = 1 then some 0 else none

/-- The M slot writes no slab while its bundle issues. -/
def MSlot.quiet (m : MSlot) : Bool := !([5, 6, 8, 9, 11].contains m.major.toNat)

end Sys2Proof

namespace Sys2Proof.Machine

/-- Every sparse array of the state lists its indices rising and no entry equal to what an unlisted index reads as:
hoops, fabric memory, program and edging store, plain registers, reachability map, scale slots, ledger entries,
credit, correctable-error counts and stage. -/
def State.canon (s : State) : Bool :=
  SMap.wf 0 s.hoops && SMap.wf 0 s.fabric && SMap.wf 0 s.pstore && SMap.wf 0 s.estore && SMap.wf 0 s.regs &&
    SMap.wf 0 s.partner.reach && SMap.wf ScaleSlot.reset s.scale.slots && SMap.wf LedgerEntry.reset s.edging.entries &&
    SMap.wf 0 s.net.credit && SMap.wf 0 s.hoopMeta.ceCount && SMap.wf 0 s.trouble.stage

/-- The state without what a vector slot can write: hoop bytes and their errors, masks, carries, scale slots, the
mirror's queue, RCOUNT, numbers drawn, sticky bits, flags, counters, the guard, the darn log and CAP_GEN. Two states that
agree here differ in nothing else. -/
def State.offLane (s : State) : State :=
  { s with
    hoops := [], ecc := [], masks := masksReset, carries := Vector.replicate 4 Carry.reset
    scale := ScaleUnit.reset, mirror := MirrorUnit.reset, net := { s.net with rcount := 0 }, freeCount := 0, capGen := 0
    pages := s.pages.map fun h => { h with sticky := 0 }
    trouble := { s.trouble with
      flags := 0, counters := Vector.replicate 25 0, guardBit := false, darnLog := [] } }

/-- The state without what a vector slot or the M slot can write: besides `offLane` the outstanding transfers,
table slots, keys, the network port, the scalars, strides and descriptors of the streams, the matrix engine's
tiles, the packages exchanged with, and what the engine has sent. -/
def State.offPort (s : State) : State :=
  { s.offLane with
    ctx := Ctx.reset, xfers := [], motif := Motif.reset, keys := SealUnit.reset, net := NetUnit.reset
    outbox := [], partner := { s.partner with recent := [] }
    edging := { s.edging with tiles := [], run := s.edging.run.map fun r => { r with ctx := Ctx.reset } } }

/-- The main program's context and the active run. -/
def State.streams (s : State) : Ctx × Option Run := (s.ctx, s.edging.run)

/-- The engine is powered and in no session-ending reset. -/
def State.live (s : State) : Bool := s.powered && s.resetting.isNone

/-- What the bundle of an issue executes on. -/
def State.env (s : State) (i : Issue) : Env := ⟨s, i.stream, i.bundle, s.twCap⟩

/-- The hoops that the bundle of an issue names. -/
def State.namedHoops (s : State) (i : Issue) : List Nat :=
  (s.names i.stream (slabUses s (s.ctxOf i.stream).ew.bytes i.bundle)).filterMap fun n => n.2.2.map (·.1)

/-- The bundle of the issue stands at its stream's position, which offers it, and nothing keeps it from
executing: it is legal (R38), its hoops are present and, for the main program, not lent (R44, R244, R298), it
need not wait (R112, R114) beyond a limit that `o` says has passed (R275, R301), an edging run's partner is there
(R285, R300), and no storage or lane error is found (R72, R216, R325). -/
structure Clear (s : State) (i : Issue) (o : MOut := .normal) : Prop where
  offered : s.canOffer i.stream = true
  atPc : s.fetched i.stream = i.bundle
  sound : s.fetchErrs i.stream = []
  legal : s.legalHere i.stream i.bundle = true
  present : ∀ h ∈ s.namedHoops i, s.hoopPresent h = true
  kept : i.stream = .main → ∀ h ∈ s.namedHoops i,
    s.lentHoop h = false ∧ (s.net.rxEn = true → h ≠ s.net.rxHoop.toNat)
  ready : s.mustWait (s.env i) o = false
  tile : i.stream = .edge → i.bundle.m.major = 5 → s.meUp = true
  arrival : i.stream = .edge → i.bundle.m.major = 8 → s.nextGone (s.env i).netAddr = false ∧
    match s.nextArrival (s.env i).netAddr with
    | some (_, x) => x.goneRelease = false
    | none => s.reachable (addrPackage (s.env i).netAddr) = true
  reads : (s.env i).readErrs = []
  table : (s.env i).leafErrs = []
  lanes : (s.env i).injected = none

/-- The state after the bundle of an issue has executed, before the command settles. -/
def State.executed (s : State) (i : Issue) : State := execBundle (s.env i) .normal false

/-- A 64-bit integer brought back to a register (R106). -/
def wrap64 (x : Int) : BitVec 64 := BitVec.ofInt 64 x

/-- What R106 gives SD from SA, SB and IMM, computed on integers; none for a major that it does not give
there. -/
def scalarRule (major : Nat) (imm : BitVec 11) (a b : BitVec 64) : Option (BitVec 64) :=
  let k := imm.toNat % 64
  match major with
  | 0x01 => some (wrap64 (a.toInt + imm.toInt))
  | 0x02 => some (wrap64 (a.toInt + b.toInt))
  | 0x03 => some (wrap64 (a.toInt - b.toInt))
  | 0x04 => some (wrap64 (a.toInt * b.toInt))
  | 0x05 => some (a &&& b)
  | 0x06 => some (a ||| b)
  | 0x07 => some (a ^^^ b)
  | 0x08 => some (wrap64 (a.toNat * 2 ^ k))
  | 0x09 => some (wrap64 (a.toNat / 2 ^ k))
  | 0x0A => some (wrap64 (a.toInt / 2 ^ k))
  | 0x0B => some (wrap64 (a.toNat * 2 ^ 11 + imm.toNat))
  | _ => none

/-- The state without what the S slot can write: the streams' contexts and positions, the waits, stop and picots
of issue, the entry points (registers 0x060 to 0x07C of page 1), flags, counters, sticky bits, and what settling can
change. -/
def State.offScalar (s : State) : State :=
  { s with
    ctx := Ctx.reset, issue := IssueUnit.reset, capGen := 0, outbox := []
    regs := s.regs.filter fun c => !(0x1060 ≤ c.1 && c.1 < 0x1080)
    pages := s.pages.map fun h => { h with sticky := 0 }
    trouble := { s.trouble with
      flags := 0, counters := Vector.replicate 25 0, first := 0, firstStep := 0, engineDown := false }
    edging := { s.edging with
      trig := [], tiles := []
      run := s.edging.run.map fun r =>
        { r with ctx := Ctx.reset, pc := 0, wait := none, ended := none, abortAt := 0 } } }

/-- The length that R52 and R56 grant a signed request under a maximum. -/
def granted (want : Int) (most : Nat) : Nat := if want < 0 then 0 else if (most : Int) < want then most else want.toNat

/-! ### What the cells of a chain compute -/

/-- The pattern of a negated value of a chain format (R147, R151): the sign bit inverted, a NaN canonical; an integer
negated and saturated. -/
def flipped (cf : CF) (c : Nat) : Nat :=
  if cf = .i32 then ((min (2 ^ 31 - 1) (-(signedValue 32 c))) % 2 ^ 32).toNat
  else if (cf.value c).isNan then cf.nanCode
  else if c.testBit 31 then c - 2 ^ 31
  else c + 2 ^ 31

/-- The pattern of a sum in a chain format, rounded once by RNE or saturated (R92, R148, R151). -/
def cellSum (cf : CF) (x y : Nat) : Nat :=
  if cf = .i32 then ((max (-(2 ^ 31)) (min (2 ^ 31 - 1) (signedValue 32 x + signedValue 32 y))) % 2 ^ 32).toNat
  else (cf.round ((cf.value x).add (cf.value y))).val

/-- The pattern of a product in a chain format, rounded once by RNE or saturated (R92, R145, R151). -/
def cellProduct (cf : CF) (x y : Lane) : Nat :=
  if cf = .i32 then ((max (-(2 ^ 31)) (min (2 ^ 31 - 1) (signedValue 32 x.code * signedValue 32 y.code))) % 2 ^ 32).toNat
  else (cf.round (productNum cf x y)).val

/-- The result of a cell and the chain predicate after it, as R91 tabulates them: `p` is the predicate that a SEL cell
sees, `rz` says that a CVT cell rounds toward zero (R93). -/
def cellRule (cf : CF) (rz : Bool) (op fn : Nat) (x y z : Lane) (p : Bool) : Nat :=
  let vx := cf.value x.code
  let vy := cf.value y.code
  let nan : Bool := vx.isNan || vy.isNan
  let less : Bool := vx.lt vy || (vx.isZero && vy.isZero && vx.isNeg && !vy.isNeg)
  let finite (c : Nat) : Nat := if cf = .f32 then (if c = 0x7F800000 then 0x7F7FFFFF else if c = 0xFF800000 then 0xFF7FFFFF else c) else c
  let w := BitVec.ofNat 32 x.code
  let k := y.code % 32
  match op with
  | 1 =>
    let m := cellProduct cf x y
    cellSum cf (if fn % 2 = 1 then flipped cf m else m) (if fn / 2 % 2 = 1 then flipped cf z.code else z.code)
  | 2 =>
    if fn = 0 then cellSum cf x.code y.code
    else if cf = .i32 then
      let d := if fn = 1 then signedValue 32 x.code - signedValue 32 y.code else signedValue 32 y.code - signedValue 32 x.code
      ((max (-(2 ^ 31)) (min (2 ^ 31 - 1) d)) % 2 ^ 32).toNat
    else if fn = 1 then cellSum cf x.code (flipped cf y.code)
    else cellSum cf y.code (flipped cf x.code)
  | 3 => if fn = 1 then flipped cf (cellProduct cf x y) else cellProduct cf x y
  | 4 | 5 =>
    if nan then (if fn = 0 ∨ (vx.isNan ∧ vy.isNan) then cf.nanCode else if vx.isNan then y.code else x.code)
    else if less = (op = 4) then x.code else y.code
  | 6 => x.code
  | 7 => if p != (fn == 1) then x.code else y.code
  | 8 =>
    finite (match fn with
      | 0 => x.code &&& y.code
      | 1 => x.code ||| y.code
      | 2 => x.code ^^^ y.code
      | 3 => x.code &&& (y.code ^^^ 0xFFFFFFFF)
      | 4 => x.code ^^^ 0xFFFFFFFF
      | _ => x.code % 2 ^ 31 + (if y.code.testBit 31 then 2 ^ 31 else 0))
  | 9 =>
    finite (match fn with
      | 0 => (w <<< k).toNat
      | 1 => (w >>> k).toNat
      | 2 => (w.sshiftRight k).toNat
      | _ => (w.rotateRight k).toNat)
  | 10 =>
    let m : Rnd := if rz then .rz else .rne
    if fn = 6 then
      match vx with
      | .fin s mag exp => if 0 ≤ exp then x.code else (cf.round (.fin s (roundWeight mag exp 0 m).1 0)).val
      | _ => cf.nanCode
    else
      let t : Fmt := [Fmt.bf16, .f16, .e4m3, .e5m2, .int8, .int16].getD fn .int16
      let c := (t.round vx m).val
      if cf = .i32 then (signedValue (8 * t.bytes) c % 2 ^ 32).toNat else (cf.round (t.value c)).val
  | _ =>
    if fn = 0 then x.code
    else if cf = .i32 then
      (if fn = 1 then flipped cf x.code else ((min (2 ^ 31 - 1) ((signedValue 32 x.code).natAbs : Int)) % 2 ^ 32).toNat)
    else if vx.isNan then cf.nanCode
    else if fn = 1 then flipped cf x.code
    else x.code % 2 ^ 31

/-- The predicate that a CMP cell computes (R91, R150). -/
def cmpRule (cf : CF) (fn : Nat) (x y : Nat) : Bool :=
  let a := cf.value x
  let b := cf.value y
  if a.isNan || b.isNan then fn == 1 || fn == 6
  else
    match fn with
    | 0 => a.eqv b
    | 1 => !a.eqv b
    | 2 => a.lt b
    | 3 => a.lt b || a.eqv b
    | 4 => b.lt a
    | 5 => b.lt a || a.eqv b
    | 6 => false
    | _ => true

/-- The cells of a chain in order up to the first NONE, from operands A, B and C and bit `kd` of KD: the result and
the predicate of the last CMP cell (R89, R90, R94). -/
def chainRule (cf : CF) (rz : Bool) (a b c : Lane) (kd : Bool) : List Cell → Lane → Option Bool → Nat × Option Bool
  | [], x, p => (x.code, p)
  | g :: gs, x, p =>
    if g.op = 0 then (x.code, p)
    else
      let pick (n : BitVec 2) : Lane := [b, c, a, ⟨0, true⟩].getD n.toNat ⟨0, true⟩
      let y := pick g.ys
      chainRule cf rz a b c kd gs ⟨cellRule cf rz g.op.toNat g.fn.toNat x y (pick g.zs) (p.getD kd), false⟩
        (if g.op = 6 then some (cmpRule cf g.fn.toNat x.code y.code) else p)

/-! ### Elements as they lie in the hoops -/

/-- The code of element `j` of width `w` in the run that operand field `f` names (R48, R49): `VLMAX` elements to
a slab, little-endian. -/
def State.elem (s : State) (st : Stream) (f : BitVec 8) (w j : Nat) : Nat :=
  let o := Opnd.of f
  match s.resolve st o.h (o.k + j / s.vlmaxAt w) with
  | some (h, k) => leNat (getBytes s.hoops (s.slabBase h k + j % s.vlmaxAt w * w) w)
  | none => 0

/-- The element that source field `f` delivers to element `j`: a broadcast delivers element 0 (R57). -/
def State.source (s : State) (st : Stream) (f : BitVec 8) (w j : Nat) : Nat :=
  s.elem st f w (if f.getLsbD 7 then 0 else j)

/-- A byte address of the hoops lies in the part of a slab of the run that vector instructions reach (R43). -/
def State.inRun (s : State) (st : Stream) (f : BitVec 8) (w run a : Nat) : Prop :=
  ∃ j, j < run ∧ ∃ h k, s.resolve st (Opnd.of f).h ((Opnd.of f).k + j) = some (h, k) ∧
    s.slabBase h k ≤ a ∧ a < s.slabBase h k + s.vlmaxAt w * w

/-- A byte address of the hoops lies in a slab of an operand. -/
def SlabUse.lies (s : State) (st : Stream) (u : SlabUse) (a : Nat) : Prop :=
  ∃ h k, some (h, k) ∈ u.slabs s st ∧ s.slabBase h k ≤ a ∧ a < s.slabBase h k + 4096

/-- From `s` to `t` the run that destination field `f` names takes the codes that `vals` gives, keeps its other
elements, and no other byte of the hoops changes; NW writes nothing (R54, R62, R83). -/
def WritesRun (s t : State) (st : Stream) (f : BitVec 8) (w : Nat) (vals : Nat → Option Nat) : Prop :=
  if f.getLsbD 7 then t.hoops = s.hoops
  else
    let run := runLen (s.ctxOf st).ew.bytes w
    (∀ j, j / s.vlmaxAt w < run → t.elem st f w j =
      (if j < (s.ctxOf st).vl then ((vals j).map (· % 2 ^ (8 * w))).getD (s.elem st f w j) else s.elem st f w j)) ∧
    ∀ a, ¬ s.inRun st f w run a → t.hoops.get 0 a = s.hoops.get 0 a

/-- The 32-bit word `n` of the slab that field `f` names (R6, R43). -/
def State.slabWord (s : State) (st : Stream) (f : BitVec 8) (n : Nat) : Word :=
  let o := Opnd.of f
  match s.resolve st o.h o.k with
  | some (h, k) => BitVec.ofNat 32 (leNat (getBytes s.hoops (s.slabBase h k + 4 * n) 4))
  | none => 0

/-- The length of a segment (R55). -/
def Ctx.segment (c : Ctx) : Nat := if c.rowshape = 0 then c.vl else c.rowshape

/-- The items of segment `g` in order (R55). -/
def Ctx.segItems {α : Type} (c : Ctx) (item : Nat → α) (g : Nat) : List α :=
  (List.range (min c.segment (c.vl - g * c.segment))).map fun x => item (g * c.segment + x)

/-- Element `j` is active under mask K(km) (R61). -/
def State.on (s : State) (km : BitVec 3) (j : Nat) : Bool := (s.mask km.toNat).getLsbD j

/-- VL and ROWSHAPE of a context are within VLMAX (R52, R56). -/
def State.within (s : State) (c : Ctx) : Prop := c.vl ≤ s.vlmax c.ew ∧ c.rowshape ≤ s.vlmax c.ew

/-- No more than sixteen panels compute (R31), and outside a session-ending reset, while no aborted bundle waits for
its re-execution, the lengths of both streams are within VLMAX (R42, R52, R56). -/
def State.bounded (s : State) : Prop :=
  s.active ≤ 16 ∧ (s.resetting = none → s.issue.retry = none →
    s.within s.ctx ∧ ∀ r, s.edging.run = some r → s.within r.ctx)

/-! ### Transfers -/

/-- What a completed store leaves at a byte address (R60, R285, R286): the byte of the last element, in ascending
order, that names it, was made and was delivered to its target. -/
def State.storedByte (s : State) (els : List StoreEl) (lost : List LostTarget) (made : Nat → Bool) (a : Nat) :
    Option Byte :=
  (els.zipIdx.reverse.find? fun p => p.1.addr ≤ a && a < p.1.addr + p.1.bytes.length &&
    s.present lost p.2 p.1.addr p.1.bytes.length && made p.2).bind fun p => p.1.bytes[a - p.1.addr]?

/-- What a completed load leaves at a hoop byte (R278, R279, R285, R286): the byte of the last element, in ascending
order, that names it; zero where the element did not arrive. -/
def State.loadedByte (s : State) (els : List LoadEl) (lost : List LostTarget) (made : Nat → Bool) (a : Nat) :
    Option Byte :=
  (els.zipIdx.reverse.find? fun p => s.nameKey p.1.dst ≤ a && a < s.nameKey p.1.dst + (p.1.bits + 7) / 8).map fun p =>
    if s.loadReach lost p.2 p.1 && made p.2 then (s.loadBytes p.1).getD (a - s.nameKey p.1.dst) 0 else 0

/-! ### Registers -/

/-- A register write of `w` on page `p` reaches its register (R392, R397, R422). -/
def State.takes (s : State) (w : Writer) (p : Nat) : Bool := s.answers p && s.admits w p

/-- A read of `off` on page `p` is answered with the live value: the page answers, the offset is a word's, no
capture is waiting there (R12), no commit walk holds a scale slot (R180), and no held write is to change what the
read answers (R461). -/
def State.readable (s : State) (p off : Nat) : Bool :=
  s.answers p && off % 4 == 0 && !s.readHeld p off && ((s.page p).capture.map (·.1)) != some off

/-- ADDR register `b` follows `a` after an access: with AUTOINC the index, its low `width` bits, goes on by one and
after the last of `size` to 0 (R424). -/
def Steps (size width : Nat) (a b : Word) : Prop :=
  let i := a.toNat % 2 ^ width
  if a.getLsbD 31 then
    b.toNat / 2 ^ width = a.toNat / 2 ^ width ∧
      b.toNat % 2 ^ width = if i + 1 = size then 0 else (i + 1) % 2 ^ width
  else b = a

/-- The coupling `c` in force, no change held, while no run is active. With no matrix engine bound a WAIT of kind 1
that waits ends at once with SD = 1 (R285). -/
def State.coupled (s : State) (c : Coupling) : State :=
  let t : State := { s with partner := { s.partner with coupling := c, couplingHeld := none } }
  match t.issue.wait with
  | some ⟨.bobbin, sd, _⟩ =>
    if c.meSrc = 0xFF then
      (({ t with issue := { t.issue with wait := none }, ctx := t.ctx.setS sd 1 } : State)).passEnd .main
    else t
  | _ => t

/-- The coupling after a write that makes it `c`: at once where nothing of the edge is under way, else held
(R273, R443). -/
def State.recouple (s : State) (c : Coupling) : State :=
  if c = s.partner.couplingHeld.getD s.partner.coupling then s
  else if s.edging.trig = [] ∧ s.edging.run = none ∧ s.edging.tiles = [] then s.coupled c
  else { s with partner := { s.partner with couplingHeld := some c } }

end Sys2Proof.Machine
end

