-- ==== Sys2Proof/Certificates/Slice0/Obligations.lean ====
section
/-!
DEFINITION. The statements for the provers.
-/

open Sys2Proof Sys2Proof.Machine

/-! ### The machine -/

/-- A step takes the command at the front of the queue and executes it on the state with the rest of the
queue; with no command waiting the block idles, but that a reset which the package holds is released (R389) and that
arrivals which a full trigger queue held go on as far as it has room (R246, R283; that these happen on an empty queue is
the model's choice, log 2). -/
def Obligations.StepTakesFront : Prop :=
  (∀ (c : Instr) (cs : List Instr) (s : State), s.pending = c :: cs → step s = exec c { s with pending := cs }) ∧
  ∀ s : State, s.pending = [] →
    (s.resetHeld = true → step s = .next { s with resetHeld := false }) ∧
    (s.resetHeld = false → s.works = false → step s = .next s) ∧
    (s.resetHeld = false → s.works = true →
      step s = .next (s.settle s.runPlan) ∧ (16 ≤ s.edging.trig.length → let t := s.runPlan
        t.edging = s.edging ∧ t.net.planNext = s.net.planNext ∧ t.net.released = s.net.released ∧ t.net.gones = s.net.gones ∧
        ∀ (k : Nat) x, s.net.slots[k]? = some (some x) → ∃ y, t.net.slots[k]? = some (some y) ∧ y.released = x.released))

/-- R45 and R247, for every command: where no active panel or no present hoop is left after it, ENGINE_DOWN is
set and the trigger queue is empty. -/
def Obligations.DownAfterEveryCommand : Prop :=
  ∀ (c : Instr) (s t : State), exec c s = .next t → t.live = true →
    (t.active = 0 ∨ ∀ h, t.hoopPresent h = false) → t.trouble.engineDown = true ∧ t.edging.trig = []

/-- R404, for every command: as long as FIRST.VALID stays clear, no sticky bit of any page comes to be set. -/
def Obligations.FirstCatchesEveryBit : Prop :=
  ∀ (c : Instr) (s t : State), exec c s = .next t → t.live = true → t.trouble.first.getLsbD 31 = false →
    ∀ p, p < 16 → ∀ b, b < 32 → (t.sticky p).getLsbD b = true → (s.sticky p).getLsbD b = true

/-- R34, for every command: where a capability figure differs afterwards, IDENT sticky bit CAP_CHANGE is set. -/
def Obligations.CapChangeMarked : Prop :=
  ∀ (c : Instr) (s t : State), exec c s = .next t → t.live = true → t.figures ≠ s.figures →
    (t.sticky 0).getLsbD 0 = true

/-! ### Issue -/

/-- R111: for each of the 62 rows that issue a bundle, a bundle that carries the row's instruction and that
nothing keeps from executing executes: all four slots take effect, each on the state before the bundle. -/
def Obligations.ClearBundleExecutes : Prop :=
  ∀ (c : Instr) (row : Row) (i : Issue) (s : State), c.row = some (row, i) → c.wf = true → Clear s i →
    exec c s = .next (State.settle s (s.executed i))

/-- R106: the eleven integer majors (ADDI, ADD, SUB, MUL, AND, OR, XOR, SHLI, SHRI, SARI, SHIN) give SD the value of
the rule, computed on integers and wrapped; S0 stays zero (R66), the position advances by one, and no other scalar
changes but one that GETS of the same bundle writes. -/
def Obligations.IntegerMajors : Prop :=
  ∀ (c : Instr) (k : Nat) (i : Issue) (s : State) (v : BitVec 64), c.row = some (.s k, i) → c.wf = true →
    Clear s i →
    scalarRule k i.bundle.s.imm ((s.ctxOf i.stream).sreg i.bundle.s.sa) ((s.ctxOf i.stream).sreg i.bundle.s.sb) =
      some v →
    ∃ t, exec c s = .next t ∧ t.pcOf i.stream = s.pcOf i.stream + 1 ∧
      (t.ctxOf i.stream).sreg i.bundle.s.sd = (if i.bundle.s.sd = 0 then 0 else v) ∧
      ∀ r, r ≠ i.bundle.s.sd → (i.bundle.m.major = 10 → r ≠ i.bundle.m.sreg) →
        (t.ctxOf i.stream).sreg r = (s.ctxOf i.stream).sreg r

/-- R106 and R152: FADD and FMUL act on the low words as F32 lanes behind the operand gate, round by RNE, and
clear the high word of SD. -/
def Obligations.F32Majors : Prop :=
  ∀ (c : Instr) (k : Nat) (i : Issue) (s : State), c.row = some (.s k, i) → c.wf = true → Clear s i →
    k = 0x0C ∨ k = 0x0D →
    let x := (loadLane .f32 .f32 (((s.ctxOf i.stream).sreg i.bundle.s.sa).toNat % 2 ^ 32)).val
    let y := (loadLane .f32 .f32 (((s.ctxOf i.stream).sreg i.bundle.s.sb).toNat % 2 ^ 32)).val
    let z := if k = 0x0C then Fmt.f32.round ((Fmt.f32.value x.code).add (Fmt.f32.value y.code)) .rne
      else Fmt.f32.round (productNum .f32 x y) .rne
    ∃ t, exec c s = .next t ∧ t.pcOf i.stream = s.pcOf i.stream + 1 ∧
      (t.ctxOf i.stream).sreg i.bundle.s.sd = (if i.bundle.s.sd = 0 then 0 else BitVec.ofNat 64 z.val)

/-- R52 and R56: SETVL sets EW and grants VL from the whole signed SA against the new VLMAX, SETROW grants
ROWSHAPE, and each returns its grant in SD; a request above the maximum sets the clamp bit. SETVL also brings
ROWSHAPE down to the new VLMAX. -/
def Obligations.LengthMajors : Prop :=
  ∀ (i : Issue) (s : State), Clear s i →
    let c := s.ctxOf i.stream
    let v := i.bundle.s
    let want := (c.sreg v.sa).toInt
    (v.major = 0x10 →
      let ew : EW := if v.imm.toNat % 4 = 0 then .w8 else if v.imm.toNat % 4 = 1 then .w16 else .w32
      let g := granted want (s.vlmax ew)
      ∃ t, exec (.setvl i) s = .next t ∧ (t.ctxOf i.stream).ew = ew ∧ (t.ctxOf i.stream).vl = g ∧
        (t.ctxOf i.stream).rowshape = min c.rowshape (s.vlmax ew) ∧ t.pcOf i.stream = s.pcOf i.stream + 1 ∧
        (t.ctxOf i.stream).sreg v.sd = (if v.sd = 0 then 0 else BitVec.ofNat 64 g) ∧
        ((s.vlmax ew : Int) < want → (t.sticky 2).getLsbD 0 = true) ∧
        (s.vlmax ew < c.rowshape → (t.sticky 2).getLsbD 1 = true)) ∧
    (v.major = 0x11 →
      let g := granted want (s.vlmax c.ew)
      ∃ t, exec (.setrow i) s = .next t ∧ (t.ctxOf i.stream).rowshape = g ∧ (t.ctxOf i.stream).ew = c.ew ∧
        (t.ctxOf i.stream).vl = c.vl ∧ t.pcOf i.stream = s.pcOf i.stream + 1 ∧
        (t.ctxOf i.stream).sreg v.sd = (if v.sd = 0 then 0 else BitVec.ofNat 64 g) ∧
        (want < 0 ∨ (s.vlmax c.ew : Int) < want → (t.sticky 2).getLsbD 1 = true)) ∧
    (v.major = 0x15 →
      ∃ t, exec (.rdvl i) s = .next t ∧ (t.ctxOf i.stream).vl = c.vl ∧ t.pcOf i.stream = s.pcOf i.stream + 1 ∧
        (t.ctxOf i.stream).sreg v.sd = (if v.sd = 0 then 0 else BitVec.ofNat 64 c.vl))

/-- R59, R67, R87, R106: SETES writes the stride register that IMM names (ES0 keeps reading +1), SETD the
descriptor, SETTW the tensor identifier and the coordinate base, SETENT an entry point of the main program. -/
def Obligations.ContextMajors : Prop :=
  ∀ (i : Issue) (s : State), Clear s i →
    let c := s.ctxOf i.stream
    let v := i.bundle.s
    (v.major = 0x12 → ∃ t, exec (.setes i) s = .next t ∧ t.pcOf i.stream = s.pcOf i.stream + 1 ∧
      ∀ k, k < 8 → (t.ctxOf i.stream).stride k =
        (if k = 0 then 1 else if k = v.imm.toNat % 8 then (c.sreg v.sa).truncate 32 else c.stride k)) ∧
    (v.major = 0x13 → ∃ t, exec (.setd i) s = .next t ∧ t.pcOf i.stream = s.pcOf i.stream + 1 ∧
      (t.ctxOf i.stream).descAt (v.imm.toNat % 16) =
        ⟨(c.sreg v.sa).truncate 48, (c.sreg v.sb).truncate 32⟩) ∧
    (v.major = 0x14 → ∃ t, exec (.settw i) s = .next t ∧ t.pcOf i.stream = s.pcOf i.stream + 1 ∧
      (t.ctxOf i.stream).tid = (c.sreg v.sa).extractLsb' 48 16 ∧
      (t.ctxOf i.stream).base = (c.sreg v.sa).truncate 48) ∧
    (v.major = 0x1D → i.stream = .main → ∃ t, exec (.setent i) s = .next t ∧ t.pcOf .main = s.pcOf .main + 1 ∧
      ∀ k, k < 8 → t.entryPoint k =
        (if k = v.imm.toNat % 8 then (c.sreg v.sa).toNat % 2048 else s.entryPoint k))

/-- R80, R106, R107, R110, R119: a NOP in the S slot advances the position by one; JMP continues at IMM; LOOP counts
SD down and continues at IMM while the new count is not zero; HALT requests the stop of the main program with
its own index, and that the stop takes place with a later command is the model's choice (log 17). -/
def Obligations.BranchMajors : Prop :=
  ∀ (i : Issue) (s : State), Clear s i →
    let c := s.ctxOf i.stream
    let v := i.bundle.s
    let n := c.sreg v.sd
    ((Instr.nop i).wf = true → v.major = 0 → ∃ t, exec (.nop i) s = .next t ∧ t.pcOf i.stream = s.pcOf i.stream + 1) ∧
    (v.major = 0x18 → ∃ t, exec (.jmp i) s = .next t ∧ t.pcOf i.stream = v.imm.toNat) ∧
    (v.major = 0x19 → ∃ t, exec (.loop i) s = .next t ∧
      (t.ctxOf i.stream).sreg v.sd = (if n = 0 then 0 else n - 1) ∧
      t.pcOf i.stream = (if n = 0 ∨ n = 1 then s.pcOf i.stream + 1 else v.imm.toNat)) ∧
    (v.major = 0x1E → i.stream = .main → ∃ t, exec (.halt i) s = .next t ∧
      t.issue.stop = some .halt ∧ t.issue.stopPc = s.issue.pc ∧ t.issue.running = true)

/-- R108, R115, R116: WAIT holds its stream until its condition is met, or goes on at once where no wait is
due; PICOT posts SA with its tag and index while the control core is there, and gives SD = 1 where it is not;
WAITDIR takes a latched word at once, and otherwise waits, or goes on as at its timeout where the control
core is absent (R285). -/
def Obligations.WaitMajors : Prop :=
  ∀ (i : Issue) (s : State), Clear s i →
    let c := s.ctxOf i.stream
    let v := i.bundle.s
    let st := i.stream
    let kind := v.imm.toNat / 256
    let a := c.sreg v.sa
    let sd (t : State) (x : BitVec 64) : Prop := (t.ctxOf st).sreg v.sd = if v.sd = 0 then 0 else x
    (v.major = 0x1A → ∃ t, exec (.wait i) s = .next t ∧ t.pcOf st = s.pcOf st + 1 ∧
      (kind = 0 → t.waitOf st = some ⟨.fabric s.xfers.length, v.sd, false⟩) ∧
      (kind = 1 → if s.meUp then t.waitOf st = some ⟨.bobbin, v.sd, false⟩ else t.waitOf st = none ∧ sd t 1) ∧
      (kind = 2 → t.waitOf st = some ⟨.mark (BitVec.ofNat 4 v.imm.toNat), v.sd, false⟩) ∧
      (kind = 3 → if 0 < a.toInt then t.waitOf st = some ⟨.cycles, v.sd, false⟩ else t.waitOf st = none ∧ sd t 0)) ∧
    (v.major = 0x1B → ∃ t, exec (.picot i) s = .next t ∧ t.pcOf st = s.pcOf st + 1 ∧
      (if s.partner.core then
        t.issue.posts = s.issue.posts ++ [⟨st, v.sd, a, v.imm.truncate 8, s.pcOf st⟩]
      else t.issue.posts = s.issue.posts ∧ sd t 1 ∧ (t.sticky 1).getLsbD 10 = true)) ∧
    (v.major = 0x1C → st = .main → ∃ t, exec (.waitdir i) s = .next t ∧
      match s.issue.dirLatch with
      | some w => t.issue.dirLatch = none ∧ sd t (w.zeroExtend 64) ∧ t.issue.pc = s.entryPoint (w.toNat % 8)
      | none =>
        t.issue.pc = s.issue.pc + 1 ∧
          if s.partner.core then t.issue.wait = some ⟨.dir, v.sd, false⟩
          else sd t (BitVec.allOnes 64) ∧ (t.sticky 1).getLsbD 7 = true)

/-- The frame of the 26 scalar majors: a bundle whose other slots are no-ops changes nothing but the streams'
contexts and positions, issue, the entry points that SETENT writes (registers 0x060 to 0x07C of page 1), flags,
counters and sticky bits. Every other register, CAP_GEN, every byte of the hoops and of fabric memory, every mask and
every carry is as before; and while a panel and a hoop are left, so are ENGINE_DOWN, the trigger queue, the tiles and
what the engine has sent (R45, R247). -/
def Obligations.ScalarFrame : Prop :=
  ∀ (c : Instr) (row : Row) (i : Issue) (s t : State), c.row = some (row, i) → c.wf = true → Clear s i →
    i.bundle.scalarOnly = true → exec c s = .next t →
    t.offScalar = s.offScalar ∧ t.capGen = s.capGen ∧
    (s.active ≠ 0 → (∃ h, s.hoopPresent h = true) →
      t.trouble.engineDown = s.trouble.engineDown ∧ t.edging.trig = s.edging.trig ∧ t.edging.tiles = s.edging.tiles ∧
        t.outbox = s.outbox)

/-- The frame of every row that issues a bundle: whatever its four slots hold, an executing bundle changes nothing but
what the lanes, the port and the S slot write, and each kind of state only where a slot writes it: plain registers
(only SETENT's entry points), CAP_GEN (only where a CVT finds an error of a scale slot, whose move to a spare is a
change of capability, R34, R189), masks, carries, scale slots, mirror, tables, network port (RCOUNT where an UPD's
mirror records are discarded and counted, R285, R296, R310), keys, transfers, scalars, and the bytes of the hoops: none
outside the slabs of its destinations, whatever its vector slots hold, and none outside the bytes of the M slot's own
where they are no-ops. Fabric memory in particular is as before: a store reaches it when it completes (R114, R279), and
as one event (the model's choice, log 7). -/
def Obligations.BundleFrame : Prop :=
  ∀ (c : Instr) (row : Row) (i : Issue) (s t : State), c.row = some (row, i) → c.wf = true → Clear s i →
    exec c s = .next t →
    let b := i.bundle
    let v := b.v1.major.toNat
    let m := b.m.major.toNat
    t.offPort.offScalar = s.offPort.offScalar ∧ t.fabric = s.fabric ∧
    (v ≠ 3 ∨ (∀ e ∈ s.ecc, e.target ≠ .scale) → t.capGen = s.capGen) ∧
    (b.s.major ≠ 0x1D → t.regs = s.regs) ∧
    (b.m.isNop = true → t.offLane.offScalar = s.offLane.offScalar) ∧
    (b.s.major = 0 → b.m.pi = 0 → m ≠ 10 → t.ctx = s.ctx ∧ t.edging.run.map (·.ctx) = s.edging.run.map (·.ctx)) ∧
    (i.stream = .edge → t.ctx = s.ctx) ∧
    (∀ k, (b.v0.major = 1 → b.v0.hasCmp = true → k ≠ b.v0.kd) → (v = 11 ∨ v = 12 → k ≠ b.v1.aux) →
      (m = 12 → k ≠ b.m.imm.truncate 3) → t.mask k.toNat = s.mask k.toNat) ∧
    (v ≠ 5 → v ≠ 6 → t.carries = s.carries) ∧ (v ≠ 3 → t.scale = s.scale) ∧ (v ≠ 14 → t.mirror = s.mirror) ∧
    (m ∉ [13, 14] → t.motif = s.motif) ∧
    (m ∉ [7, 8] → t.net = { s.net with rcount := s.net.rcount + (t.mirror.mseq - s.mirror.mseq) }) ∧ (m ∉ [7, 13, 14] → t.keys = s.keys) ∧
    (m ∉ [1, 2, 3, 4, 13, 15, 16, 17, 18] → t.xfers = s.xfers) ∧
    (b.v0.isNop = true → b.v1.isNop = true →
      (b.m.quiet = true → t.hoops = s.hoops) ∧
      ∀ h k, s.canon = true → s.resolve i.stream (Opnd.of b.m.hs).h (Opnd.of b.m.hs).k = some (h, k) →
        let n := if m = 9 then (fmtOf b.m.mfmt).bytes else if m = 11 then 512 else 4096
        let inside (a : Nat) : Prop :=
          if m = 5 ∨ m = 6 then s.inRun i.stream b.m.hs 4 ((1024 + s.vlmaxAt 4 - 1) / s.vlmaxAt 4) a
          else s.slabBase h k ≤ a ∧ a < s.slabBase h k + n
        ∀ a, ¬ inside a → t.hoops.get 0 a = s.hoops.get 0 a) ∧
    (s.canon = true → s.active ≤ 16 → s.within (s.ctxOf i.stream) →
      ∀ a, (∀ u ∈ slabUses s (s.ctxOf i.stream).ew.bytes b, u.wr = true → (u.slot = 2 → b.m.quiet = false) →
        ¬ u.lies s i.stream a) → t.hoops.get 0 a = s.hoops.get 0 a)

/-! ### The M slot -/

/-- R101, R114: the nine majors that transfer at a descriptor hand one transfer to the fabric port, behind the
earlier ones, with the element accesses captured at issue (R59, R135) and the targets that it finds absent (R285);
with PI the descriptor, and D' of an MX transfer, is post-incremented (R67). Where an MX store names a byte of memory
both as an element byte and as a scale byte, that byte is a free value, numbered (R138; log 15). -/
def Obligations.TransfersQueued : Prop :=
  ∀ (i : Issue) (s : State), Clear s i →
    let m := i.bundle.m
    let e := s.env i
    let a := e.desc.base.toNat
    let queued (c : Instr) (ops : Nat → XferOp) (slabs : List Nat) : Prop :=
      ∃ t n, exec c s = .next t ∧
        t.xfers = s.xfers ++ [⟨i.stream, s.pcOf i.stream, s.issue.count, ops n, slabs, false, s.absentNow⟩] ∧
        (m.pi = 1 → (t.ctxOf i.stream).descAt m.dsc.toNat = e.desc.post) ∧
        (m.pi = 1 → m.major.toNat ≤ 2 → (fmtOf m.mfmt).isMx = true →
          (t.ctxOf i.stream).descAt ((m.dsc.toNat + 1) % 16) = e.desc'.post)
    (m.major = 1 →
      queued (.ld i) (fun _ => match fmtOf m.mfmt with | .mx x => e.loadMx x | _ => e.loadPlain) e.loadSlabs) ∧
    (m.major = 2 →
      queued (.st i) (fun n => match fmtOf m.mfmt with | .mx x => e.storeMx x n | _ => e.storePlain) []) ∧
    (m.major = 3 → queued (.gather i) (fun _ => e.loadPlain) e.loadSlabs) ∧
    (m.major = 4 → queued (.scatter i) (fun _ => e.storePlain) []) ∧
    (m.major = 13 → queued (.tbld i)
      (fun _ => .tbld (m.imm.toNat % 16) (s.mslot (m.imm.toNat % 16)).target a) []) ∧
    (m.major = 15 → queued (.scld i) (fun _ => .scld a) []) ∧
    (m.major = 16 → queued (.scst i) (fun _ => .scst a) []) ∧
    (m.major = 17 → queued (.lgst i) (fun _ => .lgst m.imm.toNat a) []) ∧
    (m.major = 18 → queued (.lgld i) (fun _ => .lgld m.imm.toNat a) [])

/-- R59: the accesses of an executing ST of a plain format are, for the active elements in ascending order, the
bytes of the source element at BASE + j × ES × w modulo 2^48, those at unmapped addresses left out (R17). -/
def Obligations.StridedStore : Prop :=
  ∀ (i : Issue) (s : State), Clear s i → s.canon = true → s.within (s.ctxOf i.stream) →
    i.bundle.m.major = 2 → (fmtOf i.bundle.m.mfmt).isMx = false →
    let m := i.bundle.m
    let c := s.ctxOf i.stream
    let w := (fmtOf m.mfmt).bytes
    let at_ (j : Nat) : Nat :=
      (((c.descAt m.dsc.toNat).base.toNat : Int) + (j : Int) * (c.stride m.esr.toNat).toInt * w) % 2 ^ 48 |>.toNat
    let els : List StoreEl := ((List.range c.vl).filter (s.on m.km)).map fun j =>
      ⟨at_ j, leBytes w (s.source i.stream m.hs w j)⟩
    ∃ t, exec (.st i) s = .next t ∧
      t.xfers = s.xfers ++ [⟨i.stream, s.pcOf i.stream, s.issue.count,
        .store (els.filter fun x => mapped x.addr w) (els.any fun x => !mapped x.addr w), [], false, s.absentNow⟩]

/-- R58, R101, R102, R111, R134, R252, R274, R285, R300, R301: the moves into slabs. MOVS writes the low bytes of a
scalar to element 0, in an MX format with the upper bits of the byte zero; KST a mask's 512 bytes; NRECV the payload of
the earliest released record of the source and stream, as it stood before the bundle, freeing its slot; MOVA the
accumulator slab that IMM names of the tile in hand, which is not one in program use; POPQ the next slab of the first
tile in program use. A released record is delivered whatever the reachability of its source is now, so an NRECV leaves
HS as it was and sets GONE only where the release that it takes is a GONE release, or where no release of its source
stands and the source is absent; this reading of R285 and R301, and the order and life of GONE releases, are the model's
(log 24). So is it that MOVA skips tiles in program use and POPQ takes only those, in either stream (log 25). A POPQ
without its matrix engine leaves HS as it was and sets GONE. -/
def Obligations.MovesIntoSlabs : Prop :=
  ∀ (i : Issue) (s : State), Clear s i →
    let m := i.bundle.m
    let o := Opnd.of m.hs
    let a := (s.env i).netAddr
    let acc (t : State) (w : List Word) : Prop := 0 < s.active → ∀ j, j < 1024 → t.elem i.stream m.hs 4 j = (w[j]?.getD 0).toNat
    (∀ h k, s.resolve i.stream o.h o.k = some (h, k) →
      (m.major = 9 → ∃ t, exec (.movs i) s = .next t ∧
        let bits := match fmtOf m.mfmt with | .mx x => x.bits | f => 8 * f.bytes
        t.slabBytes h k (fmtOf m.mfmt).bytes =
          leBytes (fmtOf m.mfmt).bytes (((s.ctxOf i.stream).sreg m.sreg).toNat % 2 ^ bits)) ∧
      (m.major = 11 → ∃ t, exec (.kst i) s = .next t ∧
        t.slabBytes h k 512 = leBytes 512 (s.mask (m.imm.toNat % 8)).toNat) ∧
      (m.major = 8 → s.canon = true → ∃ t, exec (.nrecv i) s = .next t ∧
        let absent : Prop := (t.sticky 8).getLsbD 1 = true ∧
          (i.bundle.v0.isNop = true → i.bundle.v1.isNop = true → t.hoops = s.hoops)
        (s.nextGone a = true → absent ∧ t.net.slots = s.net.slots ∧
          ∀ xs g ys, s.net.gones = xs ++ g :: ys → (∀ y ∈ xs, y.src ≠ a) → g.src = a →
            t.net.gones = xs ++ (if g.left ≤ 1 then ys else { g with left := g.left - 1 } :: ys)) ∧
        (s.nextGone a = false → s.nextArrival a = none → absent ∧
          t.net = { s.net with rcount := s.net.rcount + (t.mirror.mseq - s.mirror.mseq) }) ∧
        ∀ n x, s.nextGone a = false → s.nextArrival a = some (n, x) →
          t.net.slots[n]?.getD none = none ∧
          (x.goneRelease = false → t.slabBytes h k 4096 = s.slabBytes s.net.rxHoop.toNat n 4096) ∧
          (x.goneRelease = true → absent))) ∧
    (m.major = 5 → ∀ xs x ys, s.edging.tiles = xs ++ x :: ys → (∀ y ∈ xs, y.use = .program) → x.use ≠ .program →
      ∃ t, exec (.mova i) s = .next t ∧ acc t (x.slab (m.imm.toNat % 16))) ∧
    (m.major = 6 → s.meUp = true → ∀ xs x ys, s.edging.tiles = xs ++ x :: ys → (∀ y ∈ xs, y.use ≠ .program) →
      x.use = .program →
      ∃ t, exec (.popq i) s = .next t ∧ acc t (x.slab x.popped) ∧
        (t.trouble.engineDown = false → t.outbox = s.outbox ∧
          t.edging.tiles = xs ++ (if x.popped + 1 < 16 then { x with popped := x.popped + 1 } :: ys else ys))) ∧
    (m.major = 6 → s.meUp = false → ∃ t, exec (.popq i) s = .next t ∧ (t.sticky 8).getLsbD 1 = true ∧
      (i.bundle.v0.isNop = true → i.bundle.v1.isNop = true → t.hoops = s.hoops))

/-- R101, R102, R134, R213, R280, R373: GETS gives a scalar the low bytes of a slab, without the upper bits of an MX
element; KLD a mask its 512 bytes (K0 keeps reading all ones); TBSWAP requests the swap of a table slot, which under
the slot's leaf repair is decided when the repair ends; PREF and FENCEM change nothing of the port, whose RCOUNT goes on
only by the mirror records that an UPD of the bundle discards (R296), and a FENCEM executes only with nothing
outstanding. -/
def Obligations.MovesAndRequests : Prop :=
  ∀ (i : Issue) (s : State), Clear s i →
    let m := i.bundle.m
    let o := Opnd.of m.hs
    let x := s.mslot (m.imm.toNat % 16)
    let port (t : State) : Prop := t.xfers = s.xfers ∧ t.motif = s.motif ∧
      t.net = { s.net with rcount := s.net.rcount + (t.mirror.mseq - s.mirror.mseq) } ∧ t.keys = s.keys
    (∀ h k, s.resolve i.stream o.h o.k = some (h, k) →
      (m.major = 10 → ∃ t, exec (.gets i) s = .next t ∧
        let bits := match fmtOf m.mfmt with | .mx x => x.bits | f => 8 * f.bytes
        (t.ctxOf i.stream).sreg m.sreg =
          (if m.sreg = 0 then 0 else BitVec.ofNat 64 (leNat (s.slabBytes h k (fmtOf m.mfmt).bytes) % 2 ^ bits))) ∧
      (m.major = 12 → ∃ t, exec (.kld i) s = .next t ∧
        t.mask (m.imm.toNat % 8) =
          (if m.imm.toNat % 8 = 0 then BitVec.allOnes 4096 else BitVec.ofNat 4096 (leNat (s.slabBytes h k 512))))) ∧
    (m.major = 14 → ∃ t, exec (.tbswap i) s = .next t ∧
      (let l := x.leaf x.target
       if x.pending then t.motif = s.motif ∧ (t.sticky 4).getLsbD 3 = true
       else if s.repairing (m.imm.toNat % 16) then t.mslot (m.imm.toNat % 16) = { x with pending := true }
       else if x.isNoLeaf ∨ l.state = .empty ∨ l.state = .bad then
         t.mslot (m.imm.toNat % 16) = { x with reason := 9 } ∧ (t.sticky 4).getLsbD 2 = true
       else t.mslot (m.imm.toNat % 16) = { x with pending := true })) ∧
    (m.major = 19 → ∃ t, exec (.pref i) s = .next t ∧ port t) ∧
    (m.major = 20 → s.outstanding = 0 ∧ ∃ t, exec (.fencem i) s = .next t ∧ port t)

/-- R24, R282, R283, R285, R296: NSEND to a package that does not exist drops the record and counts the discard, and
that RCOUNT does not count it is the model's choice (log 24); to an unreachable one it is discarded as GONE and counted
in RCOUNT; otherwise it takes one credit, counts, and with a live exchange key its sealed record enters the outbound
port, with the header of R296. RCOUNT counts the mirror records too that an UPD of the bundle discards, and the record
carries it as it stood before the bundle, which is the model's choice (R111, R310; log 42). -/
def Obligations.SendsRecord : Prop :=
  ∀ (i : Issue) (s : State), Clear s i → i.bundle.m.major = 7 →
    let e := s.env i
    let dst := e.netAddr
    let pk := addrPackage dst
    let tag : Word := match i.stream, s.edging.run with
      | .edge, some r => r.tag
      | _, _ => BitVec.ofNat 32 (s.net.rcount.toNat % 2 ^ 16)
    let h := headerWords 0 (s.self (addrStream dst)) dst tag s.twist.step s.net.rcount (List.replicate 6 0)
    ∃ t, exec (.nsend i) s = .next t ∧
      let dropped : Word := t.mirror.mseq - s.mirror.mseq
      (Config.maxPackage < pk.toNat → t.net = { s.net with rcount := s.net.rcount + dropped } ∧ (t.sticky 14).getLsbD 2 = true ∧
        (i.bundle.v1.major ≠ 14 → t.counter .sendDiscard = min (s.counter .sendDiscard + 1) (2 ^ 32 - 1))) ∧
      (pk.toNat ≤ Config.maxPackage → s.reachable pk = false →
        t.net = { s.net with rcount := s.net.rcount + dropped + 1 } ∧ (t.sticky 8).getLsbD 1 = true ∧
        (i.bundle.v1.major ≠ 14 → t.counter .sendDiscard = min (s.counter .sendDiscard + 1) (2 ^ 32 - 1))) ∧
      (pk.toNat ≤ Config.maxPackage → s.reachable pk = true →
        t.net.rcount = s.net.rcount + dropped + 1 ∧
        t.net.credit = s.net.credit.set 0 pk.toNat (s.net.credit.get 0 pk.toNat - 1) ∧
        ((s.key 0).state = .live → t.net.outQ = s.net.outQ ++
          [⟨false, pk, s.net.rcount, sealRec (s.key 0).key h (e.hsBytes 4096), i.stream, s.pcOf i.stream⟩]))

/-! ### The vector slots -/

/-- R53: with VL zero every V0 and V1 slot of an executing bundle, whatever its majors, changes nothing: the bundle
does what its M slot (MOVS and the post-increment in full) and its S slot do, and vector transfers move no
elements. -/
def Obligations.EmptyStrip : Prop :=
  ∀ (c : Instr) (row : Row) (i : Issue) (s : State), c.row = some (row, i) → c.wf = true → Clear s i →
    (s.ctxOf i.stream).vl = 0 →
    let e := s.env i
    let t := sEffect e (mRest e .normal (mHand e .normal s))
    exec c s = .next (s.settle
      (if i.stream = .main then { t with issue := { t.issue with count := t.issue.count + 1 } } else t)) ∧
    e.loadPlain = .load [] [] false [] ∧ e.storePlain = .store [] false ∧
    ∀ (x : MxElt) n, e.loadMx x = .load [] [] false [] ∧ e.storeMx x n = .store [] false

/-- R54, R62, R90 to R95, R145 to R151: a CHAIN loads A, B and C behind the operand gate, computes its cells in the
chain format (INT32, F32 or E10M21) one after the other, each result rounded by RNE, and gives each active element
below VL the last one, rounded to DFMT; a masked one keeps its code or takes zero under MP 1, elements at VL and above
and every other byte of the hoops stay, and a CMP cell's predicate goes to K(KD). A NaN enters a chain canonical, and
LOGIC and SHIFT see it so (log 32). -/
def Obligations.ChainElements : Prop :=
  ∀ (i : Issue) (s : State), Clear s i → s.canon = true → s.active ≤ 16 → s.within (s.ctxOf i.stream) →
    i.bundle.v0.major = 1 → i.bundle.v1.isNop = true → i.bundle.m.quiet = true →
    let v := i.bundle.v0
    let cf : CF := if (fmtOf v.sfmt).isInt then .i32 else if v.wide = 1 then .e10 else .f32
    let lane (used : Bool) (f : BitVec 8) (g : Fmt) (j : Nat) : Lane :=
      if used then (loadLane cf g (s.source i.stream f g.bytes j)).val else ⟨0, true⟩
    let rz := v.rm == 1 && v.dcls != 1 && v.dcls != 2
    let res (j : Nat) : Nat × Option Bool :=
      let a := lane true v.a (fmtOf v.sfmt) j
      chainRule cf rz a (lane v.usesB v.b (fmtOf v.sfmt) j) (lane v.usesC v.c (fmtOf v.cfmt) j) (s.on v.kd j)
        [v.cell1, v.cell2, v.cell3] a none
    ∃ t, exec (.chain i) s = .next t ∧
      WritesRun s t i.stream v.d (fmtOf v.dfmt).bytes (fun j =>
        if s.on v.km j then some ((fmtOf v.dfmt).round (cf.value (res j).1) ((s.env i).rnd v.rm v.dcls j)).val
        else i.bundle.off) ∧
      (v.hasCmp = true → v.kd ≠ 0 → ∀ j, j < 4096 → t.on v.kd j =
        (if j < (s.ctxOf i.stream).vl then
          (if s.on v.km j then (res j).2.getD false else if v.mp = 1 then false else s.on v.kd j)
        else s.on v.kd j))

/-- R99, R197, R208: FUNC and GACT give each active element the value of the loaded table, or the canonical NaN
of DFMT and EMPTY_SLOT from a slot with none. -/
def Obligations.TableElements : Prop :=
  ∀ (i : Issue) (s : State), Clear s i → s.canon = true → s.active ≤ 16 → s.within (s.ctxOf i.stream) →
    i.bundle.v0.isNop = true → i.bundle.m.quiet = true →
    let v := i.bundle.v1
    let e := s.env i
    let w := (fmtOf v.sfmt).bytes
    let gives (t : State) (f : Leaf → Nat → Nat) : Prop :=
      WritesRun s t i.stream v.dst (fmtOf v.dfmt).bytes (fun j =>
        if s.on v.km j then
          some (match (s.mslot v.ts.toNat).table with | some l => f l j | none => (fmtOf v.dfmt).nanCode)
        else i.bundle.off) ∧
      ((s.mslot v.ts.toNat).table = none → (s.ctxOf i.stream).vl ≠ 0 → (t.sticky 4).getLsbD 0 = true)
    (v.major = 1 → ∃ t, exec (.func i) s = .next t ∧
      gives t fun l j => (funcElem e l j (s.source i.stream v.src1 w j)).val) ∧
    (v.major = 2 → ∃ t, exec (.gact i) s = .next t ∧
      gives t fun l j => (gactElem e l j (s.source i.stream v.src1 w j) (s.source i.stream v.src2 w j)).val)

/-- R160 to R162, R174 to R177, R181 to R186, R190, R191: a CVT to a format other than MX gives each active element its
source value, times 2^k or 2^-k where it is scaled, rounded once; k is the slot's exponent, or the cold one, 0 where FN
is not 1. A quantising one leaves in the slot the largest magnitude seen, USED, and OVF where an element saturated, and
under a cold slot k in LASTK. A CVT to MX gives each block of 32 elements with an active one its scale byte, 0xFF where
an active value is NaN, 0 where all are zero, else floor_log2 of the largest magnitude less emax_el plus 127, clamped to
0 to 254; and each active element its value under that scale, rounded once. -/
def Obligations.ConvertedElements : Prop :=
  ∀ (i : Issue) (s : State), Clear s i → s.canon = true → s.active ≤ 16 → s.within (s.ctxOf i.stream) →
    i.bundle.v0.isNop = true → i.bundle.m.quiet = true → i.bundle.v1.major = 3 →
    let v := i.bundle.v1
    let c := s.ctxOf i.stream
    let e := s.env i
    let df := fmtOf v.dfmt
    let sf := fmtOf v.sfmt
    let k : Int := if v.fn = 1 then (e.scaleExp s.slotErrs).1 else 0
    let x (j : Nat) : Sys2Proof.Machine.Num :=
      match sf with
      | .mx m => (mxSource m (s.source i.stream v.src2 1 (j / 32)) (s.source i.stream v.src1 1 j)).val
      | _ => (cvtSource sf (s.source i.stream v.src1 sf.bytes j)).val
    let out (j : Nat) : Res Nat := df.round ((x j).scale (if df.isFp8 then k else -k)) (e.rnd v.rm v.dcls j)
    let act := (List.range c.vl).filter (s.on v.km)
    let nums := act.filter fun j => !(x j).isNan
    let most (js : List Nat) : Sys2Proof.Machine.Num := (js.map x).foldl Num.maxAbs (.fin false 0 0)
    let block (b : Nat) : List Nat := act.filter fun j => j / 32 == b
    let scale (t : MxElt) (b : Nat) : Nat :=
      if (block b).any fun j => (x j).isNan then 255
      else
        match most (block b) with
        | .fin _ mag exp => if mag = 0 then 0 else (max 0 (min 254 (floorLog2 mag exp - t.emax + 127))).toNat
        | _ => 255
    ∃ t, exec (.cvt i) s = .next t ∧
      (df.isMx = false → WritesRun s t i.stream v.dst df.bytes (fun j =>
        if s.on v.km j then some (out j).val else i.bundle.off)) ∧
      (v.fn = 1 → df.isFp8 = true → c.vl ≠ 0 → ∀ n, s.slotErrs.findSlot c.tid = some n →
        let y := s.slotErrs.slot n
        let z := t.slot n
        let a := roundUpE10 (most nums)
        z = { y with
          used := y.used || !nums.isEmpty
          obs := if nums.isEmpty then y.obs else if (e10Value y.obs.toNat).lt (e10Value a.toNat) then a else y.obs
          ovf := y.ovf || (!v.dst.getLsbD 7 && act.any fun j => (out j).r.ovf)
          lastk := if y.cold then BitVec.ofInt 10 k else y.lastk
          kWritten := y.kWritten || y.cold } ∧
        ∀ m, m ≠ n → t.slot m = s.slotErrs.slot m) ∧
      (∀ mt, df = .mx mt →
        (v.dst.getLsbD 7 = true ∨
          s.resolve i.stream (Opnd.of v.dst).h (Opnd.of v.dst).k ≠ s.resolve i.stream (Opnd.of v.src2).h (Opnd.of v.src2).k) →
        (∀ b, 32 * b < c.vl → t.elem i.stream v.src2 1 b =
          if block b = [] then s.elem i.stream v.src2 1 b else scale mt b) ∧
        (v.dst.getLsbD 7 = false → ∀ j, j < c.vl → t.elem i.stream v.dst 1 j =
          if s.on v.km j then
            (if scale mt (j / 32) = 255 ∨ ∀ n ∈ block (j / 32), (x n).isZero = true then 0
            else (mt.round ((x j).scale (127 - (scale mt (j / 32) : Int))) (e.rnd v.rm v.dcls j)).val)
          else i.bundle.off.getD (s.elem i.stream v.dst 1 j)) ∧
        ∀ a, (v.dst.getLsbD 7 = false → ¬ s.inRun i.stream v.dst 1 1 a) → ¬ s.inRun i.stream v.src2 1 1 a →
          t.hoops.get 0 a = s.hoops.get 0 a)

/-- R236 to R238: PERM gives each active element the source element that its unsigned index names, or zero with
PERM_RANGE where that is not below VL; XPOSE the element of the transposed block. A moved infinity becomes the
largest finite value and a moved NaN the canonical one. -/
def Obligations.MovedElements : Prop :=
  ∀ (i : Issue) (s : State), Clear s i → s.canon = true → s.active ≤ 16 → s.within (s.ctxOf i.stream) →
    i.bundle.v0.isNop = true → i.bundle.m.quiet = true →
    let v := i.bundle.v1
    let c := s.ctxOf i.stream
    let f := fmtOf v.sfmt
    let idx (j : Nat) : Nat := s.source i.stream v.src2 (if c.ew = .w32 then 4 else 2) j
    let blk := if v.fn = 0 then 8 else 16
    let row := if c.rowshape = 0 then blk else c.rowshape
    let gives (t : State) (src : Nat → Nat) : Prop :=
      WritesRun s t i.stream v.dst f.bytes (fun j =>
        if s.on v.km j then
          some (if src j < c.vl then (moved f (s.source i.stream v.src1 f.bytes (src j))).val else 0)
        else i.bundle.off)
    (v.major = 7 → ∃ t, exec (.perm i) s = .next t ∧ gives t idx ∧
      ((∃ j, j < c.vl ∧ s.on v.km j = true ∧ c.vl ≤ idx j) → (t.sticky 2).getLsbD 2 = true)) ∧
    (v.major = 8 → ∃ t, exec (.xpose i) s = .next t ∧
      gives t fun j => ((j / row / blk) * blk + j % row % blk) * row + (j % row / blk) * blk + j / row % blk)

/-- R239, R240: CPRS packs the selected elements from element 0 on, EXPD spreads the first elements over the
selected places, TSEL packs the elements (or their indices) that pass the threshold and sets K(AUX) to say
which. -/
def Obligations.PackedElements : Prop :=
  ∀ (i : Issue) (s : State), Clear s i → s.canon = true → s.active ≤ 16 → s.within (s.ctxOf i.stream) →
    i.bundle.v0.isNop = true → i.bundle.m.quiet = true →
    let v := i.bundle.v1
    let vl := (s.ctxOf i.stream).vl
    let f := fmtOf v.sfmt
    let src (j : Nat) : Nat := s.source i.stream v.src1 f.bytes j
    let sel := (List.range vl).filter fun j => s.on v.km j && s.on v.aux j
    let g (op : BitVec 8) (j : Nat) : Nat := (f.gate (s.source i.stream op f.bytes j)).val
    let hit (j : Nat) : Bool :=
      s.on v.km j && tselHit (v.fn.toNat % 4) (f.value (g v.src1 j)) (f.value (g v.src2 j))
    let hits := (List.range vl).filter hit
    (v.major = 9 → ∃ t, exec (.cprs i) s = .next t ∧
      WritesRun s t i.stream v.dst f.bytes (fun j =>
        match sel[j]? with | some p => some (moved f (src p)).val | none => i.bundle.off)) ∧
    (v.major = 10 → ∃ t, exec (.expd i) s = .next t ∧
      WritesRun s t i.stream v.dst f.bytes (fun j =>
        if sel.contains j then some (moved f (src (sel.idxOf j))).val else i.bundle.off)) ∧
    (v.major = 11 → ∃ t, exec (.tsel i) s = .next t ∧
      WritesRun s t i.stream v.dst (fmtOf v.dfmt).bytes (fun j =>
        match hits[j]? with
        | some p => some (if v.fn.getLsbD 2 then p else g v.src1 p)
        | none => i.bundle.off) ∧
      (v.aux ≠ 0 → ∀ j, j < 4096 → t.on v.aux j =
        (if j < vl then (if s.on v.km j then hit j else if i.bundle.v0.mp = 1 then false else s.on v.aux j)
        else s.on v.aux j)))

/-- R54, R153 to R155, R222 to R225: RED reduces each segment by the fixed tree from its active elements (their
squares, or ones for the count), segment 0 from the value in SRC2 where FN[7] says so. The totals are packed from
element 0, or broadcast to the active elements of their segments; a segment with nothing to reduce gives the
identity. That a broadcast RED draws its stochastic rounding once for each destination element is the model's choice
(log 32). -/
def Obligations.ReducedSegments : Prop :=
  ∀ (i : Issue) (s : State), Clear s i → s.canon = true → s.active ≤ 16 → s.within (s.ctxOf i.stream) →
    i.bundle.v0.isNop = true → i.bundle.m.quiet = true → i.bundle.v1.major = 4 →
    let v := i.bundle.v1
    let c := s.ctxOf i.stream
    let e := s.env i
    let op := v.fn.toNat % 8
    let sf := fmtOf v.sfmt
    let df := fmtOf v.dfmt
    let cf := if op = 4 then CF.i32 else accCf v
    let item (j : Nat) : Option Lane :=
      if s.on v.km j then
        let x := (loadLane cf sf (s.source i.stream v.src1 sf.bytes j)).val
        some (if op = 4 then ⟨1, false⟩ else if op = 1 then ⟨(mulLane cf x x).val, false⟩ else x)
      else none
    let carried : Option Lane :=
      if v.fn.getLsbD 7 then some (loadLane cf cf.fmt (s.elem i.stream v.src2 4 0)).val else none
    let total (g j : Nat) : Nat :=
      match (reduceSegment (redNode cf op) (if g = 0 then carried else none) (c.segItems item g)).val with
      | some x => (df.round (cf.value x.code) (e.rnd v.rm v.dcls j)).val
      | none => redIdentity df op
    ∃ t, exec (.red i) s = .next t ∧
      WritesRun s t i.stream v.dst df.bytes (fun j =>
        if v.fn.getLsbD 4 then (if s.on v.km j then some (total (j / c.segment) j) else i.bundle.off)
        else if j * c.segment < c.vl then some (total j j) else none)

/-- R68, R226 to R229: SCAN and LSCAN give each active element its prefix over the segment, by the prefix structure of
R226, segment 0 continued from a valid carry where FN[7] says so and a running value being a long factor (R145), and
leave the last running value (or the identity) with its format in the carry that TS names; no other carry changes. -/
def Obligations.ScannedSegments : Prop :=
  ∀ (i : Issue) (s : State), Clear s i → s.canon = true → s.active ≤ 16 → s.within (s.ctxOf i.stream) →
    i.bundle.v0.isNop = true → i.bundle.m.quiet = true →
    let v := i.bundle.v1
    let c := s.ctxOf i.stream
    let e := s.env i
    let sf := fmtOf v.sfmt
    let df := fmtOf v.dfmt
    let cf := accCf v
    let lane (f : BitVec 8) (j : Nat) : Lane := (loadLane cf sf (s.source i.stream f sf.bytes j)).val
    let k := v.ts.toNat % 4
    let carried : Option Lane :=
      if v.fn.getLsbD 7 && (s.carry k).valid then some (loadLane cf cf.fmt (s.carry k).value.toNat).val else none
    let gives (t : State) (op : Nat) (seg : Nat → List (Option Lane) × Option Lane) : Prop :=
      WritesRun s t i.stream v.dst df.bytes (fun j =>
        if s.on v.km j then
          some (((seg (j / c.segment)).1.getD (j % c.segment) none).elim 0 fun x =>
            (df.round (cf.value x.code) (e.rnd v.rm v.dcls j)).val)
        else i.bundle.off) ∧
      (c.vl ≠ 0 → t.carry k = ⟨BitVec.ofNat 32 (((seg ((c.vl - 1) / c.segment)).2.map (·.code)).getD
        (scanIdentity cf op)), v.fn.getLsbD 3, true⟩) ∧
      ∀ n, n < 4 → n ≠ k → t.carry n = s.carry n
    (v.major = 5 → ∃ t, exec (.scan i) s = .next t ∧
      let op := v.fn.toNat % 4
      let node := nodeEval cf (if op = 0 then .add else if op = 1 then .max else .mul)
      gives t op fun g => (scanSegment node (carryOn node) (if g = 0 then carried else none)
        (c.segItems (fun j => if s.on v.km j then some (lane v.src1 j) else none) g)).val) ∧
    (v.major = 6 → ∃ t, exec (.lscan i) s = .next t ∧
      gives t 3 fun g => (scanSegment (pairCombine cf) (pairApply cf) (if g = 0 then carried else none)
        (c.segItems (fun j => if s.on v.km j then some ⟨lane v.src1 j, lane v.src2 j⟩ else none) g)).val)

/-! ### Gradient compression and the update -/

/-- R290 to R295: GCMP takes, of its active elements in ascending order, those at or above their threshold in the
payload's block while it has room (top-k), or the sign and scale of those in its seven blocks (sign). A taken
element leaves zero, or the rest of its value, in SRC1; any other active element keeps its value. A payload of another
KIND is zeroed first and takes KIND, its count and the block of element 0 (BLOCK, FIRST). COUNT and NBLK say what it
holds, a sign payload holds the bits of s in the scale word of each block that it encodes, and every other word and bit
stays. That a value kept is the gated one, and that block numbers wrap modulo 2^32, is the model's reading (log 32). -/
def Obligations.CompressedGradient : Prop :=
  ∀ (i : Issue) (s : State), Clear s i → s.canon = true → s.active ≤ 16 → s.within (s.ctxOf i.stream) →
    i.bundle.v0.isNop = true → i.bundle.m.quiet = true → i.bundle.v1.major = 12 →
    let v := i.bundle.v1
    let c := s.ctxOf i.stream
    s.resolve i.stream (Opnd.of v.src1).h (Opnd.of v.src1).k ≠ s.resolve i.stream (Opnd.of v.dst).h (Opnd.of v.dst).k →
    let kind := if v.fn = 0 then 1 else 2
    let old (n : Nat) : Word := s.slabWord i.stream v.dst n
    let fresh := (old 0).toNat / 2 ^ 28 ≠ kind
    let first := if fresh then (c.coord 0).toNat / 4096 % 2 ^ 32 else (old 1).toNat
    let x (j : Nat) : Nat := (Fmt.bf16.gate (s.source i.stream v.src1 2 j)).val
    let lim (j : Nat) : Sys2Proof.Machine.Num := Fmt.f32.value (Fmt.f32.gate (s.source i.stream v.src2 4 j)).val
    let block (j : Nat) : Nat := (c.coord j).toNat / 4096
    let base (n : Nat) : Word := if fresh then 0 else old n
    let new (t : State) (n : Nat) : Word := t.slabWord i.stream v.dst n
    ∃ t, exec (.gcmp i) s = .next t ∧
      (v.fn = 0 → c.vl ≠ 0 →
        let held := if fresh then 0 else (old 0).toNat % 1024
        let fits (j : Nat) : Bool := s.on v.km j && !(Fmt.bf16.value (x j)).isNan && !(lim j).isNan &&
          !(Fmt.bf16.value (x j)).abs.lt (lim j) && block j % 2 ^ 32 == first
        let took := ((List.range c.vl).filter fits).take (1022 - held)
        (∀ j, j < c.vl → t.elem i.stream v.src1 2 j =
          (if s.on v.km j then (if j ∈ took then 0 else (keepBf16 (x j)).val)
          else (i.bundle.off.getD (s.elem i.stream v.src1 2 j)))) ∧
        (v.aux ≠ 0 → ∀ j, j < c.vl → t.on v.aux j =
          (if s.on v.km j then took.contains j else if i.bundle.v0.mp = 1 then false else s.on v.aux j)) ∧
        (held ≤ 1022 → (new t 0).toNat % 1024 = held + took.length ∧
          (new t 0).toNat / 1024 = (if fresh then 2 ^ 18 else (old 0).toNat / 1024) ∧
          new t 1 = BitVec.ofNat 32 first ∧
          (∀ n, 2 ≤ n → n < 1024 → (n < 2 + held ∨ 2 + held + took.length ≤ n) → new t n = base n) ∧
          ∀ n, n < took.length → new t (2 + held + n) =
            BitVec.ofNat 32 ((c.coord (took.getD n 0)).toNat % 4096 * 2 ^ 16 + x (took.getD n 0)))) ∧
      (v.fn = 1 → c.vl ≠ 0 →
        let b (j : Nat) : Nat := (block j + 2 ^ 32 - first) % 2 ^ 32
        let neg (j : Nat) : Bool := (x j).testBit 15
        let y (j : Nat) : Sys2Proof.Machine.Num := Fmt.bf16.value (x j)
        let put := (List.range c.vl).filter fun j => s.on v.km j && decide (b j ≤ 6)
        (new t 0).toNat % 8 = (put.map fun j => b j + 1).foldl max (if fresh then 0 else (old 0).toNat % 8) ∧
        (new t 0).toNat / 8 = (if fresh then 2 ^ 26 else (old 0).toNat / 8) ∧ new t 1 = BitVec.ofNat 32 first ∧
        (∀ j ∈ put, (∀ n ∈ put, j < n → b n ≠ b j) →
          new t (2 + b j) = BitVec.ofNat 32 (Fmt.f32.gate (s.source i.stream v.src2 4 j)).val) ∧
        (∀ k, k ≤ 6 → (∀ j ∈ put, b j ≠ k) → new t (2 + k) = base (2 + k)) ∧
        (∀ n, n < 1024 → (9 ≤ n ∧ n < 16 ∨ 912 ≤ n) → new t n = base n) ∧
        (∀ k o, k ≤ 6 → o < 4096 → (∀ j ∈ put, b j = k → (c.coord j).toNat % 4096 ≠ o) →
          (new t (16 + 128 * k + o / 32)).getLsbD (o % 32) = (base (16 + 128 * k + o / 32)).getLsbD (o % 32)) ∧
        (∀ j, j < c.vl → t.elem i.stream v.src1 2 j =
          (if s.on v.km j then
            (if 6 < b j then (keepBf16 (x j)).val
            else (Fmt.bf16.round (if neg j then (y j).add (lim j) else (y j).sub (lim j))
              (.sr ((s.env i).draw c.tid j))).val)
          else (i.bundle.off.getD (s.elem i.stream v.src1 2 j)))) ∧
        (∀ j, j < c.vl → s.on v.km j = true → b j ≤ 6 →
          b j < (new t 0).toNat % 8 ∧
          ((∀ n, j < n → n < c.vl → s.on v.km n = true → c.coord n ≠ c.coord j) →
            (new t (16 + 128 * b j + (c.coord j).toNat % 4096 / 32)).getLsbD ((c.coord j).toNat % 32) = neg j)))

/-- R302: GDEC adds, in F32 and rounded stochastically once, the contributions that an accepted payload makes to each
active element: each pair whose coordinate is the element's, or its block's scale with the sign of its bit. An element
with none stays, and a payload that is refused makes every active element NaN, with the sticky bit. That the element
passes the operand gate is the model's reading (log 32). -/
def Obligations.DecodedGradient : Prop :=
  ∀ (i : Issue) (s : State), Clear s i → s.canon = true → s.active ≤ 16 → s.within (s.ctxOf i.stream) →
    i.bundle.v0.isNop = true → i.bundle.m.quiet = true → i.bundle.v1.major = 13 →
    let v := i.bundle.v1
    let c := s.ctxOf i.stream
    let w (n : Nat) : Word := s.slabWord i.stream v.src1 n
    let bad := payloadBad v.fn.toNat ((List.range 1024).map w)
    let f32 (n : Nat) : Sys2Proof.Machine.Num := Fmt.f32.value (Fmt.f32.gate n).val
    let parts (j : Nat) : List Sys2Proof.Machine.Num :=
      let at_ := (c.coord j).toNat
      if v.fn = 0 then
        ((List.range ((w 0).toNat % 1024)).filter fun n =>
          ((w 1).toNat * 4096 + (w (2 + n)).toNat / 2 ^ 16 % 4096) % 2 ^ 48 == at_).map fun n =>
            Fmt.bf16.value (Fmt.bf16.gate ((w (2 + n)).toNat % 2 ^ 16)).val
      else if (w 1).toNat ≤ at_ / 4096 ∧ at_ / 4096 < (w 1).toNat + (w 0).toNat % 8 then
        let b := at_ / 4096 - (w 1).toNat
        let z := f32 (w (2 + b)).toNat
        [if (w (16 + 128 * b + at_ % 4096 / 32)).getLsbD (at_ % 32) then z.neg else z]
      else []
    ∃ t, exec (.gdec i) s = .next t ∧
      WritesRun s t i.stream v.dst 4 (fun j =>
        if s.on v.km j then
          (if bad then some 0x7FC00000
          else if parts j = [] then none
          else some (Fmt.f32.round ((parts j).foldl Sys2Proof.Machine.Num.add (f32 (s.source i.stream v.dst 4 j)))
            (.sr ((s.env i).draw c.tid j))).val)
        else i.bundle.off) ∧
      (bad = true → (s.ctxOf i.stream).vl ≠ 0 → (t.sticky 9).getLsbD 6 = true)

/-- R303 to R310, R344: an UPD whose guard is frozen clear computes each active element's weight and moments, and a NaN
anywhere keeps all of them; its group enters the mirror queue, the gradient slabs first, then weights and moments and
the DESC record that a full descriptor buffer becomes (R345), or is discarded where the buddy is absent, counted in
MSEQ and RCOUNT with GAP set (R285, R296, R346, R349). Any other UPD changes no slab and no mirror state and is
counted. The order within the group, what discards count and the form of GAP are the model's choices (logs 26, 42). -/
def Obligations.OptimiserStep : Prop :=
  ∀ (i : Issue) (s : State), Clear s i → s.canon = true → s.active ≤ 16 → s.within (s.ctxOf i.stream) →
    i.bundle.v0.isNop = true → i.bundle.m.quiet = true → i.bundle.v1.major = 14 →
    let v := i.bundle.v1
    let c := s.ctxOf i.stream
    let e := s.env i
    let sf := fmtOf v.sfmt
    let df := fmtOf v.dfmt
    let p (k : Nat) : Lane := (loadLane .f32 .f32 (s.slabWord i.stream (v.src2 + 2) k).toNat).val
    let lane (f : BitVec 8) (g : Fmt) (j : Nat) : Lane := (loadLane .f32 g (s.source i.stream f g.bytes j)).val
    let one : Lane := ⟨0x3F800000, false⟩
    let x (j : Nat) : UpdVal :=
      if v.fn = 0 then (updMomentum p (lane v.src1 sf j) (lane v.dst df j) (lane v.src2 .bf16 j)).val
      else (updSecond p (fsub one (p 1)).val (fsub one (p 2)).val (s.mslot 5).table (lane v.src1 sf j)
        (lane v.dst df j) (lane v.src2 .bf16 j) (lane (v.src2 + 1) .bf16 j)).val
    let to32 (n : Nat) : Sys2Proof.Machine.Num := fpF32.value n
    let sr (k : BitVec 16) (j : Nat) : Rnd := .sr (e.draw (c.tid + k) j)
    let kept (t : State) (f : BitVec 8) (g : Nat → Nat) : Prop :=
      ∀ j, j < s.vlmaxAt 2 → t.elem i.stream f 2 j =
        if j < c.vl ∧ s.on v.km j = true ∧ (x j).nan = false then g j else s.elem i.stream f 2 j
    ∃ t, exec (.upd i) s = .next t ∧
      (s.clock.frozenGuard ≠ some false → c.vl ≠ 0 →
        t.hoops = s.hoops ∧ t.mirror = s.mirror ∧
          (t.sticky 14).getLsbD (if s.clock.frozenGuard = none then 8 else 7) = true ∧
          t.counter .updBlocked = min (s.counter .updBlocked + 1) (2 ^ 32 - 1)) ∧
      (s.clock.frozenGuard = some false → c.vl ≠ 0 →
        kept t v.dst (fun j => (df.round (to32 (x j).w) (sr 0 j)).val) ∧
        kept t v.src2 (fun j => (Fmt.bf16.round (to32 (x j).m) (sr 1 j)).val) ∧
        (v.fn = 1 → kept t (v.src2 + 1) fun j => (Fmt.bf16.round (to32 (x j).v) (sr 2 j)).val) ∧
        t.mirror.group = s.mirror.group + 1 ∧
        let n := runLen 2 sf.bytes
        let all := n + 2 + v.fn.toNat + (if s.mirror.descs.length < 63 then 0 else 1)
        (s.buddyUp = true → ∃ recs, t.mirror.queue = s.mirror.queue ++ recs ∧ recs.length = all ∧
          ∀ k, k < n + 2 + v.fn.toNat → bits (hdr ((recs[k]?.map (·.hdr)).getD []) 5) 27 24 =
            if k < n then 5 else k - n + 1) ∧
        (s.buddyUp = false → t.mirror.queue = s.mirror.queue ∧ t.mirror.gap = true ∧
          t.mirror.mseq = s.mirror.mseq + BitVec.ofNat 32 all ∧
          (i.bundle.m.major ≠ 7 → t.net.rcount = s.net.rcount + BitVec.ofNat 32 all)))

/-! ### Waits, stops and resets -/

/-- R25, R108, R115 to R117: a WAIT whose condition is met ends with SD 0, one at its limit with 1 and its sticky
bit; a WAITDIR takes the word that arrives and goes on at its entry point, or ends at its limit with all ones; a word
with no WAITDIR waiting is latched. A picot reaches the mailbox, or is dropped and counted where that is full. -/
def Obligations.WaitsAndPicots : Prop :=
  ∀ s : State, s.executes = true →
    (∀ st w, s.waitOf st = some w →
      let met : Prop := w.kind = .fabric 0 ∨ w.kind = .cycles ∨ (w.kind = .bobbin ∧ s.queueTile = true) ∨
        ((∃ k, w.kind = .mark k) ∧ w.met = true)
      let ends (c : Instr) (v : BitVec 64) (b : Option Nat) : Prop := ∃ t, exec c s = .next t ∧ t.waitOf st = none ∧
        t.ctxOf st = (s.ctxOf st).setS w.sd v ∧ t.pcOf st = s.pcOf st ∧ ∀ n, b = some n → (t.sticky 1).getLsbD n = true
      (met → ends (.waitEnd st) 0 none) ∧
      (¬ met → w.kind ≠ .dir → ends (.waitTimeout st) 1 (some 6)) ∧
      (st = .main → w.kind = .dir → ends .dirTimeout (BitVec.allOnes 64) (some 7) ∧
        ∀ word, ∃ t, exec (.directionWord word) s = .next t ∧ t.issue.wait = none ∧
          t.ctx = s.ctx.setS w.sd (word.zeroExtend 64) ∧ t.issue.pc = s.entryPoint (word.toNat % 8))) ∧
    ((∀ w, s.issue.wait = some w → w.kind ≠ .dir) → ∀ word c,
      (c = .directionWord word ∨ ∃ w, s.takes w 1 = true ∧ c = .dirword w word false) →
      ∃ t, exec c s = .next t ∧ t.issue = { s.issue with dirLatch := some word } ∧
        (s.issue.dirLatch ≠ none → (t.sticky 1).getLsbD 8 = true)) ∧
    (∀ w word, s.takes w 1 = true → ∃ t, exec (.dirword w word true) s = .next t ∧ t.issue = s.issue ∧
      (t.sticky 1).getLsbD 9 = true) ∧
    (∀ p ps, s.issue.posts = p :: ps → ∃ t, exec .picotPost s = .next t ∧ t.issue.posts = ps ∧
      t.issue.mailbox = (if s.issue.mailbox.length < 16 then s.issue.mailbox ++ [⟨p.value, p.tag, p.index⟩]
        else s.issue.mailbox) ∧
      (p.stream = .main ∨ s.edging.run ≠ none → t.ctxOf p.stream =
        (s.ctxOf p.stream).setS p.sd (if s.issue.mailbox.length < 16 then 0 else 1)) ∧
      (16 ≤ s.issue.mailbox.length → (t.sticky 1).getLsbD 10 = true ∧
        t.counter .picotDrop = min (s.counter .picotDrop + 1) (2 ^ 32 - 1))) ∧
    exec .mailboxEntryConsumed s =
      .next (s.settle { s with issue := { s.issue with mailbox := s.issue.mailbox.tail } })

/-- R45, R110, R114, R119: GO starts issue at START_PC, or is refused while the engine is down, in a RESTITCH too; STOP
requests the stop, behind one that is pending already, and ends a wait as its limit would; a stop takes effect once
nothing earlier is outstanding, a wait included (log 17: the model's choice). -/
def Obligations.StartStop : Prop :=
  ∀ s : State,
    (∀ w, s.takes w 1 = true → s.works = true → s.issue.running = false →
      (s.trouble.restitchBusy = true → s.trouble.engineDown = true) →
      exec (.go w) s = .next (s.settle
        { s with issue := if s.trouble.engineDown then { s.issue with goRefused := true }
                          else { s.issue with running := true, goRefused := false, stop := none, wait := none
                                              pc := (s.reg 1 0x040).toNat % 2048 } })) ∧
    (∀ w, s.takes w 1 = true → s.issue.running = true →
      (s.issue.wait = none → exec (.stop w) s = .next (s.settle
        { s with issue := { s.issue with stop := some (s.issue.stop.getD .hostStop) } })) ∧
      ∀ x, s.issue.wait = some x → ∃ t, exec (.stop w) s = .next t ∧ t.issue.wait = none ∧ t.issue.stop ≠ none ∧
        t.ctx = s.ctx.setS x.sd (if x.kind = .dir then BitVec.allOnes 64 else 1)) ∧
    (∀ why, s.works = true → s.issue.running = true → s.issue.stop = some why → s.issue.wait = none →
      (∀ r, s.issue.retry = some r → r.stream = .edge) → (∀ x ∈ s.xfers, x.stream = .edge) →
      (∀ o ∈ s.net.outQ, o.mirror = true ∨ o.stream = .edge) → (∀ p ∈ s.issue.posts, p.stream = .edge) →
      exec .issueStop s = .next (s.settle
        { s with issue := { s.issue with running := false, stop := none, dirLatch := none, reason := why
                                         stopPc := if why = .hostStop then s.issue.pc else s.issue.stopPc } }))

/-- R363, R387 to R394: a power-on reset and a loss of power leave the reset state; a package reset leaves it too, but
for the IDENT page, CAP_GEN, the mailbox and, until it completes, the figures of IDENT; both are held until the package
releases them. A block reset stops issue and the run and still completes the stores under way. The state after a reset
keeps of the session, but for PWR, the IDENT page, CAP_GEN and the mailbox. Fabric memory is outside the engine, and
what a field of no group of R393 takes is the model's choice (logs 2, 5, 11, 12, 29, 50). -/
def Obligations.Resets : Prop :=
  ∀ s : State,
    let blank : State :=
      { State.reset with
        pending := s.pending, wz := s.wz, package := s.package, fabric := s.fabric, mmioOut := s.mmioOut
        maskOut := s.maskOut, outbox := s.outbox }
    let halted (t : State) : Prop :=
      t.issue.running = false ∧ t.issue.retry = none ∧ t.edging.run = none ∧ t.edging.trig = [] ∧
        t.fabric = s.fabric ∧ t.hoops = s.hoops ∧ ∀ k, k < 16 → t.net.slots[k]? = some none
    let kept (code : BitVec 2) : State :=
      { blank with lastReset := code, capGen := s.capGen, restRefused := s.restRefused
                   pages := State.reset.pages.setIfInBounds 0 (s.page 0)
                   issue := { IssueUnit.reset with mailbox := s.issue.mailbox } }
    (s.resetting ≠ some .pwr →
      exec .pwrReset s = .next { blank with resetting := some .pwr, resetHeld := true }) ∧
    exec .coreRailPowerLoss s = .next { blank with powered := false } ∧
    (s.powered = true → s.resetting ≠ some .pwr → s.resetting ≠ some .pkg →
      exec .pkgReset s = .next
        { kept s.lastReset with
          resetting := some .pkg, resetHeld := true, panelMap := s.panelMap, panels := s.panels
          hoopMeta := { HoopMeta.reset with present := s.hoopMeta.present, spare := s.hoopMeta.spare }
          motif := { Motif.reset with spares := s.motif.spares }
          scale := { ScaleUnit.reset with spareFree := s.scale.spareFree } }) ∧
    (∀ w, s.takes w 1 = true → ∃ t, exec (.blkReset w) s = .next t ∧ t.resetting = some .blk ∧
      t.xfers = s.xfers.filter (fun x => !x.op.isLoad) ∧ t.net.outQ = s.net.outQ ∧ halted t) ∧
    (s.resetting = some .pwr → exec .resetComplete s = .next (s.settle blank)) ∧
    (∀ k : ResetKind, s.resetting = some k → k = .pkg ∨ k = .blk ∧ s.xfers = [] ∧ s.net.outQ = [] →
      exec .resetComplete s = .next (s.settle (kept (if k = .pkg then 1 else 2))))

/-! ### Transfers and the ports -/

/-- R17, R60, R114, R278, R279, R285, R286: the oldest transfer completes. A store's bytes reach fabric memory, the
later element winning; a load's bytes reach its slabs, with zeros where it names them and where nothing arrived; a table
image lies in its leaf and the TBLD awaits its check, unless darning holds it (R373); images and records are read and
written whole. A target that was lost takes and gives nothing, but for the elements delivered before the loss, which a
free value names; GONE is set. At the time limit only what had arrived counts, and the sticky bit says so (logs 7, 9,
15, 19: the model's choices). -/
def Obligations.TransferDone : Prop :=
  ∀ (s : State) (x : Xfer) (xs : List Xfer) (c : Instr) (got : Option Nat),
    s.canon = true → s.xfers = x :: xs → x.arrived = false → s.heldByRetry x = false →
    (∀ i b a, x.op = .tbld i b a → s.darningNow = false) →
    (c = .fabricTransferDone ∧ got = none ∨ ∃ n, c = .fabricTimeout n ∧ got = some n) →
    let made (i : Nat) : Bool := (got.map (·.testBit i)).getD true
    let image (a : Nat) (bs : List Byte) (t : State) : Prop :=
      ∀ j, j < bs.length → s.reach x.lost (j / 4) (wrap48 (a + j)) = .ok → made (j / 4) = true →
        t.fabric.get 0 (wrap48 (a + j)) = bs.getD j 0
    ∃ t, exec c s = .next t ∧ (got ≠ none → (t.sticky 14).getLsbD 3 = true) ∧
      (match x.op with | .tbld .. => t.xfers = { x with arrived := true } :: xs | _ => t.xfers = xs) ∧
      match x.op with
      | .store els range =>
        t.hoops = s.hoops ∧ (∀ a, t.fabric.get 0 a = (s.storedByte els x.lost made a).getD (s.fabric.get 0 a)) ∧
          (range = true → (t.sticky 14).getLsbD 1 = true) ∧
          ((∃ p ∈ els.zipIdx, s.present x.lost p.2 p.1.addr p.1.bytes.length = false) → (t.sticky 8).getLsbD 1 = true)
      | .load els zeros range both =>
        t.fabric = s.fabric ∧
          (∀ a, (∀ d ∈ both, a ≠ s.nameKey d) → t.hoops.get 0 a =
            if ∃ d ∈ zeros, a = s.nameKey d then 0 else (s.loadedByte els x.lost made a).getD (s.hoops.get 0 a)) ∧
          (range = true → (t.sticky 14).getLsbD 1 = true) ∧
          ((∃ p ∈ els.zipIdx, s.loadReach x.lost p.2 p.1 = false) → (t.sticky 8).getLsbD 1 = true)
      | .tbld i b a =>
        i < 16 → (s.mslot i).isNoLeaf = false → ((s.mslot i).leaf b).state = .loading →
          ∀ k, k < 2192 → ((t.mslot i).leaf b).word k =
            BitVec.ofNat 32 (leNat ((List.range 4).map fun j =>
              if s.reach x.lost k (wrap48 (a + (4 * k + j))) = .ok ∧ made k = true then
                s.fabric.get 0 (wrap48 (a + (4 * k + j))) else 0))
      | .scst a => image a (wordsToBytes s.slotErrs.scaleImage) t
      | .lgst n a => image a (wordsToBytes (s.ledgerRecord n)) t
      | .scld a =>
        let ws := bytesToWords (s.readFabric a imageBytes x.lost got).1
        t.scale = (s.slotErrs.loadScale ws).scale ∧ t.fabric = s.fabric
      | .lgld n a =>
        let ws := bytesToWords (s.readFabric a (recordBytes n) x.lost got).1
        t.edging.entries = (s.mergeRecord n ws).edging.entries ∧ t.edging.banks = (s.mergeRecord n ws).edging.banks ∧
          t.fabric = s.fabric

/-- R40, R275, R281, R283, R285, R301: a record leaves the outbound port, or is discarded at its limit; an NSEND that
waits for credit to its limit completes without sending, its record discarded and counted in RCOUNT; credit adds up; an
NRECV or POPQ at its limit moves nothing and sets its sticky bit, and its bundle completes; RCOUNT counts the mirror
records too that an UPD of the bundle discards (R296). That the head of the port
goes before a waiting NSEND is the model's choice (log 27). -/
def Obligations.PortEvents : Prop :=
  ∀ s : State,
    let dropped (t : State) : Word := t.mirror.mseq - s.mirror.mseq
    (∀ o os, s.net.outQ = o :: os →
      exec .recordLeavesPort s = .next (s.settle { s with net := { s.net with outQ := os } }) ∧
      ∃ t, exec .sendTimeout s = .next t ∧ t.net.outQ = os ∧ (t.sticky 8).getLsbD 2 = true ∧
        t.counter .sendDiscard = min (s.counter .sendDiscard + 1) (2 ^ 32 - 1) ∧
        (o.mirror = true → t.mirror.gap = true ∧ t.mirror.unacked = s.mirror.unacked.filter (· != o.counter)) ∧
        (o.mirror = false → t.mirror = s.mirror)) ∧
    (∀ i, s.net.outQ = [] → i.bundle.m.major = 7 → Clear s i .sendTimeout →
      (i.stream = .main → s.streamReady .edge = false) →
      ∃ t, exec .sendTimeout s = .next t ∧ (t.sticky 8).getLsbD 2 = true ∧
        t.net = { s.net with rcount := s.net.rcount + dropped t + 1 } ∧
        (i.bundle.v1.major ≠ 14 → t.counter .sendDiscard = min (s.counter .sendDiscard + 1) (2 ^ 32 - 1)) ∧
        (i.bundle.v0.isNop = true → i.bundle.v1.isNop = true → t.hoops = s.hoops)) ∧
    (s.up = true → ∀ (p : BitVec 15) n, exec (.outboundCredit p n) s = .next (s.settle
      { s with net := { s.net with credit := s.net.credit.set 0 p.toNat (s.net.credit.get 0 p.toNat + n) } })) ∧
    (∀ i, i.bundle.m.major = 8 → Clear s i .recvTimeout → ∃ t, exec (.recvTimeout i) s = .next t ∧
      (t.sticky 9).getLsbD 5 = true ∧ t.net = { s.net with rcount := s.net.rcount + dropped t } ∧
      (i.bundle.v0.isNop = true → i.bundle.v1.isNop = true → t.hoops = s.hoops)) ∧
    (∀ i, i.bundle.m.major = 6 → Clear s i .popqTimeout → ∃ t, exec (.popqTimeout i) s = .next t ∧
      (t.sticky 1).getLsbD 6 = true ∧ t.net = { s.net with rcount := s.net.rcount + dropped t } ∧
      (i.bundle.v0.isNop = true → i.bundle.v1.isNop = true → t.hoops = s.hoops))

/-! ### Faults and repair -/

/-- R42, R325 to R331, R334: a lane error aborts the bundle before writeback, which then waits for its re-execution; a
re-execution is counted, and executes the bundle with the end of its M slot's wait unless errors are found again, or
the armed injection meets it and joins them (R457). At the boundary after it a handed TBLD makes its leaf LOADING, the
places of the panels lost under it go, the activities that ended under it take effect, the lengths follow and the writes
held for it are made. The third failure in a row retires each panel named at once and darns it, one that is not retired
already; where no spare is left its place stays until that boundary; and it stops issue where it names the scalar unit
(logs 10, 16, 30, 49: the model's choices). -/
def Obligations.LaneRetry : Prop :=
  ∀ s : State,
    (∀ i errs handed, Clear s i → s.issue.retry = none → errsOk (s.env i) errs = true →
      let h := handed && handsFirst i.bundle errs
      let u := if h then mHand (s.env i) .normal s else s
      let q : Retry :=
        { stream := i.stream, bundle := i.bundle, fails := 1, handed := h, out := .normal, lost := [], darning := false,
          cap := s.twCap, acts := [], takes := (s.env i).takes .normal, freed := false }
      exec (.laneError i errs handed) s = .next (s.settle
        { u with
          issue := { u.issue with retry := some q }
          trouble := { u.trouble with laneErr := (errs.getLast?.map (s.env i).laneWord).getD u.trouble.laneErr } })) ∧
    (∀ r, s.issue.retry = some r → s.works = true →
      (s.trouble.restitchBusy = false ∨ s.trouble.lastRestitch = 1) → s.darningDue = false → r.darning = false →
      let m := (s.bump .retry 1).mark 14 0
      let e : Env := ⟨m, r.stream, r.bundle, r.cap⟩
      e.readErrs = [] → e.leafErrs = [] →
      (e.injected = none → exec .retryReexecute s = .next (s.settle
        (let n : State := { m with issue := { m.issue with retry := some { r with freed := false } } }
         let t := execBundle ⟨n, r.stream, r.bundle, r.cap⟩ r.out r.handed
         let x : State := { t with issue := { t.issue with retry := none } }
         let y := if r.handed then x.beginLoad r.bundle.m else x
         let g := State.settleCap y { y with panelMap := y.panelMap.filter fun p => !r.lost.contains p }
         let z := (r.acts.foldl State.actEffect g).clampLengths.releaseHeld
         if z.issue.stop = some .hostStop then z.abandonWait .main else z))) ∧
      (∀ errs handed, errsOk ⟨s, r.stream, r.bundle, s.twCap⟩ errs = true →
        let c := Instr.laneError ⟨r.stream, r.bundle⟩ errs handed
        let all := match e.injected with | some (x, _) => if errs.contains x then errs else x :: errs | none => errs
        let q := { r with handed := r.handed || (handed && handsFirst r.bundle all) }
        (r.fails + 1 < 3 → ∃ t, exec c s = .next t ∧ t.issue.retry = some { q with fails := r.fails + 1 } ∧
          t.counter .retry = min (s.counter .retry + 1) (2 ^ 32 - 1) ∧ t.hoops = s.hoops) ∧
        (3 ≤ r.fails + 1 → ∃ t, exec c s = .next t ∧
          (∀ x ∈ all, x.panel.toNat < 18 → t.panel x.panel.toNat = .retired) ∧
          (s.spare? ≠ none → (∀ x ∈ all, x.panel.toNat < 18 → s.panel x.panel.toNat = .inService) →
            ∀ x ∈ all, x.panel.toNat < 18 → t.arb.running = some ⟨.darning x.panel.toNat, .engine⟩ ∨
              x.panel.toNat ∈ t.arb.darns) ∧
          ((∃ x ∈ all, x.panel = 31) → t.issue.retry = none ∧ t.trouble.laneHard = true ∧
            (s.issue.running = true → t.issue.stop = some .laneHard))) ∧
        (∀ x, 3 ≤ r.fails + 1 → all = [x] → x.panel.toNat < 18 → s.panel x.panel.toNat ≠ .retired →
          s.spare? ≠ none → s.arb.running = none →
          ∃ t, exec c s = .next t ∧ t.arb.running = some ⟨.darning x.panel.toNat, .engine⟩ ∧
            t.panelMap = s.panelMap ∧ t.issue.retry = some { q with fails := 0, darning := true }) ∧
        (∀ x, 3 ≤ r.fails + 1 → all = [x] → x.panel.toNat < 18 → s.panel x.panel.toNat ≠ .retired → s.spare? = none →
          ∃ t, exec c s = .next t ∧ t.panel x.panel.toNat = .retired ∧ t.panelMap = s.panelMap ∧
            t.issue.retry = some { q with fails := 0, lost := r.lost ++ [x.panel.toNat], darning := false })))

/-- R34, R42, R331, R332, R334: darning of a panel 0 to 17, retired since its third failure (R328), replaces it by the
first spare that passes its short pattern, a spare that fails it becoming bad; each fall of PANELS.SPARE counts in
CAP_GEN. With no spare left the panel's place goes: at once, or at the boundary after the aborted bundle, which keeps
its geometry till then (log 16). -/
def Obligations.DarningEnds : Prop :=
  ∀ (s : State) (p : Nat) (src : ActSrc) (pass16 pass17 : Bool),
    s.arb.running = some ⟨.darning p, src⟩ → s.arb.darns = [] → s.arb.queue = [] → p < 18 → s.panel p = .retired →
    let ok (sp : Nat) : Prop := s.panel sp = .spare ∧ (if sp = 16 then pass16 else pass17) = true
    ∃ t, exec (.darningDone pass16 pass17) s = .next t ∧ t.panel p = .retired ∧ t.arb.running = none ∧
      (ok 16 → t.panel 16 = .inService ∧ (t.panelMap = s.panelMap.map fun x => if x = p then 16 else x) ∧
        t.capGen = s.capGen + 1) ∧
      (¬ ok 16 → ok 17 → t.panel 17 = .inService ∧ (t.panelMap = s.panelMap.map fun x => if x = p then 17 else x) ∧
        t.capGen = s.capGen + (if s.panel 16 = .spare then 2 else 1)) ∧
      (¬ ok 16 → s.panel 16 = .spare → t.panel 16 = .bad) ∧
      (¬ ok 16 → ¬ ok 17 → s.panel 17 = .spare → t.panel 17 = .bad) ∧
      match s.issue.retry with
      | none => ¬ ok 16 → ¬ ok 17 → t.panelMap = s.panelMap.filter (· != p)
      | some r =>
        (ok 16 ∨ ok 17 → t.issue.retry = some { r with darning := false }) ∧
        (¬ ok 16 → ¬ ok 17 → t.panelMap = s.panelMap ∧
          t.issue.retry = some { r with lost := r.lost ++ [p], darning := false })

/-- R70, R73, R216, R217, R335, R338, R373: the other repairs. A spare-in copies the slab into the hoop's spare, words
that cannot be corrected as zero, and the spare starts with no counted error; a leaf repair takes the group's spare, and
with none free the leaf is lost; a proofing marks what failed bad and reports; staged darning applies its stage and
empties it; a scrub corrects the errors of its slab where it is held and goes on to the next (logs 10, 14, 23: the
model's choices). A spare-in, a leaf repair or a staged darning that ends while a bundle waits for its re-execution takes
its effect at the boundary after it, since that reads the same operands again (R326; log 16: the model's reading). -/
def Obligations.RepairsEnd : Prop :=
  ∀ (s : State) (src : ActSrc),
    (∀ a c r, (a, c) ∈ [(Act.staged, Instr.stagedDarningDone)] ∨ (∃ h k n, (a, c) = (.spareIn h k n, .slabSpareInDone)) ∨
        (∃ i b, (a, c) = (.leafRepair i b, .leafRepairDone)) →
      s.arb.running = some ⟨a, src⟩ → s.issue.retry = some r → s.arb.darns = [] → s.arb.queue = [] →
      exec c s = .next (s.settle { s with
        issue := { s.issue with retry := some { r with acts := r.acts ++ [a] } }, arb := { s.arb with running := none } })) ∧
    (s.issue.retry = none →
    let hard (h k n : Nat) : Prop := ∃ e ∈ s.ecc, e.target = .hoop ∧ e.word = (h * 17 + k) * 512 + n ∧ e.hard = true
    (∀ h k cause, s.canon = true → s.arb.running = some ⟨.spareIn h k cause, src⟩ → h < 6 → k < 16 →
      s.hoopPresent h = true → s.hoopMeta.spare[h]? = some .free →
      ∃ t, exec .slabSpareInDone s = .next t ∧ t.hoopMeta.spare[h]? = some (.inUse k) ∧
        (t.sticky 3).getLsbD 0 = true ∧ t.hoopMeta.ceCount.get 0 (h * 17 + 16) = 0 ∧ ∀ n, n < 4096 →
          (hard h k (n / 8) → t.hoops.get 0 (slabKey h 16 + n) = 0) ∧
          (¬ hard h k (n / 8) → t.hoops.get 0 (slabKey h 16 + n) = s.hoops.get 0 (slabKey h k + n))) ∧
    (∀ i b, s.arb.running = some ⟨.leafRepair i b, src⟩ → i < 16 →
      ∃ t, exec .leafRepairDone s = .next t ∧
        (s.motif.spares[i / 4]? = some .free → t.motif.spares[i / 4]? = some (.inUse (leafNo i b)) ∧
          ((∃ e ∈ s.ecc, e.target = .leaf ∧ e.word / 1096 = leafNo i b ∧ e.hard = true) →
            ((t.mslot i).leaf b).state = .empty ∧ (t.sticky 4).getLsbD 5 = true)) ∧
        (s.motif.spares[i / 4]? ≠ some .free → (t.mslot i).lost b = true ∧ (t.mslot i).leaf b = Leaf.reset)) ∧
    (s.arb.running = some ⟨.staged, src⟩ →
      ∃ t, exec .stagedDarningDone s = .next t ∧ t.trouble.stage = [] ∧
        (∀ k w, s.trouble.stage = [(k, w)] → bits w 27 24 ≤ 4 →
          (bits w 31 28 = 4 → bits w 15 0 < 6 → t.hoopPresent (bits w 15 0) = false) ∧
          (bits w 31 28 = 1 → bits w 15 0 < 16 → s.panel (bits w 15 0) = .inService →
            t.panel (bits w 15 0) = .retired)))) ∧
    (∀ a bad16 bad17 slabs, s.arb.running = some ⟨.proofing a, src⟩ → a < 4 →
      ∃ t, exec (.proofingDone bad16 bad17 slabs) s = .next t ∧ (t.sticky 12).getLsbD 1 = true ∧
        t.trouble.proofStatus.getLsbD 31 = true ∧
        (a = 0 ∨ a = 2 → s.panel 16 = .spare → bad16 = true → t.panel 16 = .bad) ∧
        (a = 1 ∨ a = 2 → s.panel 17 = .spare → bad17 = true → t.panel 17 = .bad) ∧
        ∀ h, a = 3 → h < 6 → s.hoopPresent h = true → s.hoopMeta.spare[h]? = some .free → slabs.getLsbD h = true →
          t.hoopMeta.spare[h]? = some .bad) ∧
    (∀ (h : BitVec 3) j, s.clock.scrubs.find? (fun p => p.1 == h.toNat) = some (h.toNat, j) →
      s.hoopPresent h.toNat = true → s.arb.running = none → bits (s.reg 3 0x04C) 15 0 = 0 →
      let held := if j < 16 then s.physSlab h.toNat j else 16
      (∀ e ∈ s.ecc, e.target = .hoop → e.word / 512 = h.toNat * 17 + held → e.hard = false) →
      ∃ t, exec (.scrubSlab h) s = .next t ∧
        t.ecc = s.ecc.filter (fun e => !(e.target == .hoop && e.word / 512 == h.toNat * 17 + held)) ∧
        t.clock.scrubs = s.clock.scrubs.filter (fun p => p.1 != h.toNat) ++
          (if j + 1 < 17 then [(h.toNat, j + 1)] else []))

/-! ### Tables, partners and edging -/

/-- R211 to R215, R242, R382, R383: a load ends CHECKED and measured, or BAD with its reason; a verdict makes its leaf
READY or BAD, which refuses a pending swap to it but under a repair of its slot, or settles the edging store's; one
that does not come is unfavourable. While a cancelled measurement of a target still awaits its verdict, the first that
comes on the target, or its limit, is that one's and is discarded (log 35: the model's reading). A swap is requested,
refused, or waits under a repair of its slot, and takes effect when its leaf is READY and no aborted bundle waits. A
measurement stream that has gone out awaits its verdict. -/
def Obligations.TableEvents : Prop :=
  ∀ s : State,
    let asked (t : State) (m : MeasTarget) : Prop := m ∈ t.keys.requested ∨ t.keys.sending = some m
    (∀ x xs i b a, s.xfers = x :: xs → x.op = .tbld i b a → x.arrived = true → i < 16 → s.darningNow = false →
      (s.mslot i).isNoLeaf = false → ((s.mslot i).leaf b).state = .loading →
      let why := ((s.mslot i).leaf b).loadReason i
      ∃ t, exec .tbldDone s = .next t ∧ t.xfers = xs ∧
        (why = 0 → ((t.mslot i).leaf b).state = .checked ∧ ((t.mslot i).leaf b).tag = ((s.mslot i).leaf b).word 12 ∧
          ((t.mslot i).leaf b).seq = s.motif.loadSeq + 1 ∧ t.motif.loadSeq = s.motif.loadSeq + 1 ∧
          asked t (.leaf (BitVec.ofNat 4 i) b)) ∧
        (why ≠ 0 → ((t.mslot i).leaf b).state = .bad ∧ (t.mslot i).reason = BitVec.ofNat 4 why ∧
          (t.sticky 4).getLsbD 1 = true)) ∧
    (∀ m good, s.keys.stale.contains m = true → ∀ c ∈ [Instr.verdict m good, .verdictTimeout m],
      exec c s = .next (s.settle { s with keys := { s.keys with stale := s.keys.stale.erase m } })) ∧
    (∀ (i : BitVec 4) b good, s.keys.awaiting.contains (.leaf i b) = true → s.keys.stale.contains (.leaf i b) = false →
      ((s.mslot i.toNat).leaf b).state = .checked →
      (∃ t, exec (.verdict (.leaf i b) good) s = .next t ∧
        ((t.mslot i.toNat).leaf b).state = (if good then .ready else .bad) ∧
        (good = false → (t.mslot i.toNat).reason = 7) ∧
        (good = false → (s.mslot i.toNat).pending = true → (s.mslot i.toNat).target = b →
          (t.mslot i.toNat).pending = s.repairing i.toNat) ∧
        t.keys = { s.keys with awaiting := s.keys.awaiting.erase (.leaf i b) }) ∧
      ∃ t, exec (.verdictTimeout (.leaf i b)) s = .next t ∧ ((t.mslot i.toNat).leaf b).state = .bad ∧
        (t.mslot i.toNat).reason = 8 ∧ (t.sticky 13).getLsbD 4 = true) ∧
    (∀ good, s.keys.awaiting.contains .store = true → s.keys.stale.contains .store = false →
      ∃ t, exec (.verdict .store good) s = .next t ∧
        t.edging.verdict = (if good then .favourable else .unfavourable) ∧
        t.keys = { s.keys with awaiting := s.keys.awaiting.erase .store }) ∧
    (∀ i : BitVec 4, s.executes = true → s.repairing i.toNat = false → s.issue.retry = none →
      (s.mslot i.toNat).pending = true →
      ((s.mslot i.toNat).leaf (s.mslot i.toNat).target).state = .ready →
      exec (.swapTakesEffect i) s = .next (s.settle (s.setMslot i.toNat
        { s.mslot i.toNat with active := (s.mslot i.toNat).target, pending := false, reload := false }))) ∧
    (∀ w (i : BitVec 4), s.takes w 4 = true → s.works = true →
      let x := s.mslot i.toNat
      ∃ t, exec (.swap w i) s = .next t ∧
        (if x.pending then t.motif = s.motif ∧ (t.sticky 4).getLsbD 3 = true
         else if s.repairing i.toNat then t.mslot i.toNat = { x with pending := true }
         else if x.isNoLeaf ∨ (x.leaf x.target).state = .empty ∨ (x.leaf x.target).state = .bad then
           t.mslot i.toNat = { x with reason := 9 } ∧ (t.sticky 4).getLsbD 2 = true
         else t.mslot i.toNat = { x with pending := true })) ∧
    (∀ m, s.keys.sending = some m → ∃ t, exec .measurementStreamEnd s = .next t ∧
      t.keys.awaiting = s.keys.awaiting ++ [m] ∧ t.keys.sending = s.keys.requested.head? ∧
      ∃ later, t.outbox = s.outbox ++ .measurement m (s.measureWords m) :: later) ∧
    (∀ w, s.takes w 13 = true → s.works = true → s.anyArmed = false →
      ∃ t, exec (.measureEdge w) s = .next t ∧ t.edging.verdict = .awaited ∧ asked t .store)

/-- R266 to R270, R285, R442 to R444: an event marks its partner absent and a roll call follows, the direct port
closed, and the transfers in flight lose their target (R286); a reachability notice changes the map's bit and no other,
and a lost buddy is unbound, as is a lost foreign matrix engine that a held coupling names; a roll call publishes who
answered its probes, the own matrix engine by its queue or its port, another by its queue alone, and one that waits
begins then, or at the exit from rest (logs 19, 20, 25: the model's choices). -/
def Obligations.PartnerEvents : Prop :=
  ∀ s : State,
    let rolls (t : State) : Prop := t.partner.coupling.accPortEn = false ∧ t.partner.rollBusy = (s.partner.rollBusy || s.works) ∧
      (s.partner.rollBusy = true ∨ s.works = false → t.partner.rollPending = true)
    (s.up = true → ∀ p, ∃ t, exec (.partnerChangeEvent p) s = .next t ∧ rolls t ∧
      match p with
      | .me own => (own = s.ownMe → t.partner.me = false) ∧
          (own = true → t.partner.coupling.meSrc ≠ 0xFE) ∧
          (own = false → s.ownMe = true → ∀ c, t.partner.couplingHeld = some c → c.meSrc = 0xFE ∨ c.meSrc = 0xFF)
      | .core => t.partner.core = false ∧ t.issue.posts = [] ∧
          ∀ w, s.issue.wait = some w → w.kind = .dir → t.issue.wait = none ∧ (t.sticky 1).getLsbD 7 = true
      | .sram d => t.partner.sram[d.toNat]? = some false ∧
          ∀ x ∈ t.xfers, x.arrived = true ∨ ∃ y ∈ x.lost, y.target = .sram d.toNat
      | .dram => t.partner.dram = false ∧ ∀ x ∈ t.xfers, x.arrived = true ∨ ∃ y ∈ x.lost, y.target = .dram) ∧
    (s.up = true → s.canon = true → ∀ (p : BitVec 15) on, p.toNat ≤ 20479 → p ≠ s.package →
      ∃ t, exec (.reachabilityNotice p on) s = .next t ∧
        (∀ q : BitVec 15, (t.partner.reach.get 0 (q.toNat / 32)).getLsbD (q.toNat % 32) =
          if q = p then on else (s.partner.reach.get 0 (q.toNat / 32)).getLsbD (q.toNat % 32)) ∧
        (on = false → s.partner.buddy = some p →
          (s.partner.reach.get 0 (p.toNat / 32)).getLsbD (p.toNat % 32) = true →
          t.partner.buddy = none ∧ t.mirror.queue = [] ∧ rolls t)) ∧
    (s.up = true → s.partner.rollBusy = true →
      (∀ p, exec (.probeTimeout p) s = .next (s.settle
        { s with partner := { s.partner with probeAbsent := p :: s.partner.probeAbsent.filter (· != p) } })) ∧
      ∃ t, exec .rollCallPublish s = .next t ∧ t.partner.rollGen = s.partner.rollGen + 1 ∧
        t.partner.rollBusy = (s.partner.rollPending && s.works) ∧
        t.partner.rollPending = (s.partner.rollPending && !s.works) ∧ (t.sticky 8).getLsbD 0 = true ∧
        t.partner.me = !(s.partner.probeAbsent.contains .bobbin &&
          (!s.ownMe || s.partner.probeAbsent.contains .accPort)) ∧
        t.partner.core = !s.partner.probeAbsent.contains .core ∧ t.partner.dram = !s.partner.probeAbsent.contains .dram ∧
        ∀ d : BitVec 2, t.partner.sram[d.toNat]? = some (!s.partner.probeAbsent.contains (.sram d))) ∧
    (∀ w, s.takes w 8 = true → s.works = true → ∃ t, exec (.rollcall w) s = .next t ∧ rolls t)

/-- R273, R276, R285, R351, R443, R444: writes that change the coupling take effect at once or are held until the edge
is at rest, and one that leaves no matrix engine bound ends a WAIT of kind 1 then; a bind of a matrix engine that is
absent, elsewhere or serving is refused with its reason; a buddy is bound by its number (logs 20, 25: the model's
choices). -/
def Obligations.Couplings : Prop :=
  ∀ (s : State) (w : Writer),
    let now := s.partner.couplingHeld.getD s.partner.coupling
    (∀ c, s.partner.couplingHeld = some c → s.up = true → s.couplingFree = true →
      exec .couplingChange s = .next (s.settle (s.coupled c))) ∧
    (s.takes w 8 = true →
      (∀ v, v = false ∨ s.partner.rollBusy = false →
        exec (.accPortEn w v) s = .next (s.settle (s.recouple { now with accPortEn := v }))) ∧
      (s.partner.rollBusy = true → ∃ t, exec (.accPortEn w true) s = .next t ∧ t.partner.coupling.accPortEn = false ∧
        (s.partner.couplingHeld = none → t.partner.couplingHeld = none)) ∧
      (∀ v, exec (.queueUse w v) s = .next (s.settle (s.recouple { now with queueUse := v }))) ∧
      (∀ v present serving,
        let n := v.toNat % 256
        let own := n = 0xFE ∨ n = s.wz.toNat
        let there := if own ∧ s.ownMe = true then s.partner.me else present
        let why : Nat :=
          if n = 0xFF then 0
          else if own then (if there then 0 else 2)
          else if 0x7F < n then 4
          else if n / 32 ≠ s.wz.toNat / 32 then 1
          else if there = false then 2
          else if serving then 3
          else 0
        let noted : State := { s with partner := { s.partner with bindRefused := why } }
        exec (.bindMe w v present serving) s = .next (s.settle
          (if why ≠ 0 then noted
           else noted.recouple { now with meSrc := if own then 0xFE else BitVec.ofNat 8 n }))) ∧
      ∀ v, exec (.bindBuddy w v) s = .next (s.settle
        { s with
          partner := { s.partner with
            buddyId := v.truncate 15, buddy := if v.getLsbD 31 then some (v.truncate 15) else none }
          mirror := { s.mirror with expMseq := none } }))

/-- R245 to R249, R254, R255, R260, R264, R271, R274: a completed tile enters the program's queue, or the trigger queue
of the lowest binding that matches, or is released; a run starts from the oldest trigger with a fresh context, none
while a bank is to be released or a darning is due; a completion run at the next position with the source of the run
that completed the band; an ended run is recorded, folded where its binding says so, and its tile released, never one
in program use; one over its budget aborts. A mask request of the own matrix engine is answered bit by bit, the bits of
a stored word that cannot be corrected being free (logs 12, 15, 22, 25: the model's choices). -/
def Obligations.EdgingRuns : Prop :=
  ∀ s : State, 0 < s.active → (∃ h, h < 6 ∧ s.hoopPresent h = true) →
    (∀ tag stream tile, s.takesTile = true → s.trouble.engineDown = false → tileWf tile = true →
      ∃ t x, exec (.tileCompletion tag stream tile) s = .next t ∧ x.tag = tag ∧ x.stream = stream ∧ x.popped = 0 ∧
        x.use = (if s.directPort then .direct else if s.partner.coupling.queueUse then .program else .edging) ∧
        (∀ p ∈ tile, x.data.get 0 p.1 = p.2) ∧
        (if s.directPort = false ∧ s.partner.coupling.queueUse = true then
           t.edging.tiles = s.edging.tiles ++ [x] ∧ t.edging.trig = s.edging.trig
         else match s.matchBinding 0 stream.toNat with
           | some b => t.edging.tiles = s.edging.tiles ++ [x] ∧
               t.edging.trig = s.edging.trig ++ [⟨b, false, tag, 0⟩]
           | none => t.edging.tiles = s.edging.tiles ∧ t.edging.trig = s.edging.trig ∧
               t.outbox = s.outbox ++ [.tileRelease tag] ∧ (t.sticky 7).getLsbD 0 = true)) ∧
    (∀ ev rest, s.edging.trig = ev :: rest → s.runFree = true → s.edging.compl = none →
      let b := ev.binding
      ∃ t r, exec .edgingRunStart s = .next t ∧ t.edging.trig = rest ∧ t.edging.run = some r ∧
        r.binding = b ∧ r.tag = ev.tag ∧ r.src = ev.src ∧ r.arrival = ev.arrival ∧ r.completion = false ∧ r.wait = none ∧ r.ended = none ∧
        r.first = bits (s.bindWord b 1) 31 24 ∧ r.len = bits (s.bindWord b 1) 22 16 ∧ r.pc = r.first ∧
        r.ctx.vl = 0 ∧ r.ctx.sreg 1 = ev.tag.zeroExtend 64 ∧ r.ctx.sreg 2 = ev.src ∧
        r.ctx.sreg 3 = BitVec.ofNat 64 (tagCol ev.tag) ∧ r.ctx.tid = (s.bindWord b 4).truncate 16 ∧
        r.ctx.base = s.tileOrigin b (tagBand ev.tag) (tagCol ev.tag) ∧ r.ctx.sreg 4 = r.ctx.base.zeroExtend 64 ∧
        r.ctx.sreg 5 = (s.bindWord b 7).zeroExtend 64 ∧
        r.ctx.descAt 0 = s.ctx.descAt (bits (s.bindWord b 0) 19 16)) ∧
    ((∃ k, k < 2 ∧ (s.bank k).releaseDue = true) ∨ s.darningDue = true →
      ∀ c ∈ [Instr.edgingRunStart, .completionRunStart], exec c s = .next (s.settle s)) ∧
    (∀ b tag src k p ps, s.edging.compl = some ⟨b, tag, src, k, p :: ps⟩ → s.runFree = true →
      ∃ t r, exec .completionRunStart s = .next t ∧ t.edging.run = some r ∧ r.binding = b ∧ r.tag = tag ∧
        r.completion = true ∧ r.pos = p ∧ r.first = bits (s.bindWord b 1) 15 8 ∧ r.pc = r.first ∧
        r.len = bits (s.bindWord b 1) 6 0 ∧ r.ctx.sreg 2 = src ∧ r.ctx.sreg 3 = BitVec.ofNat 64 p) ∧
    (∀ r, s.edging.run = some r → r.ended = none → s.issue.retry = none →
      exec .edgingOverrun s = .next (s.settle
        { s with edging := { s.edging with
          run := some { r with ended := some .overrun, abortAt := r.pc, wait := none } } })) ∧
    (∀ r st, s.edging.run = some r → r.ended = some st → s.runDrained = true → s.issue.retry = none → r.binding < 8 →
      let folds : Prop := st = .ok ∧ r.completion = false ∧ s.bindMode r.binding ≠ 0
      ∃ t, exec .edgingRunEnd s = .next t ∧ t.edging.run = none ∧ (t.bindRep r.binding).lastTag = r.tag ∧
        (¬ folds → (t.bindRep r.binding).status = st ∧
          (st ≠ .ok → (t.bindRep r.binding).bundle = r.abortAt) ∧ t.edging.entries = s.edging.entries ∧
          ∀ b, statusBit st = some b → (t.sticky 7).getLsbD b = true) ∧
        (folds → (t.bindRep r.binding).status = (s.fold r).1 ∧ t.edging.entries = (s.fold r).2.edging.entries ∧
          (s.edging.compl = none → ∀ c, t.edging.compl = some c →
            c.binding = r.binding ∧ c.tag = r.tag ∧ c.src = r.src)) ∧
        (r.completion = false → r.arrival = false → s.edging.trig = [] → ∀ xs x ys, s.edging.tiles = xs ++ x :: ys →
          (∀ y ∈ xs, y.use = .program) → x.use ≠ .program →
          t.edging.tiles = xs ++ ys ∧ ∃ later, t.outbox = s.outbox ++ .tileRelease x.tag :: later)) ∧
    (s.executes = true → s.partner.coupling.meSrc = 0xFE → ∀ m row col, ∃ (t : State) (k : BitVec 128),
      exec (.maskRequest m row col) s = .next t ∧ t.maskOut = some k ∧
      (s.rowErrs m row = [] → t = s.settle { s with maskOut := some k }) ∧
      let ctl := s.reg 7 0x040
      let drop := s.reg 7 0x048
      let slab := (bits ctl 11 8 + 4 * m.toNat + row.toNat % 128 / 32) % 16
      let image (c : Nat) : Bool :=
        (leNat (((s.slabBytes (bits ctl 14 12) slab 512).drop (16 * (row.toNat % 32))).take 16)).testBit c
      ∀ c, c < 128 → (∀ e ∈ s.rowErrs m row, e.hard = true → e.word % 2 ≠ c / 64) → k.getLsbD c =
        ((!ctl.getLsbD 0 || image c) &&
          (!ctl.getLsbD 1 || decide ((col.toNat + c : Int) ≤ row.toNat + (s.reg 7 0x044).toInt)) &&
          (!ctl.getLsbD 2 || decide ((twist s.twist.s0 s.twist.s1 s.twist.step (drop.truncate 16)
            (BitVec.ofNat 48 (row.toNat * (s.reg 7 0x04C).toNat + col.toNat + c))).toNat < bits drop 31 16))))

/-! ### Records and the mirror -/

/-- R297, R298, R349 to R351, R353, R380, R381: a record under no key is dropped and counted; one whose header is
wrong, or of another step, is dropped; an exchange record of this step takes a free arrival slot, its payload in the
slab with that number, and one of the next step does so too but is held; a mirror record from another package is
dropped, one of the buddy's log is written to its half, and acknowledged once it is, a write that fails making the half
DAMAGED, one of the next step is held until that opens, and one for a half that is being folded is not taken yet; a
copy of the image begins with the first BASE record after MSEQ has restarted, and is VALID when its BASE_END gives the
number of its records (R346, R352) (logs 24, 26, 27, 35: the model's choices). -/
def Obligations.ArrivingRecords : Prop :=
  ∀ s : State,
    (∀ r k, s.canon = true → s.works = true → r.wf = true → k = (if hdrMirror r.hdr then 1 else 0) →
      let key := s.key k
      let passes : Prop := key.state ≠ .empty ∧ recOk key.key r = true
      let src := hdrSrc r.hdr
      let renewed : Bool := s.mirror.rxNew || hdr r.hdr 10 == 0 ||
        s.mirror.rxSeen.all fun x => decide ((hdr r.hdr 10).toNat ≤ x.toNat)
      ∃ t, exec (.recordVerified r) s = .next t ∧
        (¬ passes → ((s.key (k + 2)).state = .live → recOk (s.key (k + 2)).key r = false) →
          (t.sticky 13).getLsbD 3 = true ∧ t.counter .sealFail = min (s.counter .sealFail + 1) (2 ^ 32 - 1) ∧
            t.net = s.net ∧ t.mirror = s.mirror ∧ t.keys = s.keys) ∧
        (passes → s.headerOk r.hdr = false → (t.sticky 9).getLsbD 2 = true ∧ t.net = s.net ∧ t.mirror = s.mirror) ∧
        (passes → s.headerOk r.hdr = true → hdrMirror r.hdr = false →
          (hdrStep r.hdr ≠ s.twist.step → hdrStep r.hdr ≠ s.twist.step + 1 → (t.sticky 9).getLsbD 3 = true ∧
            t.counter .stale = min (s.counter .stale + 1) (2 ^ 32 - 1) ∧ t.net = s.net) ∧
          (hdrStep r.hdr = s.twist.step → s.net.rxEn = true →
            (∃ a b, a < b ∧ b < 16 ∧ s.net.slots[a]? = some none ∧ s.net.slots[b]? = some none) →
            ∃ n x, s.net.slots[n]? = some none ∧ t.net.slots[n]? = some (some x) ∧ x.hdr = r.hdr ∧ x.early = false ∧
              t.slabBytes s.net.rxHoop.toNat n 4096 = padBytes 4096 (openRec key.key r)) ∧
          (hdrStep r.hdr = s.twist.step + 1 → s.net.rxEn = true →
            (∃ a b, a < b ∧ b < 16 ∧ s.net.slots[a]? = some none ∧ s.net.slots[b]? = some none) →
            ∃ n x, s.net.slots[n]? = some none ∧ t.net.slots[n]? = some (some x) ∧ x.hdr = r.hdr ∧ x.early = true ∧
              x.released = false ∧ t.slabBytes s.net.rxHoop.toNat n 4096 = padBytes 4096 (openRec key.key r))) ∧
        (passes → s.headerOk r.hdr = true → hdrMirror r.hdr = true →
          (s.partner.buddy ≠ some (addrPackage src) ∨ addrWz src ≠ s.wz →
            (t.sticky 10).getLsbD 3 = true ∧ t.mirror = s.mirror) ∧
          (s.partner.buddy = some (addrPackage src) → addrWz src = s.wz → hdrMkind r.hdr ≤ 3 →
            hdrStep r.hdr = s.twist.step →
            let p := (hdrStep r.hdr).toNat % 2
            (s.half p).state = .isOpen → (s.half p).step = s.twist.step →
            (∀ e, s.mirror.expMseq = some e → e = hdr r.hdr 10) →
            logEntry * ((s.half p).index + 1) ≤ (s.reg 10 0x064).toNat →
            t.mirror.logWrites = s.mirror.logWrites ++
              [⟨p, wrap48 (s.logBase p + logEntry * (s.half p).index), r.hdr, openRec key.key r, hdr r.hdr 10⟩] ∧
            t.half p = { s.half p with index := (s.half p).index + 1 }) ∧
          (s.partner.buddy = some (addrPackage src) → addrWz src = s.wz → hdrMkind r.hdr ≤ 3 →
            (s.half ((hdrStep r.hdr).toNat % 2)).state ≠ .folding → hdrStep r.hdr = s.twist.step + 1 →
            t.mirror = { s.mirror with
              rxHeld := s.mirror.rxHeld ++ [⟨r.hdr, openRec key.key r⟩], rxSeen := some (hdr r.hdr 10), rxNew := renewed }) ∧
          (s.partner.buddy = some (addrPackage src) → addrWz src = s.wz → hdrMkind r.hdr = 4 → renewed = true →
            t.mirror.image = .filling ∧ t.mirror.rxCount = 1 ∧ t.mirror.rxNew = false ∧ t.mirror.rxCut = false) ∧
          (s.partner.buddy = some (addrPackage src) → addrWz src = s.wz → hdrMkind r.hdr = 5 → renewed = false →
            s.mirror.image = .filling → t.mirror.image =
              if s.mirror.rxCount = (hdr r.hdr 15).toNat then .valid else .filling) ∧
          (s.partner.buddy = some (addrPackage src) → addrWz src = s.wz → hdrMkind r.hdr ≤ 3 →
            (s.half ((hdrStep r.hdr).toNat % 2)).state = .folding →
            hdrStep r.hdr = s.twist.step ∨ hdrStep r.hdr = s.twist.step + 1 → t = s.settle s))) ∧
    (∀ w ws, s.up = true → s.canon = true → s.mirror.logWrites = w :: ws → w.hdr.length = 16 → w.body.length = 4096 →
      let data := wordsToBytes w.hdr ++ w.body
      ∃ t, exec .mirrorLogWriteDone s = .next t ∧
        (s.mirror.rxHeld = [] → t.mirror.logWrites = ws ∧ (w.half < 2 →
          (∃ j : Nat, j < 4160 ∧ s.reach [] (j / 4) (wrap48 (w.addr + j)) ≠ .ok) →
            (t.half w.half).state = .damaged ∧ ((s.half w.half).state = .folding →
              t.mirror.image = .invalid ∧ (t.sticky 10).getLsbD 0 = true))) ∧
        ((s.half w.half).state ≠ .folding → t.mirror.logWrites = ws) ∧
        (∃ later, t.outbox = s.outbox ++ .mirrorAck w.mseq :: later) ∧
        ∀ j : Nat, j < 4160 → s.reach [] (j / 4) (wrap48 (w.addr + j)) = .ok →
          t.fabric.get 0 (wrap48 (w.addr + j)) = data.getD j 0) ∧
    (s.up = true → ∀ m, exec (.mirrorAck m) s = .next (s.settle
      { s with mirror := { s.mirror with unacked := s.mirror.unacked.filter (· != m) } })) ∧
    (∀ m, s.up = true → m ∈ s.mirror.unacked → (∀ o ∈ s.net.outQ, o.mirror = true → o.counter ≠ m) →
      ∃ t, exec (.ackTimeout m) s = .next t ∧ (t.sticky 10).getLsbD 2 = true ∧
        t.mirror = { s.mirror with unacked := s.mirror.unacked.filter (· != m), damaged := true })

/-- R310, R345 to R349, R352, R353, R357: the mirror stream hands the head of its queue to the port with the next MSEQ
and RCOUNT, which it counts (R296), or discards it where the buddy is absent, counting it too; the region records of an
operation enter the queue as there is room, behind what waits there and after the DESC record that a flush owes, and
none does while the queue is full or a waiting or aborted UPD needs the room, which stays the waiting UPD's until it
issues; an operation that has sent everything sends its END record with the count, a base copy only once the queue is
empty; the descriptor buffer goes out as one record; a fold, of two that of the earlier step, applies its half's
records in order and ends, and a record that it held opens the half anew (logs 26, 42: the model's choices). -/
def Obligations.MirrorOperations : Prop :=
  ∀ s : State, s.up = true →
    (∀ r rs, s.mirror.queue = r :: rs → ∃ t more, exec .mirrorSend s = .next t ∧ t.mirror.queue = rs ++ more ∧
      more.length ≤ 1 ∧ (s.mirror.op = none → more = []) ∧
      (s.mirror.op = none → t.mirror.mseq = s.mirror.mseq + 1) ∧
      t.net.rcount = s.net.rcount + (t.mirror.mseq - s.mirror.mseq) ∧
      (s.buddyUp = false → t.mirror.gap = true ∧ (t.sticky 8).getLsbD 1 = true ∧ t.net.outQ = s.net.outQ) ∧
      (s.buddyUp = true → t.mirror.mseq = s.mirror.mseq + 1 ∧
        ((s.key 1).state = .live → hdrMirror r.hdr = true → 16 ≤ r.hdr.length →
          t.mirror.unacked = s.mirror.unacked ++ [s.mirror.mseq] ∧
          ∃ o, t.net.outQ = s.net.outQ ++ [o] ∧ o.mirror = true ∧ o.counter = s.mirror.mseq ∧
            hdr o.wire.hdr 8 = s.net.rcount ∧ hdr o.wire.hdr 10 = s.mirror.mseq ∧ o.package = s.partner.buddyId)) ∧
      (s.buddyUp = true → s.updWaits = true → more = [] ∧ t.mirror.owed = some s.issue.pc)) ∧
    (s.mirror.owed = some s.issue.pc → s.buddyUp = true → s.canOffer .main = true → (s.fetched .main).v1.major = 14 →
      s.clock.frozenGuard = some false → s.ctx.vl ≠ 0 →
      s.updWaits = true ∧ exec .mirrorFlushDone s = .next (s.settle s)) ∧
    (∀ op d rest, s.mirror.op = some op → s.mirror.todo = d :: rest → d.logged = false →
      (op = .flush → s.mirror.sent ≠ 0 ∨ s.mirror.descs = []) → (s.buddyUp = true → s.updWaits = false ∧ s.updKept < 32) →
      let next := if d.offset + 4096 < d.bytes then { d with offset := d.offset + 4096 } :: rest else rest
      (s.mirror.queue = [] → ∃ t, exec .mirrorSend s = .next t ∧ t.mirror.sent = s.mirror.sent + 1 ∧
        t.mirror.mseq = s.mirror.mseq + 1 ∧ t.mirror.queue = [] ∧ t.mirror.todo = next) ∧
      (∀ r rs mk, s.mirror.queue = r :: rs → rs.length + 1 + s.updKept < 32 → s.buddyUp = true → d.role < 16 →
        (op, mk) ∈ [(MirrorOp.flush, 2), (.baseCopy, 4), (.restore, 6)] →
        let at_ (j : Nat) : Nat := wrap48 (wrap48 (d.base + d.offset) + j)
        ∃ t m, exec .mirrorSend s = .next t ∧ t.mirror.sent = s.mirror.sent + 1 ∧ t.mirror.todo = next ∧
          t.mirror.queue = rs ++ [m] ∧ hdrMkind m.hdr = mk ∧ hdrRole m.hdr = d.role ∧
          hdrRegion m.hdr = d.region % 16 ∧ hdrPos m.hdr = d.offset % 2 ^ 48 ∧
          m.body = padBytes 4096 ((List.range (min 4096 (d.bytes - d.offset))).map fun j =>
            if s.reach [] (j / 4) (at_ j) = .ok then s.fabric.get 0 (at_ j) else 0))) ∧
    (s.buddyUp = true → 32 ≤ s.mirror.queue.length + s.updKept ∨ s.updWaits = true → ∃ t, exec .mirrorSend s = .next t ∧
      t.mirror.todo = s.mirror.todo ∧ t.mirror.sent = s.mirror.sent ∧ t.mirror.descs = s.mirror.descs) ∧
    (s.mirror.op = some .flush → s.mirror.sent = 0 → s.mirror.descs ≠ [] → s.buddyUp = true → s.updWaits = false →
      s.mirror.queue.length + s.updKept < 32 → ∃ t, exec .mirrorSend s = .next t ∧ t.mirror.descs = [] ∧ t.mirror.sent = 0 ∧
        t.mirror.todo = s.mirror.todo) ∧
    (∀ d ds, s.mirror.queue = [] → s.mirror.descs = d :: ds → s.buddyUp = true →
      ∃ t r, exec .descSendTimer s = .next t ∧ t.mirror.descs = [] ∧ t.mirror.queue = [r] ∧
        bits (hdr r.hdr 5) 31 28 = 1 ∧ (hdr r.hdr 15).toNat = (ds.length + 1) % 2 ^ 32 ∧
        r.body = padBytes 4096 (wordsToBytes (d :: ds).flatten)) ∧
    (∀ c op (mk : Nat), (c, op, mk) ∈ [(Instr.mirrorFlushDone, MirrorOp.flush, 3), (.restoreDone, .restore, 7)] →
      s.mirror.op = some op → s.mirror.todo = [] → s.buddyUp = true → s.mirror.queue.length + s.updKept < 32 →
      (op = .flush → s.mirror.sent ≠ 0 ∨ s.mirror.descs = []) → s.updWaits = false →
      ∃ t r, exec c s = .next t ∧ t.mirror.op = none ∧ t.mirror.opLast = some op ∧ t.mirror.opStatus = 0 ∧
        (t.sticky 10).getLsbD 0 = true ∧ t.mirror.queue = s.mirror.queue ++ [r] ∧
        bits (hdr r.hdr 5) 31 28 = mk ∧ (hdr r.hdr 15).toNat = s.mirror.sent % 2 ^ 32) ∧
    (s.mirror.op = some .baseCopy → s.mirror.todo = [] → s.buddyUp = true → s.updKept < 32 → s.updWaits = false →
      (s.mirror.queue ≠ [] → exec .baseCopyDone s = .next (s.settle s)) ∧
      (s.mirror.queue = [] → ∃ t, exec .baseCopyDone s = .next t ∧ t.mirror.op = none ∧
        t.mirror.opLast = some .baseCopy ∧ t.mirror.opStatus = 0 ∧ (t.sticky 10).getLsbD 0 = true ∧
        t.mirror.queue = [] ∧ t.mirror.mseq = s.mirror.mseq + 1 ∧
        ((s.key 1).state = .live → ∃ o, t.net.outQ = s.net.outQ ++ [o] ∧ o.mirror = true ∧
          o.counter = s.mirror.mseq ∧ o.package = s.partner.buddyId))) ∧
    (∀ p, p < 2 → (s.half p).state = .folding →
      (∀ q, q < 2 → q ≠ p → (s.half q).state = .folding → (s.half p).step.toNat < (s.half q).step.toNat) →
      (∀ w ∈ s.mirror.logWrites, w.half ≠ p) →
      ∃ t, exec .mirrorFoldDone s = .next t ∧ (t.sticky 10).getLsbD 0 = true ∧
        (s.mirror.rxHeld = [] → t.half p = { s.half p with state := .folded } ∧
          t.fabric = ((List.range (s.half p).index).foldl (State.foldOne (s.logBase p)) s).fabric) ∧
        (∀ r, s.mirror.rxHeld = [r] → hdrMkind r.hdr ≤ 3 → hdrStep r.hdr = s.twist.step →
          s.twist.step.toNat % 2 = p → (∀ e, s.mirror.expMseq = some e → e = hdr r.hdr 10) →
          logEntry ≤ (s.reg 10 0x064).toNat →
          t.half p = ⟨.isOpen, 1, s.twist.step⟩ ∧ t.mirror.rxHeld = [] ∧
          t.mirror.logWrites =
            s.mirror.logWrites ++ [⟨p, wrap48 (s.logBase p), r.hdr, r.body, hdr r.hdr 10⟩]))

/-! ### The step clock -/

/-- R312 to R317, R169, R178, R288, R297, R306 to R309, R320, R352, R397: what each mark does. A frame that fails its
check is dropped, and one at rest is only tracked. A lost mark is counted; a mark of another step changes no phase;
STEP_OPEN opens its step with the staged seeds, after an ABORT where one is open, ends a base copy and wakes the
records held for the step; FWD, BWD and EXCH set the phase, UPDATE begins the guard freeze, and a second one is
ignored; COMMIT closes the step, flips the parity and adds a walk, ABORT closes it and frees the arrivals, but for one
that an aborted NRECV takes (R326; log 24); a valid entry whose mark and step come is pending. What a cut base copy
leaves is the model's choice (log 26). -/
def Obligations.Marks : Prop :=
  ∀ (s : State) (f : Frame) (c : Instr), s.up = true → s.testLocal = false → c.wf = true →
    c ∈ [.stepOpen f, .fwd f, .bwd f, .exch f, .update f, .commit f, .abort f, .idle f, .userMark f] →
    let code := f.code.toNat
    let same := f.step = s.twist.step
    (Frame.check f ≠ f.crc.toNat → exec c s = .next (s.settle (s.mark 11 0))) ∧
    (Frame.check f = f.crc.toNat → s.works = false → ∃ t, exec c s = .next t ∧ (t.sticky 11).getLsbD 7 = true ∧
      t.twist = s.twist ∧
      t.clock = { s.clock with expSeq := some (f.seq + 1), seqSeen := f.seq, quiet := false }) ∧
    (Frame.check f = f.crc.toNat → s.works = true →
    ∃ t, exec c s = .next t ∧ t.clock.expSeq = some (f.seq + 1) ∧ t.clock.seqSeen = f.seq ∧ t.clock.quiet = false ∧
      (∀ e, s.clock.expSeq = some e → f.seq ≠ e → (t.sticky 11).getLsbD 1 = true) ∧
      (1 ≤ code → code ≤ 6 → ¬ same → t.clock.phase = s.clock.phase ∧ t.clock.isOpen = s.clock.isOpen ∧
        (t.sticky 11).getLsbD 3 = true ∧
        t.counter .mismatch = min (s.counter .mismatch + 1) (2 ^ 32 - 1)) ∧
      (1 ≤ code → code ≤ 6 → same → s.clock.isOpen = false →
        t.clock.phase = s.clock.phase ∧ t.clock.isOpen = false ∧ (t.sticky 11).getLsbD 2 = true) ∧
      (code = 0 → t.clock.isOpen = true ∧ t.clock.phase = 0 ∧ t.twist.step = f.step ∧ t.clock.frozenGuard = none ∧
        t.trouble.guardBit = false ∧ t.net.rcount = 0 ∧ t.mirror.group = 0 ∧ t.mirror.mseq = 0 ∧
        (s.twist.pending = true → t.twist.s0 = s.twist.staged0 ∧ t.twist.s1 = s.twist.staged1) ∧
        (s.clock.isOpen = true → (t.sticky 11).getLsbD 2 = true ∧ t.clock.lastAbort = some s.twist.step) ∧
        (s.mirror.op = some .baseCopy → t.mirror.op = none ∧ t.mirror.opStatus = 1 ∧ (t.sticky 10).getLsbD 0 = true ∧
          ∀ r ∈ t.mirror.queue, hdrMkind r.hdr ≠ 4) ∧
        (s.mirror.rxHeld = [] → s.mirror.image = .filling → t.mirror.image = .invalid ∧ t.mirror.rxCut = true) ∧
        (s.clock.isOpen = false → ∀ k x, k < 16 → s.net.slots[k]? = some (some x) → x.early = true →
          x.missed = false → hdrStep x.hdr = f.step →
          ∃ y, t.net.slots[k]? = some (some y) ∧ y.hdr = x.hdr ∧ y.early = false)) ∧
      (1 ≤ code → code ≤ 3 → same → s.clock.isOpen = true → t.clock.phase = f.code ∧
        (code < s.clock.phase.toNat → (t.sticky 11).getLsbD 2 = true)) ∧
      (code = 4 → same → s.clock.isOpen = true → s.clock.frozen = false →
        t.clock.phase = 4 ∧ t.clock.freezeDue = true ∧ t.clock.frozen = true) ∧
      (code = 4 → same → s.clock.isOpen = true → s.clock.frozen = true → (t.sticky 11).getLsbD 2 = true ∧
        t.clock.phase = s.clock.phase ∧ t.clock.freezeDue = s.clock.freezeDue ∧
        t.clock.frozenGuard = s.clock.frozenGuard ∧ t.clock.isOpen = true) ∧
      (code = 5 → same → s.clock.isOpen = true →
        t.clock.phase = 5 ∧ t.clock.isOpen = false ∧ t.clock.lastCommit = some s.twist.step ∧
        t.mirror.parity = !s.mirror.parity ∧ t.scale.walkDue = s.scale.walkDue ++ [s.twist.step] ∧
        (s.clock.frozen = false → (t.sticky 11).getLsbD 2 = true) ∧
        (s.guardReads = true ∨ (s.sticky 14).getLsbD 9 = true → (t.sticky 14).getLsbD 10 = true)) ∧
      (code = 6 → same → s.clock.isOpen = true →
        t.clock.phase = 6 ∧ t.clock.isOpen = false ∧ t.clock.lastAbort = some s.twist.step ∧
        t.mirror.parity = s.mirror.parity ∧ ∀ k, k < 16 →
          (∀ r, s.issue.retry = some r → r.takes ≠ some (.slot k)) → t.net.slots[k]? = some none) ∧
      (code = 7 → t.clock.phase = 7) ∧ (8 ≤ code → t.clock.phase = s.clock.phase) ∧
      (code = 0 ∨ 7 ≤ code ∨ (same ∧ s.clock.isOpen = true ∧ (code = 4 → s.clock.frozen = false)) →
        t.clock.lastCode = f.code ∧ t.clock.lastSeq = f.seq ∧ t.clock.lastStep = f.step ∧
        ∀ i, i < 64 → (s.entryWord i 0).getLsbD 31 = true → bits (s.entryWord i 0) 23 20 = code →
          (if code = 0 then f.step else s.twist.step).toNat % bits (s.entryWord i 1) 31 16 =
            bits (s.entryWord i 1) 15 0 →
          ⟨i, true⟩ ∈ t.clock.pendings))

/-- R178, R180, R213, R307, R315, R319 to R321, R345, R408, R409: the guard freezes at its value; each COMMIT has a
walk of its own, which updates every valid slot and holds writes of slots until it ends; a quiet clock is reported; a
pending start runs its activity once and is dropped and counted where that already runs, a proofing also where its
spare is being proofed; a snapshot copies the counters of its capture cycle, and a clear zeroes them. That a walk takes
its whole effect at its start is the model's choice (log 38). -/
def Obligations.StepMachinery : Prop :=
  ∀ s : State, s.works = true → s.canon = true →
    (s.clock.freezeDue = true → s.issue.retry = none → exec .guardFreeze s = .next (s.settle
      { s with clock := { s.clock with freezeDue := false, frozenGuard := some s.trouble.guardBit } })) ∧
    (s.clock.quiet = false → bits (s.reg 11 0x040) 15 0 ≠ 0 → ∃ t, exec .clockQuiet s = .next t ∧
      t.clock = { s.clock with quiet := true } ∧ (t.sticky 11).getLsbD 5 = true) ∧
    (∀ step due, s.scale.walkDue = step :: due → s.scale.walkBusy = false → s.issue.retry = none →
      (∀ e ∈ s.ecc, e.target ≠ .scale) → ∃ t, exec .commitWalk s = .next t ∧ t.scale.walkDue = due ∧
        t.scale.walkBusy = true ∧ t.scale.walkStep = step ∧
        ∀ i, t.slot i = if (s.slot i).valid then (s.slot i).walk else s.slot i) ∧
    (s.issue.held = [] →
      exec .commitWalkEnd s = .next (s.settle { s with scale := { s.scale with walkBusy := false } })) ∧
    (∀ i r v, s.issue.retry = none → s.scale.walkDue = [] → s.issue.held = [.slot i r v] →
      exec .commitWalkEnd s = .next (s.settle (State.slotStore
        { s with scale := { s.scale with walkBusy := false }, issue := { s.issue with held := [] } } i r v))) ∧
    (∀ i : BitVec 6, (∃ p ∈ s.clock.pendings, p.entry = i.toNat) →
      ∃ t, exec (.prickingStart i) s = .next t ∧
        t.clock.pendings = s.clock.pendings.filter (fun p => p.entry != i.toNat) ∧
        ((s.entryWord i.toNat 0).getLsbD 29 = true → (t.entryWord i.toNat 0).getLsbD 31 = false) ∧
        let kind := bits (s.entryWord i.toNat 0) 27 24
        let a := bits (s.entryWord i.toNat 2) 11 0
        let dropped : Prop :=
          (t.sticky 11).getLsbD 6 = true ∧ t.counter .skip = min (s.counter .skip + 1) (2 ^ 32 - 1) ∧ t.arb = s.arb
        let idle : Prop := s.arb.running = none ∧ s.arb.queue = [] ∧ s.arb.darns = []
        (kind = 1 → a < 6 → s.hoopPresent a = true →
          ((∀ p ∈ s.clock.scrubs, p.1 ≠ a) → t.clock.scrubs = s.clock.scrubs ++ [(a, 0)]) ∧
          ((∃ p ∈ s.clock.scrubs, p.1 = a) → dropped ∧ t.clock.scrubs = s.clock.scrubs)) ∧
        (kind = 3 → a < 16 → s.repairing a = false →
          ((s.mslot a).pending = true → (t.sticky 4).getLsbD 3 = true ∧ t.motif = s.motif) ∧
          ((s.mslot a).pending = false → (s.mslot a).refuses = false → t.mslot a = { s.mslot a with pending := true }) ∧
          ((s.mslot a).pending = false → (s.mslot a).refuses = true →
            (t.sticky 4).getLsbD 2 = true ∧ t.mslot a = { s.mslot a with reason := 9 })) ∧
        (kind = 4 → (s.trouble.copying = none → t.trouble.copying = some (s.trouble.counters, s.twist.step)) ∧
          (s.trouble.copying ≠ none → dropped)) ∧
        (kind = 5 → (s.mirror.op ≠ none → dropped ∧ t.mirror = s.mirror) ∧
          (s.mirror.op = none → s.pairsOk = true → t.mirror.op = some .flush ∧
            t.mirror.todo = s.ownTodo (·.flush) (!s.mirror.parity)) ∧
          (s.mirror.op = none → s.pairsOk = false → t.mirror.op = none ∧ t.mirror.opStatus = 4)) ∧
        (kind = 6 → (idle → t.arb.running = some ⟨.proofing a, .pricking i.toNat⟩) ∧
          ((∃ b src, s.arb.running = some ⟨.proofing b, src⟩ ∧ (b = a ∨ (b = 2 ∧ a < 2) ∨ (a = 2 ∧ b < 2))) → dropped)) ∧
        (kind = 7 → (idle → s.stageEmpty = false → t.arb.running = some ⟨.staged, .pricking i.toNat⟩) ∧
          (s.stageEmpty = true → (∀ src, s.arb.running ≠ some ⟨.staged, src⟩) →
            t.trouble.stage = [] ∧ t.arb = s.arb) ∧
          ((∃ src, s.arb.running = some ⟨.staged, src⟩) → dropped))) ∧
    (∀ w, s.takes w 14 = true →
      (s.trouble.copying = none → exec (.snap w) s = .next (s.settle
        { s with trouble := { s.trouble with copying := some (s.trouble.counters, s.twist.step) } })) ∧
      exec (.cntClear w) s = .next (s.settle
        { s with trouble := { s.trouble with counters := Vector.replicate 25 0 } })) ∧
    (∀ v st, s.trouble.copying = some (v, st) → ∃ t, exec .snapshotDone s = .next t ∧ t.trouble.snaps = v ∧
      t.trouble.snapStep = st ∧ t.trouble.snapGen = s.trouble.snapGen + 1 ∧ t.trouble.copying = none ∧
      (t.sticky 14).getLsbD 15 = true)

/-! ### Keys, rest and RESTITCH -/

/-- R375, R384 to R387, R273, R393 to R398: a key load makes its slot LIVE unless a first key would replace one; sealed
mode closes the TEST page, puts all of it back at its reset values and is never left while the session lasts; a rest
state is entered when nothing keeps the engine, or refused with its reason, REST3 with what zeroisation takes, and left
with what it loses reset and a roll call that was put off (logs 29, 35: the model's choices). -/
def Obligations.SealAndRest : Prop :=
  ∀ s : State,
    (s.up = true → ∀ (k : BitVec 2) key, ∃ t, exec (.keyLoad k key) s = .next t ∧
      (if k.toNat < 2 ∧ (s.key k.toNat).state ≠ .empty then t.keys = s.keys ∧ (t.sticky 13).getLsbD 0 = true
       else t.key k.toNat = ⟨.live, key, none⟩ ∧ ∀ j, j ≠ k.toNat → t.key j = s.key j)) ∧
    (s.up = true → s.canon = true → ∃ t, exec .sealedModeAssert s = .next t ∧
      t.keys = { s.keys with isSealed := true } ∧ t.testEnable = false ∧ t.testLocal = false ∧
      t.page 15 = PageHdr.reset 15 ∧
      ∀ o, o ∈ [0x040, 0x044, 0x048, 0x04C] → t.reg 15 o = 0) ∧
    (s.up = true → ∃ t, exec .unsealRefused s = .next t ∧ t.keys = s.keys ∧ (t.sticky 13).getLsbD 5 = true) ∧
    (∀ w (req : BitVec 2), s.takes w 0 = true → s.resetting = none → s.trouble.restitchBusy = false →
      let r := Rest.ofReq req
      let deeper := s.rest = .run ∨ s.rest.depth < r.depth
      ∃ t, exec (.restCtrl w req) s = .next t ∧
        (s.transit = none → r ≠ .run → deeper → s.restBlocked = 0 →
          t.transit = some r ∧ t.restRefused = 0 ∧ t.clock.pendings = [] ∧ t.clock.scrubs = [] ∧
          t.testEnable = false ∧ t.issue.dirLatch = none ∧
          (2 ≤ r.depth → ∀ k, k < 16 → (∀ y, s.issue.retry = some y → y.takes ≠ some (.slot k)) →
            t.net.slots[k]? = some none)) ∧
        (s.transit = none → r ≠ .run → deeper → s.restBlocked ≠ 0 →
          t.transit = none ∧ t.restRefused = BitVec.ofNat 4 s.restBlocked) ∧
        (s.transit = none → r ≠ .run → ¬ deeper → t.transit = none ∧ t.restRefused = 6) ∧
        (s.transit = none → r = .run → s.rest ≠ .run → t.transit = some .run) ∧
        (s.transit ≠ none → t.transit = s.transit ∧ t.restRefused = 7)) ∧
    (s.live = true →
      (∀ r, s.transit = some r → r ≠ .run → r ≠ .rest3 → exec .restTransitionDone s = .next (s.settle
        { s with rest := r, transit := none })) ∧
      (s.transit = some .rest3 → ∃ t, exec .restTransitionDone s = .next t ∧ t.rest = .rest3 ∧ t.transit = none ∧
        t.hoops = [] ∧ (∀ e ∈ t.ecc, e.target ≠ .hoop) ∧ t.keys = SealUnit.reset ∧ t.mirror.queue = [] ∧
        t.mirror.descs = [] ∧ t.mirror.rxHeld = [] ∧ t.net.outQ = [] ∧ ∀ k, k < 16 → t.net.slots[k]? = some none) ∧
      (s.transit = some .run → ∃ t, exec .restTransitionDone s = .next t ∧ t.rest = .run ∧ t.transit = none ∧
        t.issue.dirLatch = none ∧
        (s.rest ≠ .rest3 → s.partner.rollPending = true → s.partner.rollBusy = false →
          t.partner.rollBusy = true ∧ t.partner.coupling.accPortEn = false) ∧
        (s.rest = .rest1 → t.ctx = s.ctx ∧ t.hoops = s.hoops ∧ t.motif = s.motif) ∧
        (s.rest = .rest2 → t.ctx = Ctx.reset ∧ t.masks = masksReset ∧ t.hoops = s.hoops ∧ ∀ i, i < 16 →
          (t.mslot i).leafA = Leaf.reset ∧ (t.mslot i).leafB = Leaf.reset ∧ (t.mslot i).active = false ∧
            (t.mslot i).lostA = (s.mslot i).lostA ∧ (t.mslot i).lostB = (s.mslot i).lostB) ∧
        (s.rest = .rest3 → t.ctx = Ctx.reset ∧ t.hoops = [] ∧ t.lastReset = 3 ∧ t.partner = PartnerUnit.reset)))

/-- R113, R273, R330, R340, R341: a RESTITCH, by a pipe fault or by a write, stops issue and the run, ends the waits,
abandons the loads under way and closes the direct port; a bundle whose WAIT waits is discarded by a pipe fault, its SD
as it was and its index next again, and given its timeout's value by a requested one; a pipe fault with written-back
bundles younger than the oldest abandoned load is inexact; it completes once an aborted bundle and the running
structural activity have ended, and what that bundle's re-execution began is abandoned too, with the pricking starts
and the direction word that came meanwhile (logs 17, 18: the model's choices). -/
def Obligations.Restitching : Prop :=
  ∀ s : State, s.works = true →
    let done := s.issue.count - (if s.issue.wait = none then 0 else 1)
    (∀ c auto, s.trouble.restitchBusy = false →
      (c = .pipeFault ∧ auto = true ∨ ∃ w, s.takes w 14 = true ∧ c = .restitch w ∧ auto = false) →
      ∃ t, exec c s = .next t ∧ t.trouble.restitchBusy = true ∧ t.trouble.lastRestitch = (if auto then 2 else 1) ∧
        (auto = true → (t.sticky 14).getLsbD 5 = true ∧ t.issue.retry = none) ∧
        (auto = true → ∀ x xs, s.xfers.filter (fun x => x.op.isLoad && x.stream == .main) = x :: xs →
          x.count + 1 + (xs.filter fun y => y.count < done).length < done → (t.sticky 14).getLsbD 13 = true) ∧
        (auto = true → (∀ x xs, s.xfers.filter (fun x => x.op.isLoad && x.stream == .main) = x :: xs →
          done ≤ x.count + 1 + (xs.filter fun y => y.count < done).length) →
          (t.sticky 14).getLsbD 13 = (s.sticky 14).getLsbD 13) ∧
        (∀ v, s.issue.wait = some v → s.issue.retry = none →
          (auto = true → t.ctx = s.ctx ∧ t.issue.pc = s.issue.pc - 1 ∧ t.issue.count = done) ∧
          (auto = false → t.ctx = s.ctx.setS v.sd (if v.kind = .dir then BitVec.allOnes 64 else 1) ∧
            t.issue.count = s.issue.count)) ∧
        (auto = false → (t.sticky 14).getLsbD 13 = (s.sticky 14).getLsbD 13) ∧
        t.issue.running = false ∧ t.issue.wait = none ∧ t.issue.dirLatch = none ∧
        (s.issue.running = true → t.issue.reason = .restitch) ∧
        (∀ x, s.xfers.find? (fun x => x.op.isLoad && x.stream == .main) = some x → t.issue.stopPc = x.index) ∧
        t.xfers = s.xfers.filter (fun x => !x.op.isLoad) ∧ t.clock.pendings = [] ∧
        t.partner.coupling.accPortEn = false ∧ ∀ r, t.edging.run = some r → r.ended ≠ none ∧ r.wait = none) ∧
    (s.trouble.restitchBusy = true → s.issue.retry = none → s.arb.running = none →
      ∃ t, exec .restitchDone s = .next t ∧ t.trouble.restitchBusy = false ∧ t.issue.stop = none ∧
        t.issue.wait = none ∧ t.issue.dirLatch = none ∧ t.xfers = s.xfers.filter (fun x => !x.op.isLoad) ∧
        t.clock.pendings = [] ∧
        t.partner.coupling.accPortEn = false ∧
        ∀ q qs, s.arb.darns = [] → s.arb.queue = q :: qs → t.arb.running = some q) ∧
    (s.issue.retry ≠ none ∨ s.arb.running ≠ none → exec .restitchDone s = .next (s.settle s))

/-! ### Registers -/

/-- R12, R51, R73, R118, R243, R337, R424, R431, R432, R442, R455: the arrays behind ADDR and DATA. A read returns
the word that ADDR names, or zero where sealed mode hides it; a write that its page takes replaces that word alone,
one of a hoop word after the bundle that waits for its re-execution; with AUTOINC the index goes on. A read of the darn
log takes its head (logs 10, 12, 30: the model's choices). -/
def Obligations.ArrayAccess : Prop :=
  ∀ s : State, s.canon = true →
    let idx (p off width : Nat) : Nat := (s.reg p off).toNat % 2 ^ width
    let goes (p off size width : Nat) (t : State) : Prop := Steps size width (s.reg p off) (t.reg p off)
    let reads (c : Instr) (p off : Nat) (x : Word) (more : State → Prop) : Prop :=
      s.readable p off = true → ∃ t, exec c s = .next t ∧ t.mmioOut = some x ∧ more t
    let shown (x : Word) : Word := if s.keys.isSealed then 0 else x
    let h := bits (s.reg 3 0x040) 20 18
    let k := bits (s.reg 3 0x040) 16 12
    let n := bits (s.reg 3 0x040) 11 2
    let at_ := slabKey h (s.physSlab h k) + 4 * n
    let lf := s.reg 4 0x048
    let leaf := (s.mslot (bits lf 20 16)).leaf (lf.getLsbD 12)
    let goesHoop (t : State) : Prop :=
      if (s.reg 3 0x040).getLsbD 31 then
        (t.reg 3 0x040).getLsbD 31 = true ∧ bits (t.reg 3 0x040) 20 18 = h ∧
          bits (t.reg 3 0x040) 16 12 * 1024 + bits (t.reg 3 0x040) 11 2 =
            if k = 16 ∧ n = 1023 then 0 else (k * 1024 + n + 1) % 2 ^ 15
      else t.reg 3 0x040 = s.reg 3 0x040
    reads (.pstoreData .read) 1 0x054 (shown (s.pstore.get 0 (idx 1 0x050 14))) (goes 1 0x050 16384 14) ∧
    reads (.estoreData .read) 7 0x054 (shown (s.estore.get 0 (idx 7 0x050 11))) (goes 7 0x050 2048 11) ∧
    reads (.stageData .read) 14 0x070 (s.trouble.stage.get 0 (idx 14 0x06C 6)) (goes 14 0x06C 64 6) ∧
    reads .leafData 4 0x04C
      (if 15 < bits lf 20 16 ∨ leaf.state = .empty then 0 else shown (leaf.word (idx 4 0x048 12))) (goes 4 0x048 2192 12) ∧
    reads .ledgerData 7 0x074 (shown (((s.entry (idx 7 0x070 10 / 4)).words[idx 7 0x070 10 % 4]?).getD 0))
      (goes 7 0x070 1024 10) ∧
    reads .reachData 8 0x068 s.reachData (goes 8 0x064 640 10) ∧
    (∀ j : Nat, j < 32 → s.reachData.getLsbD j = (decide (idx 8 0x064 10 < 640) &&
      ((s.partner.reach.get 0 (idx 8 0x064 10)).getLsbD j || s.package.toNat == 32 * idx 8 0x064 10 + j))) ∧
    reads .darnLog 14 0x068 (s.trouble.darnLog.head?.getD 0) (fun t => t.trouble.darnLog = s.trouble.darnLog.tail) ∧
    reads (.hoopData .read) 3 0x044
      (if 5 < h ∨ 16 < k ∨ ∃ e ∈ s.ecc, e.target = .hoop ∧ e.word = (h * 17 + s.physSlab h k) * 512 + n / 2 ∧ e.hard = true
        then 0 else shown (BitVec.ofNat 32 (leNat (getBytes s.hoops at_ 4)))) goesHoop ∧
    (∀ w v, s.takes w 1 = true → s.isStopped = true → ∃ t, exec (.pstoreData (.write w v)) s = .next t ∧
      goes 1 0x050 16384 14 t ∧ ∀ i, t.pstore.get 0 i = if i = idx 1 0x050 14 then v else s.pstore.get 0 i) ∧
    (∀ w v, s.takes w 7 = true → s.anyArmed = false → s.rest ≠ .rest2 → s.transit = none →
      ∃ t, exec (.estoreData (.write w v)) s = .next t ∧ goes 7 0x050 2048 11 t ∧ t.edging.verdict = .none ∧
        ∀ i, t.estore.get 0 i = if i = idx 7 0x050 11 then v else s.estore.get 0 i) ∧
    (∀ w v, s.takes w 14 = true → (∀ src, s.arb.running ≠ some ⟨.staged, src⟩) →
      ∃ t, exec (.stageData (.write w v)) s = .next t ∧ goes 14 0x06C 64 6 t ∧
        ∀ i, t.trouble.stage.get 0 i = if i = idx 14 0x06C 6 then v &&& 0xFF00FFFF else s.trouble.stage.get 0 i) ∧
    ∀ w v, s.takes w 3 = true → s.keys.isSealed = false → h ≤ 5 → k ≤ 16 → s.hoopPresent h = true →
      (∀ cause src, s.arb.running ≠ some ⟨.spareIn h k cause, src⟩) →
      ∃ t, exec (.hoopData (.write w v)) s = .next t ∧ goesHoop t ∧
        (s.issue.retry = none → ∀ a, t.hoops.get 0 a =
          if at_ ≤ a ∧ a < at_ + 4 then BitVec.ofNat 8 (v.toNat / 256 ^ (a - at_)) else s.hoops.get 0 a) ∧
        (s.issue.retry ≠ none → t.hoops = s.hoops ∧ t.issue.held = s.issue.held ++ [.hoop h k n v])

/-- R52, R56, R68, R168, R169, R173, R174, R180, R230, R434 to R436: the lane, scale-slot and twist registers. VL and
ROWSHAPE are clamped to VLMAX, only while issue is stopped; a carry takes its value or its control, after the scan that
waits for its re-execution; a slot write reaches the slot that SLOT_SEL names, after the walk, clears what was staged,
and marks no duplicate where the slot held its key already; a live seed or the twist step changes only while nothing
runs, a staged seed at any time (log 30). -/
def Obligations.LaneAndTwistRegs : Prop :=
  ∀ (s : State) (w : Writer) (v : Word), s.canon = true →
    let m := s.vlmax s.ctx.ew
    let most := min (bits v 12 0) m
    (s.takes w 2 = true →
      (s.isStopped = true →
        (∃ t, exec (.vl w v) s = .next t ∧ t.ctx = { s.ctx with vl := most } ∧
          (m < bits v 12 0 → (t.sticky 2).getLsbD 0 = true)) ∧
        ∃ t, exec (.rowshape w v) s = .next t ∧ t.ctx = { s.ctx with rowshape := most } ∧
          (m < bits v 12 0 → (t.sticky 2).getLsbD 1 = true)) ∧
      (s.isStopped = false → ∀ c, c = Instr.vl w v ∨ c = .rowshape w v →
        ∃ t, exec c s = .next t ∧ t.ctx = s.ctx ∧ (t.sticky 2).getLsbD 3 = true) ∧
      ∀ (c : BitVec 2) (ctl : Bool),
        (s.issue.retry = none → ∃ t, exec (.cyValue w c ctl v) s = .next t ∧ ∀ k, k < 4 → t.carry k =
          if k = c.toNat then
            (if ctl then { s.carry k with valid := v.getLsbD 31, wide := v.getLsbD 0 } else { s.carry k with value := v })
          else s.carry k) ∧
        (s.issue.retry ≠ none → exec (.cyValue w c ctl v) s = .next (s.settle
          { s with issue := { s.issue with held := s.issue.held ++ [.carry c.toNat ctl v] } }))) ∧
    (let i := bits (s.reg 5 0x040) 10 0
     let x := s.slot i
     let writes (c : Instr) (p : ScaleSlot → Prop) : Prop := ∃ t, exec c s = .next t ∧ p (t.slot i) ∧
       (t.slot i).obs = 0 ∧ (t.slot i).used = false ∧ (t.slot i).ovf = false ∧ ∀ j, j ≠ i → t.slot j = s.slot j
     s.takes w 5 = true → s.works = true → i < 1024 →
       (s.scale.walkDue = [] → s.scale.walkBusy = false → s.issue.retry = none →
         (∀ e ∈ s.ecc, e.target = .scale → e.word / 2 ≠ i) →
         writes (.slotCtl w v) (fun y =>
           y.valid = v.getLsbD 15 ∧ y.key = v.extractLsb' 16 16 ∧ y.h = v.extractLsb' 11 3 ∧
           y.decay = v.extractLsb' 7 4 ∧
           (v.getLsbD 15 = true → x.valid = false →
             y.cold = true ∧ y.warmup = 0 ∧ y.est = 0 ∧ y.age = 0 ∧ y.boost = 0) ∧
           (v.getLsbD 15 = false ∨ x.valid = true → y.est = x.est ∧ y.boost = min 64 (bits v 6 0) ∧
             (v.getLsbD 14 = true → y.cold = true ∧ y.warmup = 0) ∧
             (v.getLsbD 14 = false → x.cold = true → x.pinned = false → y.cold = false ∧ y.age = 0))) ∧
         writes (.slotEst w v) (fun y => y.valid = x.valid ∧ y.key = x.key ∧
           y.est = if v.getLsbD 31 = true ∨ e10Value v.toNat = .nan then 0 else v) ∧
         writes (.slotAge w v) (fun y => y.valid = x.valid ∧ y.key = x.key ∧ y.age = bits v 31 16 ∧
           y.warmup = min (if x.pinned then 3 else 4) (bits v 15 13) ∧ y.lastk = v.extractLsb' 0 10) ∧
         ∀ c, c = Instr.slotEst w v ∨ c = .slotAge w v ∨
             (c = .slotCtl w v ∧ x.valid = true ∧ x.key = v.extractLsb' 16 16) →
           ∃ t, exec c s = .next t ∧ t.sticky 5 = s.sticky 5) ∧
       (s.scale.walkDue ≠ [] ∨ s.scale.walkBusy = true ∨ s.issue.retry ≠ none → ∀ r c,
         (r, c) ∈ [(SlotReg.ctl, Instr.slotCtl w v), (.est, .slotEst w v), (.age, .slotAge w v)] →
         exec c s = .next (s.settle { s with issue := { s.issue with held := s.issue.held ++ [.slot i r v] } }))) ∧
    (s.takes w 6 = true →
      let half (x : BitVec 64) (n : Nat) : Word := x.extractLsb' (32 * n) 32
      let live (x : TwistUnit) (n : Nat) : Word := half (if n < 2 then x.s0 else x.s1) (n % 2)
      let staged (x : TwistUnit) (n : Nat) : Word := half (if n < 2 then x.staged0 else x.staged1) (n % 2)
      (∀ k : BitVec 2, ∃ t, exec (.stagedSeedWrite w k v) s = .next t ∧ t.twist.pending = true ∧
        t.twist.step = s.twist.step ∧ ∀ n, n < 4 → live t.twist n = live s.twist n ∧
          staged t.twist n = if n = k.toNat then v else staged s.twist n) ∧
      (s.issue.running = false → s.edging.run = none →
        (∀ k : BitVec 2, ∃ t, exec (.liveSeedWrite w k v) s = .next t ∧ t.twist.step = s.twist.step ∧
          t.twist.pending = s.twist.pending ∧ ∀ n, n < 4 → staged t.twist n = staged s.twist n ∧
            live t.twist n = if n = k.toNat then v else live s.twist n) ∧
        ∀ hi : Bool, exec (.twistStepWrite w hi v) s = .next (s.settle { s with twist := { s.twist with
          step := if hi then v.truncate 16 ++ s.twist.step.truncate 32 else (s.twist.step >>> 32).truncate 16 ++ v } })) ∧
      (s.issue.running = true ∨ s.edging.run ≠ none → ∀ c,
        (∃ k, c = Instr.liveSeedWrite w k v) ∨ (∃ hi, c = .twistStepWrite w hi v) →
        exec c s = .next (s.settle (s.mark 6 0))))

/-- R242, R250, R299, R383, R437, R439, R440, R446: B_CTL disarms a binding, or arms one where none of the eight checks
fails and names the first that does, the lowest number that fails, conditions 4 and 5 judging held hoops in MODE 2
alone (both the model's reading, log 22); a bank's release takes effect at once where no run is active, else at the
first such point, emptying the bank; RX and the plan are written only in a closed step with every arrival slot free,
and a plan with no valid entry is at its end. -/
def Obligations.EdgingAndNetRegs : Prop :=
  ∀ (s : State) (w : Writer) (v : Word), s.canon = true →
    (∀ b : BitVec 3, s.takes w 7 = true →
      let c := v &&& 0xFF7FFFFF
      let off := 0x100 + 64 * b.toNat
      (v.getLsbD 31 = false → exec (.bCtl w b v) s = .next (s.settle (s.setReg 7 off c))) ∧
      (v.getLsbD 31 = true → s.armed b.toNat = true →
        exec (.bCtl w b v) s = .next (s.settle (s.mark 7 12))) ∧
      (v.getLsbD 31 = true → s.armed b.toNat = false →
        let prog := s.bindWord b.toNat 1
        let tap := s.bindWord b.toNat 2
        let row := bits (s.bindWord b.toNat 3) 20 0
        let mode := bits c 27 26
        let bundles : List (List Bundle) := [(bits prog 31 24, bits prog 22 16), (bits prog 15 8, bits prog 6 0)].map
          fun p => (List.range p.2).map fun i => Bundle.ofStore s.estore (p.1 + i)
        let out (e : Bundle) : Bool := e.v1.major == 14 || e.s.major == 0x1C || e.s.major == 0x1D || e.s.major == 0x1E ||
          (e.s.major == 0x1A && bits (e.s.imm.zeroExtend 32) 10 8 == 2)
        let heavy (e : Bundle) : Bool := [1, 2, 6, 12, 13].contains e.v1.major.toNat
        let hold := (List.range 6).filter fun h => tap.getLsbD (8 + h)
        let other (h : Nat) : Prop := ∃ j, j < 8 ∧ j ≠ b.toNat ∧ s.armed j = true ∧ (s.bindWord j 2).getLsbD (8 + h) = true
        let fails (n : Nat) : Prop :=
          match n with
          | 1 => bits prog 22 16 = 0 ∨ 64 < bits prog 22 16 ∨ 256 < bits prog 31 24 + bits prog 22 16 ∨
              64 < bits prog 6 0 ∨ (bits prog 6 0 ≠ 0 ∧ 256 < bits prog 15 8 + bits prog 6 0)
          | 2 => ∃ p ∈ bundles, ∃ e ∈ p, out e = true
          | 3 => ∃ p ∈ bundles, 1 < (p.filter heavy).length
          | 4 => (mode = 2 ∧ (hold = [] ∨ 4 < hold.length ∨ ∃ h ∈ hold, s.hoopPresent h = false)) ∨
              (s.net.rxEn = true ∧ s.net.rxHoop.toNat ∈ hold)
          | 5 => mode = 2 ∧ ((∃ h ∈ hold, other h) ∨ other (bits tap 18 16))
          | 6 => mode ≠ 0 ∧ (row < 128 ∨ 1048576 < row ∨ row % 128 ≠ 0)
          | 7 => 1 < bits c 29 28 ∨ mode = 3 ∨ 8 < bits tap 23 20 ∨ 5 < bits tap 30 28 ∨ 5 < bits tap 18 16 ∨
              5 < bits tap 6 4 ∨ tap.getLsbD 7 = true
          | 8 => s.edging.verdict ≠ .favourable
          | _ => False
        ∃ t why, exec (.bCtl w b v) s = .next t ∧
          (why = 0 ↔ ∀ n, ¬ fails n) ∧ (why ≠ 0 → fails why ∧ ∀ n, n < why → ¬ fails n) ∧
          (why = 0 → t.bindWord b.toNat 0 = c ∧ t.armed b.toNat = true ∧
            (t.bindRep b.toNat).status = .noRun ∧ s.edging.verdict = .favourable ∧
            t.edging.armReason = s.edging.armReason) ∧
          (why ≠ 0 → t.bindWord b.toNat 0 = c &&& 0x7FFFFFFF ∧ t.armed b.toNat = false ∧
            t.edging.armReason = why ∧ t.edging.armBinding = b.toNat))) ∧
    (∀ k : BitVec 1, s.takes w 7 = true →
      s.edging.run ≠ none →
      exec (.release w k) s = .next (s.settle (s.setBank k.toNat { s.bank k.toNat with releaseDue := true }))) ∧
    (∀ (k : BitVec 1) c, s.edging.run = none →
      c = .release w k ∧ s.takes w 7 = true ∨ c = .ledgerRelease k ∧ (s.bank k.toNat).releaseDue = true →
      ∃ t, exec c s = .next t ∧
        t.bank k.toNat =
          { s.bank k.toNat with occ := false, long := false, cols := 0, releaseDue := false } ∧
        (∀ j, j ≠ k.toNat → t.bank j = s.bank j) ∧
        ∀ n, t.entry n = if n / 128 = k.toNat then LedgerEntry.reset else s.entry n) ∧
    (s.takes w 9 = true →
      (s.stepOpen = false → s.arrivals = [] →
        (let h := bits v 2 0
         let bad : Prop := 5 < h ∨ s.hoopPresent h = false ∨
           ∃ b, b < 8 ∧ s.armed b = true ∧ (s.bindWord b 2).getLsbD (8 + h) = true
         ∃ t, exec (.rx w v) s = .next t ∧ t.net.rxHoop.toNat = h ∧
           (t.net.rxEn = true ↔ v.getLsbD 31 = true ∧ ¬ bad) ∧
           (v.getLsbD 31 = true → (t.net.rxRefused = true ↔ bad)) ∧
           (v.getLsbD 31 = false → t.net.rxRefused = s.net.rxRefused)) ∧
        ∀ i : BitVec 6, ∃ t, exec (.planSrc w i v) s = .next t ∧
          t.reg 9 (0x200 + 8 * i.toNat) =
            (if bits (s.reg 9 (0x204 + 8 * i.toNat)) 31 16 = 0 then v &&& 0x003FFFFF else v &&& 0x803FFFFF) ∧
          (∀ o, o < 4096 → o ≠ 0x200 + 8 * i.toNat → t.reg 9 o = s.reg 9 o) ∧
          ((∀ j, j < 64 → (t.plan j).valid = false) →
            t.net.planNext = 0 ∧ t.net.released = 0 ∧ t.net.planEnd = true)) ∧
      (s.stepOpen = true ∨ s.arrivals ≠ [] → ∀ c, c = Instr.rx w v ∨ (∃ i, c = .planSrc w i v) →
        exec c s = .next (s.settle (s.mark 9 7))))

/-- R343, R347, R352, R353, R357, R358, R379, R447 to R449: a rejoin opens its step as a STEP_OPEN would, with the
guard frozen clear, and leaves the record of the last mark as it is (log 28: the model's choice); flush, base copy and
restore start, or end at once with the status of the condition that fails; a fold is requested of the stale half;
nothing starts beside a running operation; a region entry takes its ROLE unless a rule of the tables forbids it. What a
fold request names and when an operation is refused is the model's reading (log 26). -/
def Obligations.MirrorRegs : Prop :=
  ∀ (s : State) (w : Writer), s.takes w 10 = true → s.works = true → s.canon = true →
    let refused (c : Instr) (op : MirrorOp) (n : Nat) : Prop := ∃ t, exec c s = .next t ∧ t.mirror.op = none ∧
      t.mirror.opLast = some op ∧ t.mirror.opStatus = n ∧ (t.sticky 10).getLsbD 0 = true
    let started (c : Instr) (op : MirrorOp) (todo : List RegionTodo) : Prop := ∃ t, exec c s = .next t ∧
      t.mirror.op = some op ∧ t.mirror.todo = todo ∧ t.mirror.sent = 0 ∧ t.mirror.opLast = some op ∧
      t.mirror.opStatus = 0
    let key : Bool := s.restartMseq.mirrorKeyOk
    (s.stepOpen = true ∨ s.issue.running = true → exec (.rejoin w) s = .next (s.settle (s.mark 10 5))) ∧
    (s.stepOpen = false → s.issue.running = false → ∃ t, exec (.rejoin w) s = .next t ∧
      t.clock.isOpen = true ∧ t.clock.phase = 4 ∧ t.clock.frozenGuard = some false ∧ t.trouble.guardBit = false ∧
      t.twist.step = s.rejoinStep ∧ t.net.rcount = 0 ∧ t.clock.lastStep = s.clock.lastStep) ∧
    (s.mirrorBusy = true → ∀ c ∈ [Instr.foldRequest w, .restore w, .basecopy w, .flush w],
      exec c s = .next (s.settle (s.mark 10 1))) ∧
    (s.mirrorBusy = false →
      (∃ t, exec (.foldRequest w) s = .next t ∧
        match s.staleHalf with
        | some p => t.half p = { s.half p with state := .folding } ∧ t.mirror.opLast = some .fold
        | none => t.mirror = s.mirror) ∧
      (s.pairsOk = false → refused (.flush w) .flush 4) ∧
      (s.pairsOk = true → started (.flush w) .flush (s.ownTodo (·.flush) (!s.mirror.parity))) ∧
      (s.stepOpen = true → refused (.basecopy w) .baseCopy 5) ∧
      (s.stepOpen = false → s.pairsOk = false → refused (.basecopy w) .baseCopy 4) ∧
      (s.stepOpen = false → s.pairsOk = true → key = false → refused (.basecopy w) .baseCopy 3) ∧
      (s.stepOpen = false → s.pairsOk = true → key = true →
        started (.basecopy w) .baseCopy (s.ownTodo (·.inbase) s.mirror.parity)) ∧
      (s.mirror.image ≠ .valid → refused (.restore w) .restore 2) ∧
      (s.mirror.image = .valid → s.pairsOk = false → refused (.restore w) .restore 4) ∧
      (s.mirror.image = .valid → s.pairsOk = true → key = false → refused (.restore w) .restore 3) ∧
      (s.mirror.image = .valid → s.pairsOk = true → key = true → started (.restore w) .restore s.restoreTodo)) ∧
    (∀ (img : Bool) (i : BitVec 4) (v : Word), s.stepOpen = false → s.mirrorBusy = false →
      let c := v &&& (if img then 0xF000FFFF else 0xF007FFFF)
      let off := regionOff img i.toNat
      let role := bits v 31 28
      let why : Nat :=
        if role = 0 then 0
        else if 6 < role then 1
        else if img = true ∧ role = 5 then 2
        else if img = true ∧ role = 4 ∧ ((List.range 16).any fun j => j != i.toNat && (s.region true j).role == 4) then 3
        else if bits (s.reg 10 off) 5 0 ≠ 0 ∨ bits (s.reg 10 (off + 8)) 5 0 ≠ 0 then 4
        else 0
      ∃ t, exec (.rCtl w img i v) s = .next t ∧
        t.reg 10 (off + 4) = (if why = 0 then c else c &&& 0x0FFFFFFF) ∧
        t.mirror.regReport = (if why = 0 then s.mirror.regReport
          else BitVec.ofNat 32 (2 ^ 12 + (if img then 2 ^ 11 else 0) + i.toNat * 2 ^ 7 + why * 2 ^ 4)) ∧
        ∀ o, o < 4096 → o ≠ off + 4 → t.reg 10 o = s.reg 10 o) ∧
    ∀ img i v, s.stepOpen = true ∨ s.mirrorBusy = true →
      exec (.rCtl w img i v) s = .next (s.settle (s.mark 10 6))

/-- R306, R318, R322, R335, R338, R370, R451, R455 to R457: a pricking entry is written, its pending start cancelled,
and loses VALID with its reason where a field is out of range; a proofing starts, waits, or is refused; GUARD_SET
raises the guard, or only its late bit once it is frozen; DARN_APPLY applies the stage only while nothing runs. The TEST
page opens while issue is stopped and sealed mode is not in force; while ENABLE is clear every other write to it, and one
that sets ENABLE against these conditions, is ignored and sets STORE_BUSY; while ENABLE is set its functions act. That
a write of ENABLE keeps LOCAL and one of LOCAL or INJ_GO keeps ENABLE, that ENABLE may be written again at any time, and
that clearing it clears LOCAL are the model's choices (log 31), and so is that an injection goes behind an earlier held
write to its word (R461; log 30); so is what a local frame leaves in LAST_SEQ's place when
it is not applied (log 28). -/
def Obligations.ServiceRegs : Prop :=
  ∀ (s : State) (w : Writer) (v : Word), s.canon = true →
    (∀ e : BitVec 6, s.takes w 11 = true →
      let c := v &&& 0xAFFFFFFF
      let off := 0x400 + 16 * e.toNat
      let why := entryReason c (s.reg 11 (off + 4)) (s.reg 11 (off + 8))
      ∃ t, exec (.entryCtl w e v) s = .next t ∧ (∀ p ∈ t.clock.pendings, p.entry ≠ e.toNat) ∧
        t.reg 11 off = (if v.getLsbD 31 = true ∧ why ≠ 0 then c &&& 0x7FFFFFFF else c) ∧
        (v.getLsbD 31 = true → why ≠ 0 → t.clock.refused = BitVec.ofNat 32 (2 ^ 31 + e.toNat * 2 ^ 16 + why))) ∧
    (∀ a : BitVec 2, s.takes w 12 = true →
      let x : Start := ⟨.proofing a.toNat, .mmio⟩
      let idle : Prop := s.arb.running = none ∧ s.arb.queue = [] ∧ s.arb.darns = []
      (s.works = false → exec (.proof w a) s = .next (s.settle (s.mark 12 2))) ∧
      (s.works = true → idle → exec (.proof w a) s = .next (s.settle { s with arb := { s.arb with running := some x } })) ∧
      (s.works = true → ¬ idle → s.arb.queue.length < 4 →
        exec (.proof w a) s = .next (s.settle { s with arb := { s.arb with queue := s.arb.queue ++ [x] } })) ∧
      (s.works = true → ¬ idle → 4 ≤ s.arb.queue.length → ∃ t, exec (.proof w a) s = .next t ∧ t.arb = s.arb ∧
        (t.sticky 12).getLsbD 0 = true ∧ t.counter .refused = min (s.counter .refused + 1) (2 ^ 32 - 1))) ∧
    (s.takes w 14 = true →
      (s.clock.frozenGuard ≠ none → exec (.guardSet w) s = .next (s.settle (s.mark 14 9))) ∧
      (s.clock.frozenGuard = none → ∃ t, exec (.guardSet w) s = .next t ∧ t.trouble.guardBit = true ∧
        (s.trouble.guardBit = false → (t.sticky 14).getLsbD 6 = true)) ∧
      (s.issue.running = true ∨ s.edging.run ≠ none ∨ s.works = false → exec (.darnApply w) s = .next (s.settle
        { s with trouble := { s.trouble with applyIgnored := true } })) ∧
      (s.issue.running = false → s.edging.run = none → s.works = true →
        ∃ t, exec (.darnApply w) s = .next t ∧ t.trouble.applyIgnored = false ∧
          (s.stageEmpty = true → t.trouble.stage = [] ∧ t.arb = s.arb) ∧
          (s.stageEmpty = false → s.arb.running = none → s.arb.queue = [] → s.arb.darns = [] →
            t.arb.running = some ⟨.staged, .mmio⟩))) ∧
    (s.takes w 15 = true →
      let busy (c : Instr) : Prop := exec c s = .next (s.settle (s.mark 15 2))
      (s.testEnable = false →
        (∀ b, busy (.localMarks w b)) ∧ busy (.injGo w) ∧ busy (.injLane w v) ∧ busy (.localMarkHi w v) ∧
        busy (.enable w false) ∧ (s.keys.isSealed = true ∨ s.isStopped = false → busy (.enable w true)) ∧
        (s.keys.isSealed = false → s.isStopped = true →
          exec (.enable w true) s = .next (s.settle { s with testEnable := true }))) ∧
      (s.testEnable = true →
        exec (.enable w true) s = .next (s.settle s) ∧
        (∃ t, exec (.enable w false) s = .next t ∧ t.testEnable = false ∧ t.testLocal = false ∧
          t.ecc = s.ecc ∧ t.issue = s.issue ∧ t.reg 15 0x040 = s.reg 15 0x040) ∧
        (∀ b, ∃ t, exec (.localMarks w b) s = .next t ∧ t.testLocal = b ∧ t.testEnable = true ∧
          t.clock = { s.clock with expSeq := if b = s.testLocal then s.clock.expSeq else none }) ∧
        (∃ t, exec (.injLane w v) s = .next t ∧ t.reg 15 0x040 = v &&& 0x831F000F ∧
          ∀ p o, p < 16 → o < 4096 → (p, o) ≠ (15, 0x040) → t.reg p o = s.reg p o) ∧
        (∃ t, exec (.localMarkHi w v) s = .next t ∧ (s.testLocal = false → t.clock = s.clock) ∧
          (s.testLocal = true → t.clock.quiet = false ∧ t.clock.seqSeen = s.clock.seqSeen + 1 ∧
            t.clock.expSeq = some (s.clock.seqSeen + 2) ∧
            (s.clock.expSeq = none → t.counter .markLost = s.counter .markLost) ∧
            (s.works = false → (t.sticky 11).getLsbD 7 = true ∧ t.clock.phase = s.clock.phase) ∧
            (s.works = true → bits v 19 16 = 7 →
              t.clock.phase = 7 ∧ t.clock.lastSeq = s.clock.seqSeen + 1 ∧
              t.clock.lastStep = v.truncate 16 ++ s.reg 15 0x04C))) ∧
        (let a := s.reg 15 0x044
         let b := s.reg 15 0x048
         let i := bits b 6 0
         let j := bits b 14 8
         let h := bits a 20 18
         let k := bits a 16 12
         let lostLeaf (n : Nat) : Bool := (s.mslot (n / 2192)).lost (n / 1096 % 2 == 1)
         let place (tg : EccTarget) (n : Nat) : Prop := if bits a 31 28 = 0 then
             tg = .hoop ∧ h ≤ 5 ∧ k ≤ 16 ∧ s.hoopPresent h = true ∧
               n = (h * 17 + s.physSlab h k) * 512 + bits a 11 3
           else injWord a = some (tg, n) ∧ tg ≠ .hoop ∧ (tg = .leaf → lostLeaf n = false)
         (4 < bits a 31 28 ∨ (bits a 31 28 = 0 ∧ (5 < h ∨ 16 < k ∨ s.hoopPresent h = false)) ∨ injWord a = none ∨
             (∃ n, injWord a = some (.leaf, n) ∧ lostLeaf n = true) ∨
             71 < i ∨ (b.getLsbD 15 = true ∧ 71 < j) → exec (.injGo w) s = .next (s.settle (s.mark 15 1))) ∧
         ∀ tg n, place tg n → i ≤ 71 → (b.getLsbD 15 = true → j ≤ 71) →
           (∀ e ∈ s.ecc, ¬ (e.target = tg ∧ e.word = n)) →
           (∀ x v, HeldWrite.hoop h k x v ∈ s.issue.held → tg = .hoop → x / 2 = bits a 11 3 → ∃ m : BitVec 72,
             exec (.injGo w) s = .next (s.settle { s with issue := { s.issue with
               held := s.issue.held ++ [.inject .hoop ((h * 17 + k) * 512 + bits a 11 3) m] } }) ∧
             ∀ c, c < 72 → m.getLsbD c = (decide (c = i) ^^ (b.getLsbD 15 && decide (c = j)))) ∧
           (s.issue.held = [] → b.getLsbD 15 = true → i = j → ∃ t, exec (.injGo w) s = .next t ∧ t.ecc = s.ecc) ∧
           (s.issue.held = [] → (b.getLsbD 15 = true → i ≠ j) →
             ∃ t x, exec (.injGo w) s = .next t ∧ t.ecc = s.ecc ++ [⟨tg, n, x⟩] ∧
               ∀ k, k < 72 → x.getLsbD k = decide (k = i ∨ (b.getLsbD 15 = true ∧ k = j))))))

/-- R10, R12, R392, R397, R401, R412, R422: a write that is not one of an aligned 32-bit word, or to a page that does
not answer, changes nothing, and such a read returns zero and captures nothing; WRITER refuses the writers that it
shuts out, and only the host writes PAGE_LOCK; a plain register takes its assigned bits, a sticky bit is cleared by
writing 1, forced enables stay set. A read of a low word captures the high word, which the next read of that returns; a
page that does not answer reads 0 (logs 12, 30: the model's choices). -/
def Obligations.PageAccess : Prop :=
  ∀ (s : State) (w : Writer) (page : BitVec 4) (off : BitVec 12) (v : Word), s.canon = true →
    let p := page.toNat
    let o := off.toNat
    let h := s.page p
    let c := Instr.registerWrite w page off .word v
    let keeps (x : Instr) : Prop := exec x s = .next (s.settle s)
    let zero (x : Instr) : Prop := exec x s = .next (s.settle { s with mmioOut := some 0 })
    (keeps (.registerWrite w page off .other v) ∧ zero (.registerPairRead page ⟨off, .other⟩)) ∧
    (o % 4 ≠ 0 → keeps c ∧ zero (.registerPairRead page ⟨off, .word⟩)) ∧
    (s.answers p = false → keeps c ∧ zero (.registerPairRead page ⟨off, .word⟩)) ∧
    (s.answers p = true → s.admits w p = false → o % 4 = 0 → o ≠ 0x01C →
      exec c s = .next (s.settle (s.setPage p { h with refused := true }))) ∧
    (w ≠ .host → keeps (.pageLock w page v) ∧ (o = 0x01C → keeps c)) ∧
    (s.answers p = true → ∀ x, x = Instr.pageLock .host page v ∨ (w = .host ∧ o = 0x01C ∧ x = c) →
      exec x s = .next (s.settle (s.setPage p { h with
        refused := h.refused && !v.getLsbD 16
        writer := if bits v 1 0 = 3 then h.writer else v.truncate 2 }))) ∧
    (s.takes w p = true →
      (o = 0x010 → exec c s = .next (s.settle (s.setPage p { h with sticky := h.sticky &&& ~~~ v }))) ∧
      (o = 0x014 → exec c s = .next (s.settle (s.setPage p { h with en := (v &&& stickyMask p) ||| forcedEn p }))) ∧
      (∀ m, plainMask p o = some m → o % 4 = 0 → 0x040 ≤ o → ∃ t, exec c s = .next t ∧ t.reg p o = v &&& m ∧
        ∀ q x, q < 16 → x < 4096 → (q, x) ≠ (p, o) → t.reg q x = s.reg q x)) ∧
    (s.answers p = true → o % 4 = 0 → s.readHeld p o = false →
      (∀ x, h.capture = some (o, x) → exec (.registerPairRead page ⟨off, .word⟩) s = .next (s.settle
        { s.setPage p { h with capture := none } with mmioOut := some x })) ∧
      (isLow p o = true → h.capture.map (·.1) ≠ some o → exec (.registerPairRead page ⟨off, .word⟩) s = .next (s.settle
        { s.setPage p { h with capture := some (o + 4, s.peek p (o + 4)) } with mmioOut := some (s.peek p o) })))

/-! ### Bundles that do not execute -/

/-- R38, R44, R72, R112, R216, R244, R251, R298, R325: the bundle at a stream's position that is fetched with an error
that cannot be corrected, is illegal, or names an absent hoop, one of the main program that names a lent hoop or the
port's, and one that reads an uncorrectable word of a hoop that an active element needs, or of the leaf that it
evaluates, does not execute: issue stops there with its reason and sticky bit, a run aborts. One that must wait leaves
everything as it is, and so does one that its stream does not offer, the main program's while the run has a bundle
ready (logs 3, 10: the model's choices). -/
def Obligations.RefusedBundles : Prop :=
  ∀ (c : Instr) (row : Row) (i : Issue) (s : State), c.row = some (row, i) → c.wf = true →
    let halts (why : StopReason) (page bit : Nat) (run : RunStatus) : Prop :=
      ∃ t, exec c s = .next t ∧ t.hoops = s.hoops ∧ t.fabric = s.fabric ∧ t.xfers = s.xfers ∧
        match i.stream with
        | .main => t.issue = { s.issue with stop := some why, stopPc := s.issue.pc } ∧ (t.sticky page).getLsbD bit = true
        | .edge => ∃ r, s.edging.run = some r ∧ t.edging.run = some { r with ended := some run, abortAt := r.pc }
    let legal := s.legalHere i.stream i.bundle
    let there : Prop := ∀ h ∈ s.namedHoops i, s.hoopPresent h = true
    let lent : Prop := ∃ h ∈ s.namedHoops i, s.lentHoop h = true
    let rx : Prop := s.net.rxEn = true ∧ s.net.rxHoop.toNat ∈ s.namedHoops i
    (s.canOffer i.stream = false ∨ s.fetched i.stream ≠ i.bundle → exec c s = .next (s.settle s)) ∧
    (s.canOffer i.stream = true → s.fetched i.stream = i.bundle →
    ((∃ e ∈ s.fetchErrs i.stream, e.hard = true) → halts .progUe 1 4 .stopped) ∧
    (s.fetchErrs i.stream = [] →
      (legal = false → halts .illegal 1 0 .illegal) ∧
      (legal = true → ¬ there → halts .hoopGone 1 1 .hoopGone) ∧
      (legal = true → there → i.stream = .main → lent → halts .edgeLent 1 2 .illegal) ∧
      (legal = true → there → i.stream = .main → ¬ lent → rx → halts .netLent 1 3 .illegal) ∧
      (legal = true → there → (i.stream = .main → ¬ lent ∧ ¬ rx) →
        (s.mustWait (s.env i) .normal = true → exec c s = .next (s.settle s)) ∧
        (s.mustWait (s.env i) .normal = false →
          i.stream = .main ∨ (i.bundle.m.major ≠ 5 ∧ i.bundle.m.major ≠ 8) →
          let needed : Prop := ∃ p ∈ (s.env i).readErrs, p.1.hard = true ∧ p.2 = true
          (needed → halts .hoopUe 14 4 .stopped) ∧
          (¬ needed → (∃ x ∈ (s.env i).leafErrs, x.hard = true) → halts .leafUe 4 4 .stopped)))))

/-! ### Numbers -/

/-- R120, R142, R143, R160: rounding the value of a code of a format to that format gives the code back and raises
nothing; rounding to a floating-point format gives a finite code from every value but NaN. -/
def Obligations.RoundedCodes : Prop :=
  (∀ (f : Fmt) (m : Rnd) (code : Nat) (neg : Bool) (mag : Nat) (exp : Int), f.isMx = false →
    code < 2 ^ (8 * f.bytes) → f.value code = .fin neg mag exp → f.round (f.value code) m = .pure code) ∧
  ∀ (f : Fmt) (m : Rnd) (x : Sys2Proof.Machine.Num), f.isFloat = true →
    (x = .nan → (f.round x m).val = f.nanCode ∧ f.value f.nanCode = .nan ∧ (f.round x m).r = Raises.invalid) ∧
    (x ≠ .nan → ∃ neg mag exp, f.value (f.round x m).val = .fin neg mag exp ∧ (f.round x m).r.nv = false)

/-! ### What every state keeps -/

/-- The state after reset (R47, R393) holds its sparse arrays in canonical form and its lengths within VLMAX. The form
(log 36) and the values that the rules leave open (logs 5, 6, 11, 13, 43) are the model's choices. -/
def Obligations.ResetHoldsBounds : Prop := State.reset.canon = true ∧ State.reset.bounded

/-- Every step keeps the sparse arrays in canonical form: rising indices, no entry equal to what an unlisted
index reads as. The form is the model's choice (log 36): no rule speaks of it. -/
def Obligations.StepKeepsMemory : Prop :=
  ∀ s t : State, s.canon = true → step s = .next t → t.canon = true

/-- R31, R42, R52, R56: no step brings the active panels above sixteen, and outside a reset, while no aborted bundle
waits, every step leaves VL and ROWSHAPE of both streams within VLMAX. The moment at which lengths above a fallen VLMAX
are clamped is the model's choice (log 16). -/
def Obligations.StepKeepsBounds : Prop := ∀ s t : State, s.bounded → step s = .next t → t.bounded

/-- Which commands can change what, for every command (`Instr.runs`, a bundle that may execute; `Instr.ends`, the
power-ons and the ends of a reset or a transition; `Instr.writesPage`, a write by address: all in WellFormed). None
changes the queue or the engine's identity. Beside a write by address (and, but for fabric memory, an end): fabric
memory is changed by transfers, step openings and mirror records alone, since a transfer takes its effect when it
completes (log 7) and a record when it is taken (logs 26, 27); the hoops by bundles, transfers, spare-ins, a run's end
and their own DATA register; the stores, masks, carries, seeds and step each by the commands that its clause names;
panels by darning, by proofing and by the aborted bundle's failures and its boundary (R330, R334; log 16). A held write
is made when the aborted bundle is over or the walk ends (log 30). Beside a write by address, only GO starts issue
(R110) and only ENABLE opens the TEST page (R457). Only an end ends sealed mode (R384). The moments of these effects
are the model's choices. -/
def Obligations.ExecKeepsOthers : Prop :=
  ∀ (c : Instr) (s t : State), exec c s = .next t →
    let only (p : Prop) : Prop := p ∨ c.writesPage = true ∨ c.ends = true
    let opens : Prop := (∃ f, c = .stepOpen f) ∨ (∃ w, c = .rejoin w) ∨ ∃ w v, c = .localMarkHi w v
    let moves : Prop := c = .fabricTransferDone ∨ (∃ n, c = .fabricTimeout n) ∨ ∃ r, c = .recordVerified r
    let settled : Prop := c = .retryReexecute ∨ (∃ i e h, c = .laneError i e h) ∨ c = .edgingOverrun ∨ c = .pipeFault
    t.pending = s.pending ∧ t.wz = s.wz ∧ t.package = s.package ∧
    (t.fabric ≠ s.fabric → moves ∨ opens ∨ c.writesPage = true ∨ c = .mirrorLogWriteDone ∨ c = .mirrorFoldDone) ∧
    (t.hoops ≠ s.hoops → only (c.runs = true ∨ moves ∨ settled ∨ c = .commitWalkEnd ∨ c = .edgingRunEnd ∨
      c = .slabSpareInDone ∨ c = .stagedDarningDone ∨ ∃ a, c = .hoopData a)) ∧
    (t.pstore ≠ s.pstore → only (∃ a, c = .pstoreData a)) ∧ (t.estore ≠ s.estore → only (∃ a, c = .estoreData a)) ∧
    (t.masks ≠ s.masks → only (c.runs = true)) ∧
    (t.carries ≠ s.carries → only (c.runs = true ∨ settled ∨ c = .commitWalkEnd ∨ ∃ w k x v, c = .cyValue w k x v)) ∧
    (t.twist ≠ s.twist → only (opens ∨ (∃ w k v, c = .liveSeedWrite w k v ∨ c = .stagedSeedWrite w k v) ∨
      ∃ w h v, c = .twistStepWrite w h v)) ∧
    (t.panels ≠ s.panels ∨ t.panelMap ≠ s.panelMap → only ((∃ a b, c = .darningDone a b) ∨
      (∃ a b n, c = .proofingDone a b n) ∨ c = .stagedDarningDone ∨ settled)) ∧
    (s.issue.running = false → t.issue.running = true → c.writesPage = true ∨ ∃ w, c = .go w) ∧
    (s.testEnable = false → t.testEnable = true → c.writesPage = true ∨ ∃ w v, c = .enable w v) ∧
    (s.keys.isSealed = true → t.keys.isSealed = false → c.ends = true)

/-- R79, R82: the four slots stand at their positions in the bundle, and a bundle laid out in the eight words of its
place in a store, lowest first, is read back as that bundle, every field at every value. -/
def Obligations.StoredBundle : Prop :=
  ∀ b : Bundle,
    (∀ k, (k < 96 → b.encode.getLsbD (160 + k) = b.v0.encode.getLsbD k) ∧
      (k < 64 → b.encode.getLsbD (96 + k) = b.v1.encode.getLsbD k) ∧
      (k < 64 → b.encode.getLsbD (32 + k) = b.m.encode.getLsbD k) ∧
      (k < 32 → b.encode.getLsbD k = b.s.encode.getLsbD k)) ∧
    ∀ (store : SMap Word) (i : Nat),
      (∀ k, k < 8 → store.get 0 (8 * i + k) = b.encode.extractLsb' (32 * k) 32) → Bundle.ofStore store i = b
end

