-- ==== Sys2Proof/Laws/Lane.lean ====
section
/-!
SUPPORT. What the vector slots can change: nothing outside `State.offLane`.
-/

namespace Sys2Proof.Machine

theorem vector_map_set_same {α β : Type} {n : Nat} (v : Vector α n) (i : Nat) (x : α) (f : α → β)
    (d : α) (h : f x = f (v[i]?.getD d)) : (v.setIfInBounds i x).map f = v.map f := by
  ext j hj
  simp only [Vector.getElem_map, Vector.getElem_setIfInBounds]
  split
  · next e => subst e; simp [hj] at h; exact h
  · rfl

@[simp] theorem State.mark_offLane (s : State) (p b : Nat) : (s.mark p b).offLane = s.offLane := by
  simp only [State.mark, State.setPage, State.offLane]
  rw [vector_map_set_same (d := PageHdr.reset p)]
  rfl

@[simp] theorem State.markIf_offLane (s : State) (c : Bool) (p b : Nat) : (s.markIf c p b).offLane = s.offLane := by
  unfold State.markIf; split <;> simp

@[simp] theorem State.bump_offLane (s : State) (c : Ctr) (n : Nat) : (s.bump c n).offLane = s.offLane := by
  unfold State.bump; split
  · rfl
  · simp only [State.markIf_offLane]; rfl

@[simp] theorem State.guardRaise_offLane (s : State) : s.guardRaise.offLane = s.offLane := by
  unfold State.guardRaise; split
  · simp
  · split
    · rfl
    · simp only [State.mark_offLane]; rfl

@[simp] theorem State.raise_offLane (s : State) (k : Nat) (r : Raises) : (s.raise k r).offLane = s.offLane := by
  unfold State.raise
  dsimp only
  split
  · simp only [State.guardRaise_offLane, State.bump_offLane]; rfl
  · simp only [State.bump_offLane]; rfl

@[simp] theorem State.setMask_offLane (s : State) (k : Nat) (m : BitVec 4096) :
    (s.setMask k m).offLane = s.offLane := by
  unfold State.setMask; split <;> rfl

@[simp] theorem State.writeSlab_offLane (s : State) (h k : Nat) (bs : List Byte) :
    (s.writeSlab h k bs).offLane = s.offLane := rfl

@[simp] theorem State.mergeSlab_offLane (s : State) (h k : Nat) (bs : List Byte) (on : Nat → Bool) :
    (s.mergeSlab h k bs on).offLane = s.offLane := rfl

theorem foldl_keeps {σ α β : Type} (P : σ → β) (f : σ → α → σ) (h : ∀ s a, P (f s a) = P s) :
    ∀ (l : List α) (s : σ), P (l.foldl f s) = P s
  | [], _ => rfl
  | a :: l, s => (foldl_keeps P f h l (f s a)).trans (h s a)

@[simp] theorem writeTo_offLane (s t : State) (st : Stream) (f : BitVec 8) (w : Nat) (vals : List (Option Nat)) :
    (writeTo s t st f w vals).offLane = t.offLane := by
  unfold writeTo
  dsimp only
  split
  · rfl
  · refine foldl_keeps State.offLane _ (fun u p => ?_) _ _
    split <;> simp

@[simp] theorem State.setSlot_offLane (s : State) (i : Nat) (x : ScaleSlot) :
    (s.setSlot i x).offLane = s.offLane := rfl

@[simp] theorem State.logDarn_offLane (s : State) (k c u : Nat) : (s.logDarn k c u).offLane = s.offLane := by
  unfold State.logDarn; split
  · simp
  · simp only [State.mark_offLane]; rfl

@[simp] theorem State.spareSlot_offLane (s : State) (i : Nat) : (s.spareSlot i).offLane = s.offLane := rfl

@[simp] theorem State.pinSlot_offLane (s : State) (i : Nat) : (s.pinSlot i).offLane = s.offLane := rfl

@[simp] theorem State.settleCap_offLane (s t : State) : (State.settleCap s t).offLane = t.offLane := by
  unfold State.settleCap; split
  · rfl
  · simp only [State.mark_offLane]; rfl

@[simp] theorem State.slotErr_offLane (s : State) (e : EccErr) : (s.slotErr e).offLane = s.offLane := by
  unfold State.slotErr
  dsimp only
  repeat' split
  all_goals try simp only [State.mark_offLane, State.setSlot_offLane, State.logDarn_offLane,
    State.settleCap_offLane, State.spareSlot_offLane, State.pinSlot_offLane]
  all_goals rfl

@[simp] theorem State.slotErrs_offLane (s : State) : s.slotErrs.offLane = s.offLane :=
  foldl_keeps State.offLane _ (fun u e => by simp) _ _

@[simp] theorem chainEffect_offLane (e : Env) (t : State) : (chainEffect e t).offLane = t.offLane := by
  unfold chainEffect
  dsimp only
  repeat' split
  all_goals simp

@[simp] theorem emptySlot_offLane (e : Env) (t : State) (a : List Bool) (g : List (Res Nat)) :
    (emptySlot e t a g).offLane = t.offLane := by simp [emptySlot]

@[simp] theorem finishFunc_offLane (e : Env) (t : State) (a : List Bool) (o g : List (Res Nat)) :
    (finishFunc e t a o g).offLane = t.offLane := by
  unfold finishFunc; dsimp only; split <;> simp

@[simp] theorem funcEffect_offLane (e : Env) (t : State) : (funcEffect e t).offLane = t.offLane := by
  unfold funcEffect; dsimp only; repeat' split
  all_goals simp

@[simp] theorem gactEffect_offLane (e : Env) (t : State) : (gactEffect e t).offLane = t.offLane := by
  unfold gactEffect; dsimp only; repeat' split
  all_goals simp

@[simp] theorem scaleExp_offLane (e : Env) (t : State) : (e.scaleExp t).2.offLane = t.offLane := by
  unfold Env.scaleExp; dsimp only; repeat' split
  all_goals simp
  all_goals rfl

@[simp] theorem cvtPlain_offLane (e : Env) (t : State) : (cvtPlain e t).offLane = t.offLane := by
  unfold cvtPlain
  dsimp only
  repeat' split
  all_goals simp

@[simp] theorem cvtToMx_offLane (e : Env) (t : State) (mt : MxElt) : (cvtToMx e t mt).offLane = t.offLane := by
  unfold cvtToMx
  dsimp only
  split
  · simp only [State.raise_offLane, writeTo_offLane]
    exact writeTo_offLane _ _ _ _ _ _
  · simp

@[simp] theorem cvtEffect_offLane (e : Env) (t : State) : (cvtEffect e t).offLane = t.offLane := by
  unfold cvtEffect; repeat' split
  all_goals simp

@[simp] theorem redEffect_offLane (e : Env) (t : State) : (redEffect e t).offLane = t.offLane := by
  unfold redEffect; dsimp only; repeat' split
  all_goals simp

@[simp] theorem scanFinish_offLane (e : Env) (t : State) (cf : CF) (op : Nat) (a : List Bool) (r : Raises)
    (y : Res (List (Option Lane) × Option Lane)) : (scanFinish e t cf op a r y).offLane = t.offLane := by
  unfold scanFinish
  dsimp only
  rw [State.raise_offLane]
  exact writeTo_offLane _ _ _ _ _ _

@[simp] theorem scanEffect_offLane (e : Env) (t : State) : (scanEffect e t).offLane = t.offLane := by
  unfold scanEffect; dsimp only; split <;> simp

@[simp] theorem lscanEffect_offLane (e : Env) (t : State) : (lscanEffect e t).offLane = t.offLane := by
  unfold lscanEffect; dsimp only; split <;> simp

@[simp] theorem moveBy_offLane (e : Env) (t : State) (l : List Nat) : (moveBy e t l).offLane = t.offLane := by
  simp [moveBy]

@[simp] theorem permEffect_offLane (e : Env) (t : State) : (permEffect e t).offLane = t.offLane := by
  unfold permEffect; split <;> simp

@[simp] theorem xposeEffect_offLane (e : Env) (t : State) : (xposeEffect e t).offLane = t.offLane := by
  unfold xposeEffect; dsimp only; split <;> simp

@[simp] theorem cprsEffect_offLane (e : Env) (t : State) : (cprsEffect e t).offLane = t.offLane := by
  unfold cprsEffect; dsimp only; split <;> simp

@[simp] theorem expdEffect_offLane (e : Env) (t : State) : (expdEffect e t).offLane = t.offLane := by
  unfold expdEffect; dsimp only; split <;> simp

@[simp] theorem tselEffect_offLane (e : Env) (t : State) : (tselEffect e t).offLane = t.offLane := by
  unfold tselEffect; dsimp only; split <;> simp

@[simp] theorem putSlab_offLane (e : Env) (t : State) (f : BitVec 8) (bs : List Byte) :
    (e.putSlab t f bs).offLane = t.offLane := by
  unfold Env.putSlab; dsimp only; split <;> simp

@[simp] theorem putResiduals_offLane (e : Env) (t : State) (l : List (Option Nat)) :
    (e.putResiduals t l).offLane = t.offLane := by
  unfold Env.putResiduals; dsimp only; split
  · exact writeTo_offLane _ _ _ _ _ _
  · simp

@[simp] theorem gcmpEffect_offLane (e : Env) (t : State) : (gcmpEffect e t).offLane = t.offLane := by
  unfold gcmpEffect gcmpTopk gcmpSign; dsimp only; repeat' split
  all_goals simp only [State.raise_offLane, State.bump_offLane, State.markIf_offLane, State.setMask_offLane,
    putResiduals_offLane, putSlab_offLane]

@[simp] theorem gdecEffect_offLane (e : Env) (t : State) : (gdecEffect e t).offLane = t.offLane := by
  unfold gdecEffect State.raiseNv; dsimp only; repeat' split
  all_goals simp

@[simp] theorem State.goneOnce_offLane (s : State) : s.goneOnce.offLane = s.offLane := by simp [State.goneOnce]

@[simp] theorem State.mirrorDiscard_offLane (s : State) (n : Nat) : (s.mirrorDiscard n).offLane = s.offLane := by
  unfold State.mirrorDiscard
  simp only [State.markIf_offLane, State.bump_offLane, State.goneOnce_offLane]
  rfl

@[simp] theorem State.mirrorPush_offLane (s : State) (l : List MirrorRec) : (s.mirrorPush l).offLane = s.offLane := by
  unfold State.mirrorPush; split
  · rfl
  · simp

@[simp] theorem State.sendDesc_offLane (s : State) : s.sendDesc.offLane = s.offLane := by
  unfold State.sendDesc; split
  · rfl
  · dsimp only; rw [State.mirrorPush_offLane]; rfl

@[simp] theorem State.pushDesc_offLane (s : State) (d : List Word) : (s.pushDesc d).offLane = s.offLane := by
  unfold State.pushDesc; dsimp only; split
  · rw [State.sendDesc_offLane]; rfl
  · rfl

@[simp] theorem updMirror_offLane (e : Env) (t : State) (l : List Word) : (updMirror e t l).offLane = t.offLane := by
  unfold updMirror; dsimp only
  rw [State.pushDesc_offLane]
  exact State.mirrorPush_offLane _ _

@[simp] theorem updEffect_offLane (e : Env) (t : State) : (updEffect e t).offLane = t.offLane := by
  unfold updEffect updRun; dsimp only; repeat' split
  all_goals simp

/-- A vector slot changes nothing outside the lanes' state. -/
@[simp] theorem v1Effect_offLane (e : Env) (t : State) : (v1Effect e t).offLane = t.offLane := by
  unfold v1Effect; split <;> simp

end Sys2Proof.Machine
end

