-- ==== Sys2Proof/Laws/Memory.lean ====
section
/-!
SUPPORT. The sparse arrays: what reading gives after a write, that every write keeps the canonical form, and that the
state after reset holds it.
-/

namespace Sys2Proof

section

variable {α : Type} [DecidableEq α] {d : α}

theorem SMap.wfFrom_weaken {m : SMap α} {a b : Option Nat} (h : SMap.wfFrom d a m = true)
    (hab : ∀ l, b = some l → ∃ l', a = some l' ∧ l ≤ l') : SMap.wfFrom d b m = true := by
  cases m with
  | nil => rfl
  | cons p t =>
    obtain ⟨i, v⟩ := p
    simp only [SMap.wfFrom, Bool.and_eq_true, decide_eq_true_eq] at h ⊢
    refine ⟨⟨?_, h.1.2⟩, h.2⟩
    cases b with
    | none => rfl
    | some l =>
      obtain ⟨l', rfl, hl⟩ := hab l rfl
      simp at h ⊢
      omega

/-- Below every listed index the array reads as an unlisted one. -/
theorem SMap.get_of_below {m : SMap α} {l k : Nat} (h : SMap.wfFrom d (some l) m = true) (hk : k ≤ l) :
    SMap.get d m k = d := by
  cases m with
  | nil => rfl
  | cons p t =>
    obtain ⟨i, v⟩ := p
    simp only [SMap.wfFrom, Bool.and_eq_true, decide_eq_true_eq] at h
    have : l < i := by simpa using h.1.1
    simp only [SMap.get]
    rw [if_neg (by omega), if_pos (by omega)]

theorem SMap.set_wfFrom {m : SMap α} {k : Nat} (v : α) : ∀ {lo : Option Nat},
    SMap.wfFrom d lo m = true → (∀ l, lo = some l → l < k) → SMap.wfFrom d lo (SMap.set d k v m) = true := by
  induction m with
  | nil =>
    intro lo _ hl
    simp only [SMap.set]
    split
    · rfl
    · next hv =>
      cases lo with
      | none => simp [SMap.wfFrom, hv]
      | some l => simp [SMap.wfFrom, hv, hl l rfl]
  | cons p t ih =>
    obtain ⟨i, w⟩ := p
    intro lo h hl
    have hh := h
    simp only [SMap.wfFrom, Bool.and_eq_true, decide_eq_true_eq] at h
    simp only [SMap.set]
    split
    · next hki =>
      split
      · exact hh
      · next hv =>
        simp only [SMap.wfFrom, Bool.and_eq_true, decide_eq_true_eq]
        refine ⟨⟨?_, hv⟩, ⟨by simpa using hki, h.1.2⟩, h.2⟩
        cases lo with
        | none => rfl
        | some l => simpa using hl l rfl
    · split
      · next hki =>
        subst hki
        split
        · refine SMap.wfFrom_weaken h.2 ?_
          intro l hlo
          exact ⟨k, rfl, by have := hl l hlo; omega⟩
        · next hv =>
          simp only [SMap.wfFrom, Bool.and_eq_true, decide_eq_true_eq]
          exact ⟨⟨h.1.1, hv⟩, h.2⟩
      · next h1 h2 =>
        simp only [SMap.wfFrom, Bool.and_eq_true, decide_eq_true_eq]
        refine ⟨h.1, ih h.2 ?_⟩
        intro l hlo
        cases hlo
        omega

/-- A write keeps the canonical form. -/
theorem SMap.set_wf {m : SMap α} (k : Nat) (v : α) (h : SMap.wf d m = true) : SMap.wf d (SMap.set d k v m) = true :=
  SMap.set_wfFrom v h (by simp)

theorem SMap.get_set_wfFrom {m : SMap α} {k : Nat} (v : α) (j : Nat) : ∀ {lo : Option Nat},
    SMap.wfFrom d lo m = true → SMap.get d (SMap.set d k v m) j = if j = k then v else SMap.get d m j := by
  induction m with
  | nil =>
    intro lo _
    simp only [SMap.set]
    split
    · next hv => subst hv; simp [SMap.get]
    · simp only [SMap.get]
      by_cases hjk : j = k
      · subst hjk; simp
      · rw [if_neg (by omega), if_neg hjk]; simp
  | cons p t ih =>
    obtain ⟨i, w⟩ := p
    intro lo h
    simp only [SMap.wfFrom, Bool.and_eq_true, decide_eq_true_eq] at h
    simp only [SMap.set]
    split
    · next hki =>
      split
      · next hv =>
        subst hv
        by_cases hjk : j = k
        · subst hjk
          simp only [SMap.get, if_true]
          rw [if_neg (by omega), if_pos hki]
        · rw [if_neg hjk]
      · by_cases hjk : j = k
        · subst hjk; simp [SMap.get]
        · rw [if_neg hjk]
          simp only [SMap.get]
          rw [if_neg (by omega)]
          by_cases hj : j < k
          · rw [if_pos hj, if_neg (by omega), if_pos (by omega)]
          · rw [if_neg hj]
    · split
      · next hki =>
        subst hki
        split
        · next hv =>
          subst hv
          by_cases hjk : j = k
          · subst hjk
            simp [SMap.get_of_below h.2 (Nat.le_refl j)]
          · rw [if_neg hjk]
            simp only [SMap.get]
            rw [if_neg (by omega)]
            split
            · next hlt => exact SMap.get_of_below h.2 (by omega)
            · rfl
        · by_cases hjk : j = k
          · subst hjk; simp [SMap.get]
          · rw [if_neg hjk]
            simp only [SMap.get]
            have hkj : ¬ k = j := fun e => hjk e.symm
            rw [if_neg hkj, if_neg hkj]
      · next h1 h2 =>
        have ihh := ih h.2
        simp only [SMap.get, ihh]
        by_cases hjk : j = k
        · subst hjk
          have hij : ¬ i = j := fun e => h2 e.symm
          simp [hij, h1]
        · simp [hjk]

/-- Reading after a write: the value written at its index, every other index as before. -/
theorem SMap.get_set {m : SMap α} (h : SMap.wf d m = true) (k : Nat) (v : α) (j : Nat) :
    SMap.get d (SMap.set d k v m) j = if j = k then v else SMap.get d m j := SMap.get_set_wfFrom v j h

/-- Setting from an array in canonical form, one index after another, keeps the canonical form. -/
theorem SMap.foldl_set_wf {β : Type} (f : β → Nat) (g : SMap α → β → α) (l : List β) :
    ∀ {m : SMap α}, SMap.wf d m = true → SMap.wf d (l.foldl (fun m x => m.set d (f x) (g m x)) m) = true := by
  induction l with
  | nil => intro m h; exact h
  | cons x t ih => intro m h; exact ih (SMap.set_wf _ _ h)

end

end Sys2Proof

namespace Sys2Proof.Machine

open Sys2Proof

theorem setBytes_wf (bs : List Byte) : ∀ {m : SMap Byte} (lo : Nat), SMap.wf 0 m = true → SMap.wf 0 (setBytes m lo bs) = true := by
  induction bs with
  | nil => intro m lo h; exact h
  | cons b t ih => intro m lo h; exact ih (lo + 1) (SMap.set_wf _ _ h)

/-- Reading after bytes are written in a row. -/
theorem get_setBytes (bs : List Byte) : ∀ {m : SMap Byte} (lo : Nat), SMap.wf 0 m = true → ∀ a,
    (setBytes m lo bs).get 0 a = if lo ≤ a ∧ a < lo + bs.length then bs.getD (a - lo) 0 else m.get 0 a := by
  induction bs with
  | nil => intro m lo _ a; rw [if_neg (by simp)]; rfl
  | cons b t ih =>
    intro m lo h a
    show (setBytes (m.set 0 lo b) (lo + 1) t).get 0 a = _
    rw [ih (lo + 1) (SMap.set_wf _ _ h) a, SMap.get_set h]
    by_cases ha : a = lo
    · subst ha; simp
    · rw [if_neg ha]
      by_cases hr : lo + 1 ≤ a ∧ a < lo + 1 + t.length
      · rw [if_pos hr, if_pos (by simp; omega)]
        obtain ⟨n, hn⟩ : ∃ n, a - lo = n + 1 := ⟨a - lo - 1, by omega⟩
        rw [hn, List.getD_cons_succ]
        congr 1
        omega
      · rw [if_neg hr, if_neg (by simp; omega)]

@[simp] theorem leBytes_length (n v : Nat) : (leBytes n v).length = n := by
  induction n generalizing v with
  | zero => rfl
  | succ n ih => simp [leBytes, ih]

theorem leNat_leBytes (n v : Nat) : leNat (leBytes n v) = v % 256 ^ n := by
  induction n generalizing v with
  | zero => simp [leBytes, leNat, Nat.mod_one]
  | succ n ih =>
    rw [leBytes, leNat, ih, BitVec.toNat_ofNat, Nat.pow_succ' (n := n), Nat.mod_mul]

/-- The canonical form of two arrays one after the other. -/
theorem wfFrom_append {a b : SMap Byte} : ∀ {lo : Option Nat}, SMap.wfFrom 0 lo a = true → SMap.wfFrom 0 lo b = true →
    (∀ p ∈ a, ∀ q ∈ b, p.1 < q.1) → SMap.wfFrom 0 lo (a ++ b) = true := by
  induction a with
  | nil => intro lo _ hb _; exact hb
  | cons p t ih =>
    obtain ⟨i, v⟩ := p
    intro lo ha hb hab
    simp only [List.cons_append, SMap.wfFrom, Bool.and_eq_true] at ha ⊢
    refine ⟨ha.1, ih ha.2 ?_ fun p hp q hq => hab p (List.mem_cons_of_mem _ hp) q hq⟩
    cases b with
    | nil => rfl
    | cons q u =>
      obtain ⟨j, w⟩ := q
      simp only [SMap.wfFrom, Bool.and_eq_true] at hb ⊢
      exact ⟨⟨by simpa using hab (i, v) (List.mem_cons_self) (j, w) (List.mem_cons_self), hb.1.2⟩, hb.2⟩

theorem wfFrom_filter {m : SMap Byte} (f : Nat × Byte → Bool) : ∀ {lo : Option Nat}, SMap.wfFrom 0 lo m = true →
    SMap.wfFrom 0 lo (m.filter f) = true := by
  induction m with
  | nil => intro lo h; exact h
  | cons p t ih =>
    obtain ⟨i, v⟩ := p
    intro lo h
    simp only [SMap.wfFrom, Bool.and_eq_true] at h
    rw [List.filter_cons]
    split
    · simp only [SMap.wfFrom, Bool.and_eq_true]
      exact ⟨h.1, ih h.2⟩
    · refine ih (SMap.wfFrom_weaken h.2 fun l hl => ⟨i, rfl, ?_⟩)
      subst hl
      have := h.1.1
      simp at this
      omega

theorem wfFrom_cellsOf (bs : List Byte) : ∀ (n : Nat) {lo : Option Nat}, (∀ l, lo = some l → l < n) →
    SMap.wfFrom 0 lo (cellsOf n bs) = true := by
  induction bs with
  | nil => intros; rfl
  | cons b t ih =>
    intro n lo h
    simp only [cellsOf]
    split
    · exact ih (n + 1) fun l hl => by have := h l hl; omega
    · next hb =>
      simp only [SMap.wfFrom, Bool.and_eq_true, decide_eq_true_eq]
      refine ⟨⟨?_, hb⟩, ih (n + 1) fun l hl => by cases hl; omega⟩
      cases lo with
      | none => rfl
      | some l => simpa using h l rfl

theorem mem_cellsOf (bs : List Byte) : ∀ (n : Nat) (p : Nat × Byte),
    p ∈ cellsOf n bs ↔ n ≤ p.1 ∧ p.1 < n + bs.length ∧ bs.getD (p.1 - n) 0 = p.2 ∧ p.2 ≠ 0 := by
  induction bs with
  | nil => intro n p; simp [cellsOf]; omega
  | cons b t ih =>
    intro n p
    obtain ⟨j, v⟩ := p
    have key : (j, v) ∈ cellsOf (n + 1) t ∨ (b ≠ 0 ∧ j = n ∧ v = b) ↔
        n ≤ j ∧ j < n + (b :: t).length ∧ (b :: t).getD (j - n) 0 = v ∧ v ≠ 0 := by
      rw [ih]
      by_cases hj : j = n
      · subst hj
        simp
        constructor
        · rintro ⟨h, h'⟩; exact ⟨h'.symm, h' ▸ h⟩
        · rintro ⟨h, h'⟩; exact ⟨h ▸ h', h.symm⟩
      · by_cases hr : n + 1 ≤ j
        · obtain ⟨k, hk⟩ : ∃ k, j - n = k + 1 := ⟨j - n - 1, by omega⟩
          have hk' : j - (n + 1) = k := by omega
          simp only [hk, hk', List.getD_cons_succ, List.length_cons]
          constructor
          · rintro (h | h)
            · exact ⟨by omega, by omega, h.2.2⟩
            · exact absurd h.2.1 hj
          · intro h; exact .inl ⟨hr, by omega, h.2.2⟩
        · constructor
          · rintro (h | h)
            · exact absurd h.1 hr
            · exact absurd h.2.1 hj
          · intro h; omega
    rw [← key]
    simp only [cellsOf]
    split
    · next hb => simp [hb]
    · next hb => rw [List.mem_cons, or_comm, Prod.mk.injEq, and_iff_right (a := b ≠ 0) hb]

theorem mem_ne_zero {m : SMap Byte} : ∀ {lo : Option Nat}, SMap.wfFrom 0 lo m = true → ∀ {k : Nat} {v : Byte},
    (k, v) ∈ m → v ≠ 0 := by
  induction m with
  | nil => intro lo _ k v h; cases h
  | cons p t ih =>
    obtain ⟨i, w⟩ := p
    intro lo h k v hm
    simp only [SMap.wfFrom, Bool.and_eq_true, decide_eq_true_eq] at h
    rcases List.mem_cons.mp hm with he | ht
    · cases he; exact h.1.2
    · exact ih h.2 ht

/-- What an array in canonical form lists it reads as. -/
theorem get_of_mem {m : SMap Byte} : ∀ {lo : Option Nat}, SMap.wfFrom 0 lo m = true → ∀ {k : Nat} {v : Byte}, (k, v) ∈ m →
    m.get 0 k = v := by
  induction m with
  | nil => intro lo _ k v h; cases h
  | cons p t ih =>
    obtain ⟨i, w⟩ := p
    intro lo h k v hm
    simp only [SMap.wfFrom, Bool.and_eq_true, decide_eq_true_eq] at h
    rcases List.mem_cons.mp hm with he | ht
    · cases he; simp [SMap.get]
    · have hk := ih h.2 ht
      have hik : i < k := by
        by_contra hc
        have := SMap.get_of_below (d := (0 : Byte)) (k := k) h.2 (by omega)
        rw [this] at hk
        have := mem_ne_zero h.2 ht
        exact this hk.symm
      simp only [SMap.get]
      rw [if_neg (by omega), if_neg (by omega), hk]

theorem get_of_not_mem {m : SMap Byte} {k : Nat} (h : ∀ v, (k, v) ∉ m) : m.get 0 k = 0 := by
  induction m with
  | nil => rfl
  | cons p t ih =>
    obtain ⟨i, w⟩ := p
    simp only [SMap.get]
    split
    · next e => subst e; exact absurd (List.mem_cons_self) (h w)
    · split
      · rfl
      · exact ih fun v hv => h v (List.mem_cons_of_mem _ hv)

theorem mem_of_get {m : SMap Byte} {k : Nat} (h : m.get 0 k ≠ 0) : (k, m.get 0 k) ∈ m := by
  by_contra hc
  refine h (get_of_not_mem fun v hv => ?_)
  induction m with
  | nil => cases hv
  | cons p t ih =>
    obtain ⟨i, w⟩ := p
    simp only [SMap.get] at h hc
    split at h
    · next e => subst e; simp at hc
    · next e =>
      rw [if_neg e] at hc
      split at h
      · exact h rfl
      · next e' =>
        rw [if_neg e'] at hc
        rcases List.mem_cons.mp hv with he | ht
        · cases he; exact e rfl
        · exact ih h (fun hm => hc (List.mem_cons_of_mem _ hm)) ht

/-- A splice keeps the canonical form. -/
theorem splice_wf {m : SMap Byte} (lo : Nat) (bs : List Byte) (h : SMap.wf 0 m = true) :
    SMap.wf 0 (splice m lo bs) = true := by
  unfold splice
  refine wfFrom_append (wfFrom_append (wfFrom_filter _ h) (wfFrom_cellsOf bs lo (by simp)) ?_)
    (wfFrom_filter _ h) ?_
  · intro p hp q hq
    have h1 := (List.mem_filter.mp hp).2
    have h2 := (mem_cellsOf bs lo q).mp hq
    simp at h1
    omega
  · intro p hp q hq
    have h2 := (List.mem_filter.mp hq).2
    simp at h2
    rcases List.mem_append.mp hp with hp | hp
    · have h1 := (List.mem_filter.mp hp).2
      simp at h1
      omega
    · have h1 := (mem_cellsOf bs lo p).mp hp
      omega

/-- Reading after a splice. -/
theorem get_splice {m : SMap Byte} (lo : Nat) (bs : List Byte) (h : SMap.wf 0 m = true) (a : Nat) :
    (splice m lo bs).get 0 a = if lo ≤ a ∧ a < lo + bs.length then bs.getD (a - lo) 0 else m.get 0 a := by
  have hw := splice_wf lo bs h
  have hmem : ∀ v, (a, v) ∈ splice m lo bs ↔
      if lo ≤ a ∧ a < lo + bs.length then bs.getD (a - lo) 0 = v ∧ v ≠ 0 else (a, v) ∈ m := by
    intro v
    simp only [splice, List.mem_append, List.mem_filter, mem_cellsOf, decide_eq_true_eq]
    split
    · next hr =>
      constructor
      · rintro ((⟨_, h1⟩ | h1) | ⟨_, h1⟩)
        · exact absurd h1 (by simp; omega)
        · exact h1.2.2
        · exact absurd h1 (by simp; omega)
      · intro h1; exact .inl (.inr ⟨hr.1, hr.2, h1⟩)
    · next hr =>
      constructor
      · rintro ((⟨h1, _⟩ | h1) | ⟨h1, _⟩)
        · exact h1
        · exact absurd ⟨h1.1, h1.2.1⟩ hr
        · exact h1
      · intro h1
        by_cases ha : a < lo
        · exact .inl (.inl ⟨h1, ha⟩)
        · exact .inr ⟨h1, by omega⟩
  split
  · next hr =>
    by_cases hz : bs.getD (a - lo) 0 = 0
    · rw [hz]
      refine get_of_not_mem fun v hv => ?_
      have := (hmem v).mp hv
      rw [if_pos hr] at this
      exact this.2 (this.1.symm.trans hz)
    · refine get_of_mem hw ((hmem _).mpr ?_)
      rw [if_pos hr]
      exact ⟨rfl, hz⟩
  · next hr =>
    by_cases hz : m.get 0 a = 0
    · rw [hz]
      refine get_of_not_mem fun v hv => ?_
      have hv' := (hmem v).mp hv
      rw [if_neg hr] at hv'
      have := get_of_mem h hv'
      exact mem_ne_zero h hv' (this.symm.trans hz)
    · refine get_of_mem hw ((hmem _).mpr ?_)
      rw [if_neg hr]
      exact mem_of_get hz

/-! ### Ranges read in one pass -/

theorem getBytes_getElem? (m : SMap Byte) (lo n j : Nat) :
    (getBytes m lo n)[j]? = if j < n then some (m.get 0 (lo + j)) else none := by
  simp only [getBytes, List.getElem?_map]
  by_cases h : j < n
  · simp [h]
  · simp [h]

/-- Bytes below the first listed index are zero. -/
theorem getBytes_pad {m : SMap Byte} {lo mid hi : Nat} (h1 : lo ≤ mid) (h2 : mid ≤ hi)
    (hz : ∀ j, lo ≤ j → j < mid → m.get 0 j = 0) :
    getBytes m lo (hi - lo) = List.replicate (mid - lo) 0 ++ getBytes m mid (hi - mid) := by
  refine List.ext_getElem? fun j => ?_
  rw [getBytes_getElem?, List.getElem?_append, getBytes_getElem?, List.length_replicate, List.getElem?_replicate]
  by_cases hj : j < mid - lo
  · rw [if_pos hj, if_pos hj, if_pos (by omega), hz _ (by omega) (by omega)]
  · rw [if_neg hj]
    by_cases hh : j < hi - lo
    · rw [if_pos hh, if_pos (by omega)]
      congr 2
      omega
    · rw [if_neg hh, if_neg (by omega)]

theorem slice_fold (hi : Nat) (l : SMap Byte) : ∀ (b : Nat), SMap.wfFrom 0 (some b) l = true → b < hi →
    (∀ p ∈ l, p.1 < hi) →
    let r := l.foldr (fun c (acc : List Byte × Nat) =>
      (c.2 :: (List.replicate (acc.2 - (c.1 + 1)) 0 ++ acc.1), c.1)) ([], hi)
    b < r.2 ∧ r.2 ≤ hi ∧ (∀ j, j < r.2 → l.get 0 j = 0) ∧ r.1 = getBytes l r.2 (hi - r.2) := by
  induction l with
  | nil => intro b _ hb _; exact ⟨hb, Nat.le_refl _, fun _ _ => rfl, by simp [getBytes]⟩
  | cons p t ih =>
    obtain ⟨i, v⟩ := p
    intro b h hb hl
    simp only [SMap.wfFrom, Bool.and_eq_true, decide_eq_true_eq] at h
    have hi' : i < hi := hl (i, v) (List.mem_cons_self)
    obtain ⟨h1, h2, h3, h4⟩ := ih i h.2 hi' fun p hp => hl p (List.mem_cons_of_mem _ hp)
    dsimp only at h1 h2 h3 h4 ⊢
    rw [List.foldr_cons]
    generalize t.foldr (fun c (acc : List Byte × Nat) =>
      (c.2 :: (List.replicate (acc.2 - (c.1 + 1)) 0 ++ acc.1), c.1)) ([], hi) = r at h1 h2 h3 h4 ⊢
    refine ⟨h.1.1, by omega, ?_, ?_⟩
    · intro j hj
      simp only [SMap.get]
      rw [if_neg (by omega), if_pos hj]
    · rw [h4]
      have e : ∀ j, i < j → SMap.get 0 ((i, v) :: t) j = SMap.get 0 t j := by
        intro j hj
        simp only [SMap.get]
        rw [if_neg (by omega), if_neg (by omega)]
      rw [← getBytes_pad (by omega) h2 fun j _ hj => h3 j hj]
      refine List.ext_getElem? fun j => ?_
      rw [getBytes_getElem?]
      cases j with
      | zero => rw [if_pos (by omega)]; simp [SMap.get]
      | succ j =>
        rw [List.getElem?_cons_succ, getBytes_getElem?, show i + (j + 1) = i + 1 + j by omega, e _ (by omega)]
        by_cases hj : j < hi - (i + 1)
        · rw [if_pos hj, if_pos (by omega)]
        · rw [if_neg hj, if_neg (by omega)]

theorem get_filter_range {m : SMap Byte} (lo n : Nat) (h : SMap.wf 0 m = true) (j : Nat) (hj : lo ≤ j ∧ j < lo + n) :
    SMap.get 0 (m.filter fun c => lo ≤ c.1 && c.1 < lo + n) j = m.get 0 j := by
  have hw := wfFrom_filter (fun c => lo ≤ c.1 && c.1 < lo + n) h
  by_cases hz : m.get 0 j = 0
  · rw [hz]
    refine get_of_not_mem fun v hv => ?_
    have hm := (List.mem_filter.mp hv).1
    exact mem_ne_zero h hm ((get_of_mem h hm).symm.trans hz)
  · refine get_of_mem hw (List.mem_filter.mpr ⟨mem_of_get hz, ?_⟩)
    simp [hj.1, hj.2]

/-- A slab read in one pass holds the bytes of its addresses. -/
theorem slice_eq_getBytes {m : SMap Byte} (lo n : Nat) (h : SMap.wf 0 m = true) : slice m lo n = getBytes m lo n := by
  have hw : SMap.wf 0 (m.filter fun c => lo ≤ c.1 && c.1 < lo + n) = true := wfFrom_filter _ h
  have hget := get_filter_range lo n h
  have hin : ∀ p ∈ m.filter fun c => lo ≤ c.1 && c.1 < lo + n, lo ≤ p.1 ∧ p.1 < lo + n := fun p hp => by
    simpa using (List.mem_filter.mp hp).2
  unfold slice
  simp only [List.foldl_reverse]
  generalize (m.filter fun c => lo ≤ c.1 && c.1 < lo + n) = l at hw hget hin
  have hb : getBytes m lo n = getBytes l lo (lo + n - lo) := by
    refine List.ext_getElem? fun j => ?_
    rw [getBytes_getElem?, getBytes_getElem?, show lo + n - lo = n by omega]
    by_cases hj : j < n
    · rw [if_pos hj, if_pos hj, hget _ (by omega)]
    · rw [if_neg hj, if_neg hj]
  rw [hb]
  cases l with
  | nil => simp [getBytes, SMap.get]
  | cons p t =>
    obtain ⟨i, v⟩ := p
    have hi := hin (i, v) List.mem_cons_self
    simp only [SMap.wf, SMap.wfFrom, Bool.and_eq_true, decide_eq_true_eq] at hw
    obtain ⟨h1, h2, h3, h4⟩ := slice_fold (lo + n) t i hw.2 hi.2 fun p hp => (hin p (List.mem_cons_of_mem _ hp)).2
    rw [List.foldr_cons]
    generalize t.foldr (fun c (acc : List Byte × Nat) =>
      (c.2 :: (List.replicate (acc.2 - (c.1 + 1)) 0 ++ acc.1), c.1)) ([], lo + n) = r at h1 h2 h3 h4 ⊢
    have e : ∀ j, i < j → SMap.get 0 ((i, v) :: t) j = SMap.get 0 t j := by
      intro j hj
      simp only [SMap.get]
      rw [if_neg (by omega), if_neg (by omega)]
    rw [getBytes_pad (m := (i, v) :: t) hi.1 (by omega) (by
      intro j _ hj
      simp only [SMap.get]
      rw [if_neg (by omega), if_pos hj])]
    congr 1
    refine List.ext_getElem? fun j => ?_
    rw [h4, ← getBytes_pad (by omega) h2 fun j _ hj => h3 j hj, getBytes_getElem?]
    cases j with
    | zero => rw [if_pos (by omega)]; simp [SMap.get]
    | succ j =>
      rw [List.getElem?_cons_succ, getBytes_getElem?, show i + (j + 1) = i + 1 + j by omega, e _ (by omega)]
      by_cases hj : j < lo + n - (i + 1)
      · rw [if_pos hj, if_pos (by omega)]
      · rw [if_neg hj, if_neg (by omega)]

/-- Every sparse array of the state after reset is in canonical form. -/
theorem reset_memory_wf : State.reset.canon = true := rfl

end Sys2Proof.Machine
end

