-- ==== Sys2Proof/Laws/Port.lean ====
section
/-!
SUPPORT. What the M slot can change: nothing outside `State.offPort`, and of the streams' contexts only what
GETS and the post-increment write.
-/

namespace Sys2Proof.Machine

theorem offPort_of_offLane {s t : State} (h : s.offLane = t.offLane) : s.offPort = t.offPort := by
  have e : ∀ u : State, u.offPort = { u.offLane with
      ctx := Ctx.reset, xfers := [], motif := Motif.reset, keys := SealUnit.reset, net := NetUnit.reset
      outbox := [], partner := { u.offLane.partner with recent := [] }
      edging := { u.offLane.edging with
        tiles := [], run := u.offLane.edging.run.map fun r => { r with ctx := Ctx.reset } } } := fun _ => rfl
  rw [e s, e t, h]

theorem ctx_of_offLane {s t : State} (h : s.offLane = t.offLane) : s.ctx = t.ctx :=
  (congrArg State.ctx h : s.offLane.ctx = t.offLane.ctx)

theorem edging_of_offLane {s t : State} (h : s.offLane = t.offLane) : s.edging = t.edging :=
  (congrArg State.edging h : s.offLane.edging = t.offLane.edging)

theorem issue_of_offPort {s t : State} (h : s.offPort = t.offPort) : s.issue = t.issue :=
  (congrArg State.issue h : s.offPort.issue = t.offPort.issue)

theorem ctxOf_of_offLane {s t : State} (h : s.offLane = t.offLane) (st : Stream) : s.ctxOf st = t.ctxOf st := by
  cases st with
  | main => exact ctx_of_offLane h
  | edge => simp only [State.ctxOf, edging_of_offLane h]

@[simp] theorem State.mark_offPort (s : State) (p b : Nat) : (s.mark p b).offPort = s.offPort :=
  offPort_of_offLane (s.mark_offLane p b)

@[simp] theorem State.markIf_offPort (s : State) (c : Bool) (p b : Nat) : (s.markIf c p b).offPort = s.offPort :=
  offPort_of_offLane (s.markIf_offLane c p b)

@[simp] theorem State.bump_offPort (s : State) (c : Ctr) (n : Nat) : (s.bump c n).offPort = s.offPort :=
  offPort_of_offLane (s.bump_offLane c n)

@[simp] theorem State.goneOnce_offPort (s : State) : s.goneOnce.offPort = s.offPort :=
  offPort_of_offLane s.goneOnce_offLane

@[simp] theorem State.setMask_offPort (s : State) (k : Nat) (m : BitVec 4096) :
    (s.setMask k m).offPort = s.offPort := offPort_of_offLane (s.setMask_offLane k m)

@[simp] theorem putSlab_offPort (e : Env) (t : State) (f : BitVec 8) (bs : List Byte) :
    (e.putSlab t f bs).offPort = t.offPort := offPort_of_offLane (putSlab_offLane e t f bs)

@[simp] theorem putAcc_offPort (e : Env) (t : State) (ws : List Word) : (e.putAcc t ws).offPort = t.offPort :=
  offPort_of_offLane (writeTo_offLane _ _ _ _ _ _)

@[simp] theorem modCtx_offPort (s : State) (st : Stream) (f : Ctx → Ctx) : (s.modCtx st f).offPort = s.offPort := by
  cases st
  · rfl
  · simp only [State.modCtx, State.offPort, State.offLane, Option.map_map]
    rfl

@[simp] theorem discardOut_offPort (s : State) (m : Bool) : (s.discardOut m).offPort = s.offPort := by
  unfold State.discardOut
  dsimp only
  split
  · exact State.bump_offPort s _ _
  · exact State.bump_offPort s _ _

@[simp] theorem setKey_offPort (s : State) (p : Nat) (k : KeySlot) : (s.setKey p k).offPort = s.offPort := rfl

@[simp] theorem setInbound_offPort (s : State) (p : Nat) (l : List (BitVec 22)) :
    (s.setInbound p l).offPort = s.offPort := rfl

@[simp] theorem promote_offPort (s : State) (p : Nat) : (s.promote p).offPort = s.offPort := by
  simp [State.promote]

theorem sealKey_offPort (s : State) (p : Nat) : (s.sealKey p).2.offPort = s.offPort := by
  unfold State.sealKey
  split
  · rfl
  · split
    · exact promote_offPort s p
    · exact State.mark_offPort s 13 1
  · exact State.mark_offPort s 13 2

@[simp] theorem outQ_offPort (s : State) (n : NetUnit) : ({ s with net := n } : State).offPort = s.offPort := rfl

@[simp] theorem exchanged_offPort (s : State) (p : BitVec 15) : (s.exchanged p).offPort = s.offPort := by
  unfold State.exchanged; split <;> rfl

@[simp] theorem sendRecord_offPort (s : State) (h : List Word) (b : List Byte) (st : Stream) (i : Nat) :
    (s.sendRecord h b st i).offPort = s.offPort := by
  have k := sealKey_offPort s (if hdrMirror h then 1 else 0)
  unfold State.sendRecord
  dsimp only
  split
  · next t e => rw [e] at k; simpa using k
  · next t e =>
    rw [e] at k
    rw [exchanged_offPort, outQ_offPort, setKey_offPort]
    exact k

@[simp] theorem nsendEffect_offPort (e : Env) (t : State) (b : Bool) :
    (nsendEffect e t b).offPort = t.offPort := by
  unfold nsendEffect
  dsimp only
  split
  · simp
  · split
    · rw [outQ_offPort]; simp
    · split
      · rw [outQ_offPort, discardOut_offPort, State.goneOnce_offPort]
      · rw [outQ_offPort, sendRecord_offPort, outQ_offPort]

@[simp] theorem setMslot_offPort (s : State) (i : Nat) (x : MotifSlot) : (s.setMslot i x).offPort = s.offPort := rfl

@[simp] theorem measNext_offPort (s : State) : s.measNext.offPort = s.offPort := by
  unfold State.measNext; split <;> rfl

@[simp] theorem measCancel_offPort (s : State) (m : MeasTarget) : (s.measCancel m).offPort = s.offPort := by
  unfold State.measCancel
  dsimp only
  rw [measNext_offPort]
  rfl

@[simp] theorem push_offPort (e : Env) (t : State) (op : XferOp) (l : List Nat) : (e.push t op l).offPort = t.offPort :=
  rfl

@[simp] theorem startLoad_offPort (s : State) (i : Nat) : (s.startLoad i).offPort = s.offPort := by
  unfold State.startLoad; dsimp only; split <;> rfl

@[simp] theorem tbldStart_offPort (e : Env) (t : State) : (tbldStart e t).offPort = t.offPort := by
  simp [tbldStart]

/-- What the M slot hands to a port lies in the port's state. -/
@[simp] theorem mHand_offPort (e : Env) (o : MOut) (t : State) : (mHand e o t).offPort = t.offPort := by
  unfold mHand; dsimp only; split <;> try simp
  split <;> rfl

/-- Making the handed table's leaf LOADING lies in the port's state. -/
@[simp] theorem beginLoad_offPort (s : State) (m : MSlot) : (s.beginLoad m).offPort = s.offPort := by
  unfold State.beginLoad; dsimp only; split <;> simp

@[simp] theorem releaseTile_offPort (s : State) : s.releaseTile.offPort = s.offPort := by
  unfold State.releaseTile; split <;> rfl

@[simp] theorem freeSlot_offPort (s : State) (k : Nat) : (s.freeSlot k).offPort = s.offPort := rfl

@[simp] theorem dropGone_offPort (s : State) (a : BitVec 37) : (s.dropGone a).offPort = s.offPort := rfl

@[simp] theorem decideSwap_offPort (s : State) (i : Nat) : (s.decideSwap i).offPort = s.offPort := by
  unfold State.decideSwap; dsimp only; split <;> simp

@[simp] theorem requestSwap_offPort (s : State) (i : Nat) : (s.requestSwap i).offPort = s.offPort := by
  unfold State.requestSwap; dsimp only; repeat' split
  all_goals simp

@[simp] theorem movaEffect_offPort (e : Env) (t : State) : (movaEffect e t).offPort = t.offPort := by
  unfold movaEffect; split <;> simp

@[simp] theorem popqEffect_offPort (e : Env) (t : State) (b : Bool) : (popqEffect e t b).offPort = t.offPort := by
  unfold popqEffect; dsimp only; repeat' split
  all_goals try simp
  exact putAcc_offPort _ _ _

@[simp] theorem nrecvEffect_offPort (e : Env) (t : State) (b : Bool) : (nrecvEffect e t b).offPort = t.offPort := by
  unfold nrecvEffect; dsimp only; repeat' split
  all_goals simp

/-- What the M slot does at writeback lies in the port's state. -/
@[simp] theorem mRest_offPort (e : Env) (o : MOut) (t : State) : (mRest e o t).offPort = t.offPort := by
  unfold mRest movsEffect getsEffect kstEffect kldEffect
  dsimp only
  split
  · rw [modCtx_offPort]; split <;> simp
  · split <;> simp

/-! ### Contexts -/

theorem streams_of_offLane {s t : State} (h : s.offLane = t.offLane) : s.streams = t.streams := by
  simp only [State.streams, ctx_of_offLane h, edging_of_offLane h]

theorem ctxOf_of_streams {s t : State} (h : s.streams = t.streams) (st : Stream) : s.ctxOf st = t.ctxOf st := by
  cases st
  · exact congrArg Prod.fst h
  · exact congrArg (fun x : Ctx × Option Run => (x.2.map (·.ctx)).getD Ctx.reset) h

@[simp] theorem mark_streams (s : State) (p b : Nat) : (s.mark p b).streams = s.streams :=
  streams_of_offLane (s.mark_offLane p b)

@[simp] theorem bump_streams (s : State) (c : Ctr) (n : Nat) : (s.bump c n).streams = s.streams :=
  streams_of_offLane (s.bump_offLane c n)

@[simp] theorem goneOnce_streams (s : State) : s.goneOnce.streams = s.streams :=
  streams_of_offLane s.goneOnce_offLane

@[simp] theorem setMask_streams (s : State) (k : Nat) (m : BitVec 4096) : (s.setMask k m).streams = s.streams :=
  streams_of_offLane (s.setMask_offLane k m)

@[simp] theorem putSlab_streams (e : Env) (t : State) (f : BitVec 8) (bs : List Byte) :
    (e.putSlab t f bs).streams = t.streams := streams_of_offLane (putSlab_offLane e t f bs)

@[simp] theorem putAcc_streams (e : Env) (t : State) (ws : List Word) : (e.putAcc t ws).streams = t.streams :=
  streams_of_offLane (writeTo_offLane _ _ _ _ _ _)

@[simp] theorem setKey_streams (s : State) (p : Nat) (k : KeySlot) : (s.setKey p k).streams = s.streams := rfl

@[simp] theorem setNet_streams (s : State) (n : NetUnit) : ({ s with net := n } : State).streams = s.streams := rfl

@[simp] theorem exchanged_streams (s : State) (p : BitVec 15) : (s.exchanged p).streams = s.streams := by
  unfold State.exchanged; split <;> rfl

@[simp] theorem discardOut_streams (s : State) (m : Bool) : (s.discardOut m).streams = s.streams := by
  unfold State.discardOut
  dsimp only
  split
  · exact bump_streams s _ _
  · exact bump_streams s _ _

theorem sealKey_streams (s : State) (p : Nat) : (s.sealKey p).2.streams = s.streams := by
  unfold State.sealKey
  split
  · rfl
  · split
    · rfl
    · exact mark_streams s 13 1
  · exact mark_streams s 13 2

@[simp] theorem sendRecord_streams (s : State) (h : List Word) (b : List Byte) (st : Stream) (i : Nat) :
    (s.sendRecord h b st i).streams = s.streams := by
  have k := sealKey_streams s (if hdrMirror h then 1 else 0)
  unfold State.sendRecord
  dsimp only
  split
  · next t e => rw [e] at k; simpa using k
  · next t e =>
    rw [e] at k
    rw [exchanged_streams, setNet_streams, setKey_streams]
    exact k

@[simp] theorem nsendEffect_streams (e : Env) (t : State) (b : Bool) :
    (nsendEffect e t b).streams = t.streams := by
  unfold nsendEffect
  dsimp only
  split
  · simp
  · split
    · rw [setNet_streams]; simp
    · split
      · rw [setNet_streams, discardOut_streams, goneOnce_streams]
      · rw [setNet_streams, sendRecord_streams, setNet_streams]

@[simp] theorem measNext_streams (s : State) : s.measNext.streams = s.streams := by
  unfold State.measNext; split <;> rfl

@[simp] theorem measCancel_streams (s : State) (m : MeasTarget) : (s.measCancel m).streams = s.streams := by
  unfold State.measCancel
  dsimp only
  rw [measNext_streams]
  rfl

@[simp] theorem startLoad_streams (s : State) (i : Nat) : (s.startLoad i).streams = s.streams := by
  unfold State.startLoad; dsimp only; split <;> rfl

@[simp] theorem push_streams (e : Env) (t : State) (op : XferOp) (l : List Nat) : (e.push t op l).streams = t.streams :=
  rfl

/-- Handing a transfer leaves the streams' contexts. -/
@[simp] theorem mHand_streams (e : Env) (o : MOut) (t : State) : (mHand e o t).streams = t.streams := by
  unfold mHand tbldStart; dsimp only; split <;> try simp
  split <;> rfl

@[simp] theorem beginLoad_streams (s : State) (m : MSlot) : (s.beginLoad m).streams = s.streams := by
  unfold State.beginLoad; dsimp only; split <;> simp

@[simp] theorem releaseTile_streams (s : State) : s.releaseTile.streams = s.streams := by
  unfold State.releaseTile; split <;> rfl

@[simp] theorem freeSlot_streams (s : State) (k : Nat) : (s.freeSlot k).streams = s.streams := rfl

@[simp] theorem setMslot_streams (s : State) (i : Nat) (x : MotifSlot) : (s.setMslot i x).streams = s.streams := rfl

@[simp] theorem dropGone_streams (s : State) (a : BitVec 37) : (s.dropGone a).streams = s.streams := rfl

@[simp] theorem decideSwap_streams (s : State) (i : Nat) : (s.decideSwap i).streams = s.streams := by
  unfold State.decideSwap; dsimp only; split <;> simp

@[simp] theorem requestSwap_streams (s : State) (i : Nat) : (s.requestSwap i).streams = s.streams := by
  unfold State.requestSwap; dsimp only; repeat' split
  all_goals simp

@[simp] theorem movaEffect_streams (e : Env) (t : State) : (movaEffect e t).streams = t.streams := by
  unfold movaEffect; split <;> simp

@[simp] theorem setTiles_streams (s : State) (l : List Tile) :
    ({ s with edging := { s.edging with tiles := l } } : State).streams = s.streams := rfl

@[simp] theorem popqEffect_streams (e : Env) (t : State) (b : Bool) : (popqEffect e t b).streams = t.streams := by
  unfold popqEffect; dsimp only; repeat' split
  all_goals simp

@[simp] theorem markNet_streams (s : State) (p b : Nat) : (s.mark p b).streams = s.streams := mark_streams s p b

@[simp] theorem nrecvEffect_streams (e : Env) (t : State) (b : Bool) : (nrecvEffect e t b).streams = t.streams := by
  unfold nrecvEffect; dsimp only; repeat' split
  all_goals simp

/-- What the post-increment does to a context (R67). -/
def Env.postCtx (e : Env) (c : Ctx) : Ctx :=
  if e.b.m.pi = 1 then
    let d := c.setDesc e.dscN e.desc.post
    if (fmtOf e.b.m.mfmt).isMx && e.b.m.major.toNat ≤ 2 then d.setDesc ((e.dscN + 1) % 16) e.desc'.post else d
  else c

/-- What the M slot does to the context of its stream at writeback. -/
def Env.mCtx (e : Env) (c : Ctx) : Ctx :=
  e.postCtx (if e.b.m.major.toNat = 10 then
    c.setS e.b.m.sreg (BitVec.ofNat 64
      (leNat (e.hsBytes (fmtOf e.b.m.mfmt).bytes) % 2 ^ (fmtOf e.b.m.mfmt).eltBits)) else c)

theorem modCtx_streams {s t : State} (h : s.streams = t.streams) (st : Stream) (f : Ctx → Ctx) :
    (s.modCtx st f).streams = (t.modCtx st f).streams := by
  simp only [State.streams, Prod.mk.injEq] at h
  cases st
  · simp only [State.modCtx, State.streams, h.1, h.2]
  · simp only [State.modCtx, State.streams, h.1, h.2]

theorem modCtx_modCtx (s : State) (st : Stream) (f g : Ctx → Ctx) :
    ((s.modCtx st f).modCtx st g).streams = (s.modCtx st fun c => g (f c)).streams := by
  cases st
  · rfl
  · simp only [State.modCtx, State.streams, Option.map_map]
    rfl

theorem modCtx_id (s : State) (st : Stream) : (s.modCtx st fun c => c).streams = s.streams := by
  cases st
  · rfl
  · simp [State.modCtx, State.streams]

/-- The M slot at writeback changes the contexts by GETS and the post-increment alone. -/
theorem mRest_streams (e : Env) (o : MOut) (t : State) :
    (mRest e o t).streams = (t.modCtx e.st e.mCtx).streams := by
  unfold mRest Env.mCtx Env.postCtx
  dsimp only
  split
  · next hp =>
    refine Eq.trans (modCtx_streams (t := if e.b.m.major.toNat = 10 then getsEffect e t else t) ?_ _ _) ?_
    · split <;> simp_all [movsEffect, kstEffect, kldEffect]
    · split
      · next h => simp only [getsEffect]; rw [modCtx_modCtx]
      · rfl
  · next hp =>
    by_cases h : e.b.m.major.toNat = 10
    · simp [h, getsEffect]
    · simp only [h, if_false]
      rw [modCtx_id]
      split <;> simp_all [movsEffect, kstEffect, kldEffect]

end Sys2Proof.Machine
end

