-- ==== Sys2Proof/Laws/State.lean ====
section
/-!
SUPPORT. Field lemmas of the named updates of the state: each update changes the fields it names and no other.
-/

namespace Sys2Proof.Machine

/-! ### `State.setPage` -/

@[simp] theorem State.setPage_pending (s : State) (p : Nat) (h : PageHdr) : (s.setPage p h).pending = s.pending := rfl
@[simp] theorem State.setPage_wz (s : State) (p : Nat) (h : PageHdr) : (s.setPage p h).wz = s.wz := rfl
@[simp] theorem State.setPage_package (s : State) (p : Nat) (h : PageHdr) : (s.setPage p h).package = s.package := rfl
@[simp] theorem State.setPage_powered (s : State) (p : Nat) (h : PageHdr) : (s.setPage p h).powered = s.powered := rfl
@[simp] theorem State.setPage_resetting (s : State) (p : Nat) (h : PageHdr) : (s.setPage p h).resetting = s.resetting :=
  rfl
@[simp] theorem State.setPage_resetHeld (s : State) (p : Nat) (h : PageHdr) : (s.setPage p h).resetHeld = s.resetHeld :=
  rfl
@[simp] theorem State.setPage_lastReset (s : State) (p : Nat) (h : PageHdr) : (s.setPage p h).lastReset = s.lastReset :=
  rfl
@[simp] theorem State.setPage_rest (s : State) (p : Nat) (h : PageHdr) : (s.setPage p h).rest = s.rest := rfl
@[simp] theorem State.setPage_transit (s : State) (p : Nat) (h : PageHdr) : (s.setPage p h).transit = s.transit := rfl
@[simp] theorem State.setPage_restRefused (s : State) (p : Nat) (h : PageHdr) : (s.setPage p h).restRefused = s.restRefused :=
  rfl
@[simp] theorem State.setPage_capGen (s : State) (p : Nat) (h : PageHdr) : (s.setPage p h).capGen = s.capGen := rfl
@[simp] theorem State.setPage_hoops (s : State) (p : Nat) (h : PageHdr) : (s.setPage p h).hoops = s.hoops := rfl
@[simp] theorem State.setPage_fabric (s : State) (p : Nat) (h : PageHdr) : (s.setPage p h).fabric = s.fabric := rfl
@[simp] theorem State.setPage_pstore (s : State) (p : Nat) (h : PageHdr) : (s.setPage p h).pstore = s.pstore := rfl
@[simp] theorem State.setPage_estore (s : State) (p : Nat) (h : PageHdr) : (s.setPage p h).estore = s.estore := rfl
@[simp] theorem State.setPage_regs (s : State) (p : Nat) (h : PageHdr) : (s.setPage p h).regs = s.regs := rfl
@[simp] theorem State.setPage_ecc (s : State) (p : Nat) (h : PageHdr) : (s.setPage p h).ecc = s.ecc := rfl
@[simp] theorem State.setPage_ctx (s : State) (p : Nat) (h : PageHdr) : (s.setPage p h).ctx = s.ctx := rfl
@[simp] theorem State.setPage_masks (s : State) (p : Nat) (h : PageHdr) : (s.setPage p h).masks = s.masks := rfl
@[simp] theorem State.setPage_carries (s : State) (p : Nat) (h : PageHdr) : (s.setPage p h).carries = s.carries := rfl
@[simp] theorem State.setPage_issue (s : State) (p : Nat) (h : PageHdr) : (s.setPage p h).issue = s.issue := rfl
@[simp] theorem State.setPage_xfers (s : State) (p : Nat) (h : PageHdr) : (s.setPage p h).xfers = s.xfers := rfl
@[simp] theorem State.setPage_panelMap (s : State) (p : Nat) (h : PageHdr) : (s.setPage p h).panelMap = s.panelMap :=
  rfl
@[simp] theorem State.setPage_panels (s : State) (p : Nat) (h : PageHdr) : (s.setPage p h).panels = s.panels := rfl
@[simp] theorem State.setPage_hoopMeta (s : State) (p : Nat) (h : PageHdr) : (s.setPage p h).hoopMeta = s.hoopMeta :=
  rfl
@[simp] theorem State.setPage_arb (s : State) (p : Nat) (h : PageHdr) : (s.setPage p h).arb = s.arb := rfl
@[simp] theorem State.setPage_motif (s : State) (p : Nat) (h : PageHdr) : (s.setPage p h).motif = s.motif := rfl
@[simp] theorem State.setPage_scale (s : State) (p : Nat) (h : PageHdr) : (s.setPage p h).scale = s.scale := rfl
@[simp] theorem State.setPage_twist (s : State) (p : Nat) (h : PageHdr) : (s.setPage p h).twist = s.twist := rfl
@[simp] theorem State.setPage_edging (s : State) (p : Nat) (h : PageHdr) : (s.setPage p h).edging = s.edging := rfl
@[simp] theorem State.setPage_partner (s : State) (p : Nat) (h : PageHdr) : (s.setPage p h).partner = s.partner := rfl
@[simp] theorem State.setPage_net (s : State) (p : Nat) (h : PageHdr) : (s.setPage p h).net = s.net := rfl
@[simp] theorem State.setPage_mirror (s : State) (p : Nat) (h : PageHdr) : (s.setPage p h).mirror = s.mirror := rfl
@[simp] theorem State.setPage_clock (s : State) (p : Nat) (h : PageHdr) : (s.setPage p h).clock = s.clock := rfl
@[simp] theorem State.setPage_keys (s : State) (p : Nat) (h : PageHdr) : (s.setPage p h).keys = s.keys := rfl
@[simp] theorem State.setPage_trouble (s : State) (p : Nat) (h : PageHdr) : (s.setPage p h).trouble = s.trouble := rfl
@[simp] theorem State.setPage_freeCount (s : State) (p : Nat) (h : PageHdr) : (s.setPage p h).freeCount = s.freeCount :=
  rfl
@[simp] theorem State.setPage_testEnable (s : State) (p : Nat) (h : PageHdr) : (s.setPage p h).testEnable = s.testEnable :=
  rfl
@[simp] theorem State.setPage_testLocal (s : State) (p : Nat) (h : PageHdr) : (s.setPage p h).testLocal = s.testLocal :=
  rfl
@[simp] theorem State.setPage_mmioOut (s : State) (p : Nat) (h : PageHdr) : (s.setPage p h).mmioOut = s.mmioOut := rfl
@[simp] theorem State.setPage_maskOut (s : State) (p : Nat) (h : PageHdr) : (s.setPage p h).maskOut = s.maskOut := rfl
@[simp] theorem State.setPage_outbox (s : State) (p : Nat) (h : PageHdr) : (s.setPage p h).outbox = s.outbox := rfl

/-! ### `State.mark` -/

@[simp] theorem State.mark_pending (s : State) (p b : Nat) : (s.mark p b).pending = s.pending := rfl
@[simp] theorem State.mark_wz (s : State) (p b : Nat) : (s.mark p b).wz = s.wz := rfl
@[simp] theorem State.mark_package (s : State) (p b : Nat) : (s.mark p b).package = s.package := rfl
@[simp] theorem State.mark_powered (s : State) (p b : Nat) : (s.mark p b).powered = s.powered := rfl
@[simp] theorem State.mark_resetting (s : State) (p b : Nat) : (s.mark p b).resetting = s.resetting := rfl
@[simp] theorem State.mark_resetHeld (s : State) (p b : Nat) : (s.mark p b).resetHeld = s.resetHeld := rfl
@[simp] theorem State.mark_lastReset (s : State) (p b : Nat) : (s.mark p b).lastReset = s.lastReset := rfl
@[simp] theorem State.mark_rest (s : State) (p b : Nat) : (s.mark p b).rest = s.rest := rfl
@[simp] theorem State.mark_transit (s : State) (p b : Nat) : (s.mark p b).transit = s.transit := rfl
@[simp] theorem State.mark_restRefused (s : State) (p b : Nat) : (s.mark p b).restRefused = s.restRefused := rfl
@[simp] theorem State.mark_capGen (s : State) (p b : Nat) : (s.mark p b).capGen = s.capGen := rfl
@[simp] theorem State.mark_hoops (s : State) (p b : Nat) : (s.mark p b).hoops = s.hoops := rfl
@[simp] theorem State.mark_fabric (s : State) (p b : Nat) : (s.mark p b).fabric = s.fabric := rfl
@[simp] theorem State.mark_pstore (s : State) (p b : Nat) : (s.mark p b).pstore = s.pstore := rfl
@[simp] theorem State.mark_estore (s : State) (p b : Nat) : (s.mark p b).estore = s.estore := rfl
@[simp] theorem State.mark_regs (s : State) (p b : Nat) : (s.mark p b).regs = s.regs := rfl
@[simp] theorem State.mark_ecc (s : State) (p b : Nat) : (s.mark p b).ecc = s.ecc := rfl
@[simp] theorem State.mark_ctx (s : State) (p b : Nat) : (s.mark p b).ctx = s.ctx := rfl
@[simp] theorem State.mark_masks (s : State) (p b : Nat) : (s.mark p b).masks = s.masks := rfl
@[simp] theorem State.mark_carries (s : State) (p b : Nat) : (s.mark p b).carries = s.carries := rfl
@[simp] theorem State.mark_issue (s : State) (p b : Nat) : (s.mark p b).issue = s.issue := rfl
@[simp] theorem State.mark_xfers (s : State) (p b : Nat) : (s.mark p b).xfers = s.xfers := rfl
@[simp] theorem State.mark_panelMap (s : State) (p b : Nat) : (s.mark p b).panelMap = s.panelMap := rfl
@[simp] theorem State.mark_panels (s : State) (p b : Nat) : (s.mark p b).panels = s.panels := rfl
@[simp] theorem State.mark_hoopMeta (s : State) (p b : Nat) : (s.mark p b).hoopMeta = s.hoopMeta := rfl
@[simp] theorem State.mark_arb (s : State) (p b : Nat) : (s.mark p b).arb = s.arb := rfl
@[simp] theorem State.mark_motif (s : State) (p b : Nat) : (s.mark p b).motif = s.motif := rfl
@[simp] theorem State.mark_scale (s : State) (p b : Nat) : (s.mark p b).scale = s.scale := rfl
@[simp] theorem State.mark_twist (s : State) (p b : Nat) : (s.mark p b).twist = s.twist := rfl
@[simp] theorem State.mark_edging (s : State) (p b : Nat) : (s.mark p b).edging = s.edging := rfl
@[simp] theorem State.mark_partner (s : State) (p b : Nat) : (s.mark p b).partner = s.partner := rfl
@[simp] theorem State.mark_net (s : State) (p b : Nat) : (s.mark p b).net = s.net := rfl
@[simp] theorem State.mark_mirror (s : State) (p b : Nat) : (s.mark p b).mirror = s.mirror := rfl
@[simp] theorem State.mark_clock (s : State) (p b : Nat) : (s.mark p b).clock = s.clock := rfl
@[simp] theorem State.mark_keys (s : State) (p b : Nat) : (s.mark p b).keys = s.keys := rfl
@[simp] theorem State.mark_trouble (s : State) (p b : Nat) : (s.mark p b).trouble = s.trouble := rfl
@[simp] theorem State.mark_freeCount (s : State) (p b : Nat) : (s.mark p b).freeCount = s.freeCount := rfl
@[simp] theorem State.mark_testEnable (s : State) (p b : Nat) : (s.mark p b).testEnable = s.testEnable := rfl
@[simp] theorem State.mark_testLocal (s : State) (p b : Nat) : (s.mark p b).testLocal = s.testLocal := rfl
@[simp] theorem State.mark_mmioOut (s : State) (p b : Nat) : (s.mark p b).mmioOut = s.mmioOut := rfl
@[simp] theorem State.mark_maskOut (s : State) (p b : Nat) : (s.mark p b).maskOut = s.maskOut := rfl
@[simp] theorem State.mark_outbox (s : State) (p b : Nat) : (s.mark p b).outbox = s.outbox := rfl

/-! ### `State.markIf` -/

@[simp] theorem State.markIf_pending (s : State) (c : Bool) (p b : Nat) : (s.markIf c p b).pending = s.pending :=
  by cases c <;> rfl
@[simp] theorem State.markIf_wz (s : State) (c : Bool) (p b : Nat) : (s.markIf c p b).wz = s.wz := by cases c <;> rfl
@[simp] theorem State.markIf_package (s : State) (c : Bool) (p b : Nat) : (s.markIf c p b).package = s.package :=
  by cases c <;> rfl
@[simp] theorem State.markIf_powered (s : State) (c : Bool) (p b : Nat) : (s.markIf c p b).powered = s.powered :=
  by cases c <;> rfl
@[simp] theorem State.markIf_resetting (s : State) (c : Bool) (p b : Nat) : (s.markIf c p b).resetting = s.resetting :=
  by cases c <;> rfl
@[simp] theorem State.markIf_resetHeld (s : State) (c : Bool) (p b : Nat) : (s.markIf c p b).resetHeld = s.resetHeld :=
  by cases c <;> rfl
@[simp] theorem State.markIf_lastReset (s : State) (c : Bool) (p b : Nat) : (s.markIf c p b).lastReset = s.lastReset :=
  by cases c <;> rfl
@[simp] theorem State.markIf_rest (s : State) (c : Bool) (p b : Nat) : (s.markIf c p b).rest = s.rest :=
  by cases c <;> rfl
@[simp] theorem State.markIf_transit (s : State) (c : Bool) (p b : Nat) : (s.markIf c p b).transit = s.transit :=
  by cases c <;> rfl
@[simp] theorem State.markIf_restRefused (s : State) (c : Bool) (p b : Nat) : (s.markIf c p b).restRefused = s.restRefused :=
  by cases c <;> rfl
@[simp] theorem State.markIf_capGen (s : State) (c : Bool) (p b : Nat) : (s.markIf c p b).capGen = s.capGen :=
  by cases c <;> rfl
@[simp] theorem State.markIf_hoops (s : State) (c : Bool) (p b : Nat) : (s.markIf c p b).hoops = s.hoops :=
  by cases c <;> rfl
@[simp] theorem State.markIf_fabric (s : State) (c : Bool) (p b : Nat) : (s.markIf c p b).fabric = s.fabric :=
  by cases c <;> rfl
@[simp] theorem State.markIf_pstore (s : State) (c : Bool) (p b : Nat) : (s.markIf c p b).pstore = s.pstore :=
  by cases c <;> rfl
@[simp] theorem State.markIf_estore (s : State) (c : Bool) (p b : Nat) : (s.markIf c p b).estore = s.estore :=
  by cases c <;> rfl
@[simp] theorem State.markIf_regs (s : State) (c : Bool) (p b : Nat) : (s.markIf c p b).regs = s.regs :=
  by cases c <;> rfl
@[simp] theorem State.markIf_ecc (s : State) (c : Bool) (p b : Nat) : (s.markIf c p b).ecc = s.ecc :=
  by cases c <;> rfl
@[simp] theorem State.markIf_ctx (s : State) (c : Bool) (p b : Nat) : (s.markIf c p b).ctx = s.ctx :=
  by cases c <;> rfl
@[simp] theorem State.markIf_masks (s : State) (c : Bool) (p b : Nat) : (s.markIf c p b).masks = s.masks :=
  by cases c <;> rfl
@[simp] theorem State.markIf_carries (s : State) (c : Bool) (p b : Nat) : (s.markIf c p b).carries = s.carries :=
  by cases c <;> rfl
@[simp] theorem State.markIf_issue (s : State) (c : Bool) (p b : Nat) : (s.markIf c p b).issue = s.issue :=
  by cases c <;> rfl
@[simp] theorem State.markIf_xfers (s : State) (c : Bool) (p b : Nat) : (s.markIf c p b).xfers = s.xfers :=
  by cases c <;> rfl
@[simp] theorem State.markIf_panelMap (s : State) (c : Bool) (p b : Nat) : (s.markIf c p b).panelMap = s.panelMap :=
  by cases c <;> rfl
@[simp] theorem State.markIf_panels (s : State) (c : Bool) (p b : Nat) : (s.markIf c p b).panels = s.panels :=
  by cases c <;> rfl
@[simp] theorem State.markIf_hoopMeta (s : State) (c : Bool) (p b : Nat) : (s.markIf c p b).hoopMeta = s.hoopMeta :=
  by cases c <;> rfl
@[simp] theorem State.markIf_arb (s : State) (c : Bool) (p b : Nat) : (s.markIf c p b).arb = s.arb :=
  by cases c <;> rfl
@[simp] theorem State.markIf_motif (s : State) (c : Bool) (p b : Nat) : (s.markIf c p b).motif = s.motif :=
  by cases c <;> rfl
@[simp] theorem State.markIf_scale (s : State) (c : Bool) (p b : Nat) : (s.markIf c p b).scale = s.scale :=
  by cases c <;> rfl
@[simp] theorem State.markIf_twist (s : State) (c : Bool) (p b : Nat) : (s.markIf c p b).twist = s.twist :=
  by cases c <;> rfl
@[simp] theorem State.markIf_edging (s : State) (c : Bool) (p b : Nat) : (s.markIf c p b).edging = s.edging :=
  by cases c <;> rfl
@[simp] theorem State.markIf_partner (s : State) (c : Bool) (p b : Nat) : (s.markIf c p b).partner = s.partner :=
  by cases c <;> rfl
@[simp] theorem State.markIf_net (s : State) (c : Bool) (p b : Nat) : (s.markIf c p b).net = s.net :=
  by cases c <;> rfl
@[simp] theorem State.markIf_mirror (s : State) (c : Bool) (p b : Nat) : (s.markIf c p b).mirror = s.mirror :=
  by cases c <;> rfl
@[simp] theorem State.markIf_clock (s : State) (c : Bool) (p b : Nat) : (s.markIf c p b).clock = s.clock :=
  by cases c <;> rfl
@[simp] theorem State.markIf_keys (s : State) (c : Bool) (p b : Nat) : (s.markIf c p b).keys = s.keys :=
  by cases c <;> rfl
@[simp] theorem State.markIf_trouble (s : State) (c : Bool) (p b : Nat) : (s.markIf c p b).trouble = s.trouble :=
  by cases c <;> rfl
@[simp] theorem State.markIf_freeCount (s : State) (c : Bool) (p b : Nat) : (s.markIf c p b).freeCount = s.freeCount :=
  by cases c <;> rfl
@[simp] theorem State.markIf_testEnable (s : State) (c : Bool) (p b : Nat) : (s.markIf c p b).testEnable = s.testEnable :=
  by cases c <;> rfl
@[simp] theorem State.markIf_testLocal (s : State) (c : Bool) (p b : Nat) : (s.markIf c p b).testLocal = s.testLocal :=
  by cases c <;> rfl
@[simp] theorem State.markIf_mmioOut (s : State) (c : Bool) (p b : Nat) : (s.markIf c p b).mmioOut = s.mmioOut :=
  by cases c <;> rfl
@[simp] theorem State.markIf_maskOut (s : State) (c : Bool) (p b : Nat) : (s.markIf c p b).maskOut = s.maskOut :=
  by cases c <;> rfl
@[simp] theorem State.markIf_outbox (s : State) (c : Bool) (p b : Nat) : (s.markIf c p b).outbox = s.outbox :=
  by cases c <;> rfl

/-! ### `State.bump` -/

theorem State.bump_keeps {α : Type} (P : State → α)
    (h : ∀ (t : State) (u : TroubleUnit) (p : Vector PageHdr 16), P { t with trouble := u, pages := p } = P t)
    (s : State) (c : Ctr) (n : Nat) : P (s.bump c n) = P s := by
  unfold State.bump State.markIf
  dsimp only
  split
  · rfl
  · split
    · exact h s _ _
    · exact h s _ s.pages

@[simp] theorem State.bump_pending (s : State) (c : Ctr) (n : Nat) : (s.bump c n).pending = s.pending :=
  State.bump_keeps State.pending (fun _ _ _ => rfl) s c n
@[simp] theorem State.bump_wz (s : State) (c : Ctr) (n : Nat) : (s.bump c n).wz = s.wz :=
  State.bump_keeps State.wz (fun _ _ _ => rfl) s c n
@[simp] theorem State.bump_package (s : State) (c : Ctr) (n : Nat) : (s.bump c n).package = s.package :=
  State.bump_keeps State.package (fun _ _ _ => rfl) s c n
@[simp] theorem State.bump_powered (s : State) (c : Ctr) (n : Nat) : (s.bump c n).powered = s.powered :=
  State.bump_keeps State.powered (fun _ _ _ => rfl) s c n
@[simp] theorem State.bump_resetting (s : State) (c : Ctr) (n : Nat) : (s.bump c n).resetting = s.resetting :=
  State.bump_keeps State.resetting (fun _ _ _ => rfl) s c n
@[simp] theorem State.bump_resetHeld (s : State) (c : Ctr) (n : Nat) : (s.bump c n).resetHeld = s.resetHeld :=
  State.bump_keeps State.resetHeld (fun _ _ _ => rfl) s c n
@[simp] theorem State.bump_lastReset (s : State) (c : Ctr) (n : Nat) : (s.bump c n).lastReset = s.lastReset :=
  State.bump_keeps State.lastReset (fun _ _ _ => rfl) s c n
@[simp] theorem State.bump_rest (s : State) (c : Ctr) (n : Nat) : (s.bump c n).rest = s.rest :=
  State.bump_keeps State.rest (fun _ _ _ => rfl) s c n
@[simp] theorem State.bump_transit (s : State) (c : Ctr) (n : Nat) : (s.bump c n).transit = s.transit :=
  State.bump_keeps State.transit (fun _ _ _ => rfl) s c n
@[simp] theorem State.bump_restRefused (s : State) (c : Ctr) (n : Nat) : (s.bump c n).restRefused = s.restRefused :=
  State.bump_keeps State.restRefused (fun _ _ _ => rfl) s c n
@[simp] theorem State.bump_capGen (s : State) (c : Ctr) (n : Nat) : (s.bump c n).capGen = s.capGen :=
  State.bump_keeps State.capGen (fun _ _ _ => rfl) s c n
@[simp] theorem State.bump_hoops (s : State) (c : Ctr) (n : Nat) : (s.bump c n).hoops = s.hoops :=
  State.bump_keeps State.hoops (fun _ _ _ => rfl) s c n
@[simp] theorem State.bump_fabric (s : State) (c : Ctr) (n : Nat) : (s.bump c n).fabric = s.fabric :=
  State.bump_keeps State.fabric (fun _ _ _ => rfl) s c n
@[simp] theorem State.bump_pstore (s : State) (c : Ctr) (n : Nat) : (s.bump c n).pstore = s.pstore :=
  State.bump_keeps State.pstore (fun _ _ _ => rfl) s c n
@[simp] theorem State.bump_estore (s : State) (c : Ctr) (n : Nat) : (s.bump c n).estore = s.estore :=
  State.bump_keeps State.estore (fun _ _ _ => rfl) s c n
@[simp] theorem State.bump_regs (s : State) (c : Ctr) (n : Nat) : (s.bump c n).regs = s.regs :=
  State.bump_keeps State.regs (fun _ _ _ => rfl) s c n
@[simp] theorem State.bump_ecc (s : State) (c : Ctr) (n : Nat) : (s.bump c n).ecc = s.ecc :=
  State.bump_keeps State.ecc (fun _ _ _ => rfl) s c n
@[simp] theorem State.bump_ctx (s : State) (c : Ctr) (n : Nat) : (s.bump c n).ctx = s.ctx :=
  State.bump_keeps State.ctx (fun _ _ _ => rfl) s c n
@[simp] theorem State.bump_masks (s : State) (c : Ctr) (n : Nat) : (s.bump c n).masks = s.masks :=
  State.bump_keeps State.masks (fun _ _ _ => rfl) s c n
@[simp] theorem State.bump_carries (s : State) (c : Ctr) (n : Nat) : (s.bump c n).carries = s.carries :=
  State.bump_keeps State.carries (fun _ _ _ => rfl) s c n
@[simp] theorem State.bump_issue (s : State) (c : Ctr) (n : Nat) : (s.bump c n).issue = s.issue :=
  State.bump_keeps State.issue (fun _ _ _ => rfl) s c n
@[simp] theorem State.bump_xfers (s : State) (c : Ctr) (n : Nat) : (s.bump c n).xfers = s.xfers :=
  State.bump_keeps State.xfers (fun _ _ _ => rfl) s c n
@[simp] theorem State.bump_panelMap (s : State) (c : Ctr) (n : Nat) : (s.bump c n).panelMap = s.panelMap :=
  State.bump_keeps State.panelMap (fun _ _ _ => rfl) s c n
@[simp] theorem State.bump_panels (s : State) (c : Ctr) (n : Nat) : (s.bump c n).panels = s.panels :=
  State.bump_keeps State.panels (fun _ _ _ => rfl) s c n
@[simp] theorem State.bump_hoopMeta (s : State) (c : Ctr) (n : Nat) : (s.bump c n).hoopMeta = s.hoopMeta :=
  State.bump_keeps State.hoopMeta (fun _ _ _ => rfl) s c n
@[simp] theorem State.bump_arb (s : State) (c : Ctr) (n : Nat) : (s.bump c n).arb = s.arb :=
  State.bump_keeps State.arb (fun _ _ _ => rfl) s c n
@[simp] theorem State.bump_motif (s : State) (c : Ctr) (n : Nat) : (s.bump c n).motif = s.motif :=
  State.bump_keeps State.motif (fun _ _ _ => rfl) s c n
@[simp] theorem State.bump_scale (s : State) (c : Ctr) (n : Nat) : (s.bump c n).scale = s.scale :=
  State.bump_keeps State.scale (fun _ _ _ => rfl) s c n
@[simp] theorem State.bump_twist (s : State) (c : Ctr) (n : Nat) : (s.bump c n).twist = s.twist :=
  State.bump_keeps State.twist (fun _ _ _ => rfl) s c n
@[simp] theorem State.bump_edging (s : State) (c : Ctr) (n : Nat) : (s.bump c n).edging = s.edging :=
  State.bump_keeps State.edging (fun _ _ _ => rfl) s c n
@[simp] theorem State.bump_partner (s : State) (c : Ctr) (n : Nat) : (s.bump c n).partner = s.partner :=
  State.bump_keeps State.partner (fun _ _ _ => rfl) s c n
@[simp] theorem State.bump_net (s : State) (c : Ctr) (n : Nat) : (s.bump c n).net = s.net :=
  State.bump_keeps State.net (fun _ _ _ => rfl) s c n
@[simp] theorem State.bump_mirror (s : State) (c : Ctr) (n : Nat) : (s.bump c n).mirror = s.mirror :=
  State.bump_keeps State.mirror (fun _ _ _ => rfl) s c n
@[simp] theorem State.bump_clock (s : State) (c : Ctr) (n : Nat) : (s.bump c n).clock = s.clock :=
  State.bump_keeps State.clock (fun _ _ _ => rfl) s c n
@[simp] theorem State.bump_keys (s : State) (c : Ctr) (n : Nat) : (s.bump c n).keys = s.keys :=
  State.bump_keeps State.keys (fun _ _ _ => rfl) s c n
@[simp] theorem State.bump_freeCount (s : State) (c : Ctr) (n : Nat) : (s.bump c n).freeCount = s.freeCount :=
  State.bump_keeps State.freeCount (fun _ _ _ => rfl) s c n
@[simp] theorem State.bump_testEnable (s : State) (c : Ctr) (n : Nat) : (s.bump c n).testEnable = s.testEnable :=
  State.bump_keeps State.testEnable (fun _ _ _ => rfl) s c n
@[simp] theorem State.bump_testLocal (s : State) (c : Ctr) (n : Nat) : (s.bump c n).testLocal = s.testLocal :=
  State.bump_keeps State.testLocal (fun _ _ _ => rfl) s c n
@[simp] theorem State.bump_mmioOut (s : State) (c : Ctr) (n : Nat) : (s.bump c n).mmioOut = s.mmioOut :=
  State.bump_keeps State.mmioOut (fun _ _ _ => rfl) s c n
@[simp] theorem State.bump_maskOut (s : State) (c : Ctr) (n : Nat) : (s.bump c n).maskOut = s.maskOut :=
  State.bump_keeps State.maskOut (fun _ _ _ => rfl) s c n
@[simp] theorem State.bump_outbox (s : State) (c : Ctr) (n : Nat) : (s.bump c n).outbox = s.outbox :=
  State.bump_keeps State.outbox (fun _ _ _ => rfl) s c n

/-! ### `State.setReg` -/

@[simp] theorem State.setReg_pending (s : State) (p off : Nat) (v : Word) : (s.setReg p off v).pending = s.pending :=
  rfl
@[simp] theorem State.setReg_wz (s : State) (p off : Nat) (v : Word) : (s.setReg p off v).wz = s.wz := rfl
@[simp] theorem State.setReg_package (s : State) (p off : Nat) (v : Word) : (s.setReg p off v).package = s.package :=
  rfl
@[simp] theorem State.setReg_powered (s : State) (p off : Nat) (v : Word) : (s.setReg p off v).powered = s.powered :=
  rfl
@[simp] theorem State.setReg_resetting (s : State) (p off : Nat) (v : Word) : (s.setReg p off v).resetting = s.resetting :=
  rfl
@[simp] theorem State.setReg_resetHeld (s : State) (p off : Nat) (v : Word) : (s.setReg p off v).resetHeld = s.resetHeld :=
  rfl
@[simp] theorem State.setReg_lastReset (s : State) (p off : Nat) (v : Word) : (s.setReg p off v).lastReset = s.lastReset :=
  rfl
@[simp] theorem State.setReg_rest (s : State) (p off : Nat) (v : Word) : (s.setReg p off v).rest = s.rest := rfl
@[simp] theorem State.setReg_transit (s : State) (p off : Nat) (v : Word) : (s.setReg p off v).transit = s.transit :=
  rfl
@[simp] theorem State.setReg_restRefused (s : State) (p off : Nat) (v : Word) : (s.setReg p off v).restRefused = s.restRefused :=
  rfl
@[simp] theorem State.setReg_capGen (s : State) (p off : Nat) (v : Word) : (s.setReg p off v).capGen = s.capGen := rfl
@[simp] theorem State.setReg_hoops (s : State) (p off : Nat) (v : Word) : (s.setReg p off v).hoops = s.hoops := rfl
@[simp] theorem State.setReg_fabric (s : State) (p off : Nat) (v : Word) : (s.setReg p off v).fabric = s.fabric := rfl
@[simp] theorem State.setReg_pstore (s : State) (p off : Nat) (v : Word) : (s.setReg p off v).pstore = s.pstore := rfl
@[simp] theorem State.setReg_estore (s : State) (p off : Nat) (v : Word) : (s.setReg p off v).estore = s.estore := rfl
@[simp] theorem State.setReg_ecc (s : State) (p off : Nat) (v : Word) : (s.setReg p off v).ecc = s.ecc := rfl
@[simp] theorem State.setReg_ctx (s : State) (p off : Nat) (v : Word) : (s.setReg p off v).ctx = s.ctx := rfl
@[simp] theorem State.setReg_masks (s : State) (p off : Nat) (v : Word) : (s.setReg p off v).masks = s.masks := rfl
@[simp] theorem State.setReg_carries (s : State) (p off : Nat) (v : Word) : (s.setReg p off v).carries = s.carries :=
  rfl
@[simp] theorem State.setReg_issue (s : State) (p off : Nat) (v : Word) : (s.setReg p off v).issue = s.issue := rfl
@[simp] theorem State.setReg_xfers (s : State) (p off : Nat) (v : Word) : (s.setReg p off v).xfers = s.xfers := rfl
@[simp] theorem State.setReg_panelMap (s : State) (p off : Nat) (v : Word) : (s.setReg p off v).panelMap = s.panelMap :=
  rfl
@[simp] theorem State.setReg_panels (s : State) (p off : Nat) (v : Word) : (s.setReg p off v).panels = s.panels := rfl
@[simp] theorem State.setReg_hoopMeta (s : State) (p off : Nat) (v : Word) : (s.setReg p off v).hoopMeta = s.hoopMeta :=
  rfl
@[simp] theorem State.setReg_arb (s : State) (p off : Nat) (v : Word) : (s.setReg p off v).arb = s.arb := rfl
@[simp] theorem State.setReg_motif (s : State) (p off : Nat) (v : Word) : (s.setReg p off v).motif = s.motif := rfl
@[simp] theorem State.setReg_scale (s : State) (p off : Nat) (v : Word) : (s.setReg p off v).scale = s.scale := rfl
@[simp] theorem State.setReg_twist (s : State) (p off : Nat) (v : Word) : (s.setReg p off v).twist = s.twist := rfl
@[simp] theorem State.setReg_edging (s : State) (p off : Nat) (v : Word) : (s.setReg p off v).edging = s.edging := rfl
@[simp] theorem State.setReg_partner (s : State) (p off : Nat) (v : Word) : (s.setReg p off v).partner = s.partner :=
  rfl
@[simp] theorem State.setReg_net (s : State) (p off : Nat) (v : Word) : (s.setReg p off v).net = s.net := rfl
@[simp] theorem State.setReg_mirror (s : State) (p off : Nat) (v : Word) : (s.setReg p off v).mirror = s.mirror := rfl
@[simp] theorem State.setReg_clock (s : State) (p off : Nat) (v : Word) : (s.setReg p off v).clock = s.clock := rfl
@[simp] theorem State.setReg_keys (s : State) (p off : Nat) (v : Word) : (s.setReg p off v).keys = s.keys := rfl
@[simp] theorem State.setReg_trouble (s : State) (p off : Nat) (v : Word) : (s.setReg p off v).trouble = s.trouble :=
  rfl
@[simp] theorem State.setReg_freeCount (s : State) (p off : Nat) (v : Word) : (s.setReg p off v).freeCount = s.freeCount :=
  rfl
@[simp] theorem State.setReg_testEnable (s : State) (p off : Nat) (v : Word) : (s.setReg p off v).testEnable = s.testEnable :=
  rfl
@[simp] theorem State.setReg_testLocal (s : State) (p off : Nat) (v : Word) : (s.setReg p off v).testLocal = s.testLocal :=
  rfl
@[simp] theorem State.setReg_pages (s : State) (p off : Nat) (v : Word) : (s.setReg p off v).pages = s.pages := rfl
@[simp] theorem State.setReg_mmioOut (s : State) (p off : Nat) (v : Word) : (s.setReg p off v).mmioOut = s.mmioOut :=
  rfl
@[simp] theorem State.setReg_maskOut (s : State) (p off : Nat) (v : Word) : (s.setReg p off v).maskOut = s.maskOut :=
  rfl
@[simp] theorem State.setReg_outbox (s : State) (p off : Nat) (v : Word) : (s.setReg p off v).outbox = s.outbox := rfl

/-! ### `State.modCtx` -/

@[simp] theorem State.modCtx_pending (s : State) (st : Stream) (f : Ctx → Ctx) : (s.modCtx st f).pending = s.pending :=
  by cases st <;> rfl
@[simp] theorem State.modCtx_wz (s : State) (st : Stream) (f : Ctx → Ctx) : (s.modCtx st f).wz = s.wz :=
  by cases st <;> rfl
@[simp] theorem State.modCtx_package (s : State) (st : Stream) (f : Ctx → Ctx) : (s.modCtx st f).package = s.package :=
  by cases st <;> rfl
@[simp] theorem State.modCtx_powered (s : State) (st : Stream) (f : Ctx → Ctx) : (s.modCtx st f).powered = s.powered :=
  by cases st <;> rfl
@[simp] theorem State.modCtx_resetting (s : State) (st : Stream) (f : Ctx → Ctx) : (s.modCtx st f).resetting = s.resetting :=
  by cases st <;> rfl
@[simp] theorem State.modCtx_resetHeld (s : State) (st : Stream) (f : Ctx → Ctx) : (s.modCtx st f).resetHeld = s.resetHeld :=
  by cases st <;> rfl
@[simp] theorem State.modCtx_lastReset (s : State) (st : Stream) (f : Ctx → Ctx) : (s.modCtx st f).lastReset = s.lastReset :=
  by cases st <;> rfl
@[simp] theorem State.modCtx_rest (s : State) (st : Stream) (f : Ctx → Ctx) : (s.modCtx st f).rest = s.rest :=
  by cases st <;> rfl
@[simp] theorem State.modCtx_transit (s : State) (st : Stream) (f : Ctx → Ctx) : (s.modCtx st f).transit = s.transit :=
  by cases st <;> rfl
@[simp] theorem State.modCtx_restRefused (s : State) (st : Stream) (f : Ctx → Ctx) : (s.modCtx st f).restRefused = s.restRefused :=
  by cases st <;> rfl
@[simp] theorem State.modCtx_capGen (s : State) (st : Stream) (f : Ctx → Ctx) : (s.modCtx st f).capGen = s.capGen :=
  by cases st <;> rfl
@[simp] theorem State.modCtx_hoops (s : State) (st : Stream) (f : Ctx → Ctx) : (s.modCtx st f).hoops = s.hoops :=
  by cases st <;> rfl
@[simp] theorem State.modCtx_fabric (s : State) (st : Stream) (f : Ctx → Ctx) : (s.modCtx st f).fabric = s.fabric :=
  by cases st <;> rfl
@[simp] theorem State.modCtx_pstore (s : State) (st : Stream) (f : Ctx → Ctx) : (s.modCtx st f).pstore = s.pstore :=
  by cases st <;> rfl
@[simp] theorem State.modCtx_estore (s : State) (st : Stream) (f : Ctx → Ctx) : (s.modCtx st f).estore = s.estore :=
  by cases st <;> rfl
@[simp] theorem State.modCtx_regs (s : State) (st : Stream) (f : Ctx → Ctx) : (s.modCtx st f).regs = s.regs :=
  by cases st <;> rfl
@[simp] theorem State.modCtx_ecc (s : State) (st : Stream) (f : Ctx → Ctx) : (s.modCtx st f).ecc = s.ecc :=
  by cases st <;> rfl
@[simp] theorem State.modCtx_masks (s : State) (st : Stream) (f : Ctx → Ctx) : (s.modCtx st f).masks = s.masks :=
  by cases st <;> rfl
@[simp] theorem State.modCtx_carries (s : State) (st : Stream) (f : Ctx → Ctx) : (s.modCtx st f).carries = s.carries :=
  by cases st <;> rfl
@[simp] theorem State.modCtx_issue (s : State) (st : Stream) (f : Ctx → Ctx) : (s.modCtx st f).issue = s.issue :=
  by cases st <;> rfl
@[simp] theorem State.modCtx_xfers (s : State) (st : Stream) (f : Ctx → Ctx) : (s.modCtx st f).xfers = s.xfers :=
  by cases st <;> rfl
@[simp] theorem State.modCtx_panelMap (s : State) (st : Stream) (f : Ctx → Ctx) : (s.modCtx st f).panelMap = s.panelMap :=
  by cases st <;> rfl
@[simp] theorem State.modCtx_panels (s : State) (st : Stream) (f : Ctx → Ctx) : (s.modCtx st f).panels = s.panels :=
  by cases st <;> rfl
@[simp] theorem State.modCtx_hoopMeta (s : State) (st : Stream) (f : Ctx → Ctx) : (s.modCtx st f).hoopMeta = s.hoopMeta :=
  by cases st <;> rfl
@[simp] theorem State.modCtx_arb (s : State) (st : Stream) (f : Ctx → Ctx) : (s.modCtx st f).arb = s.arb :=
  by cases st <;> rfl
@[simp] theorem State.modCtx_motif (s : State) (st : Stream) (f : Ctx → Ctx) : (s.modCtx st f).motif = s.motif :=
  by cases st <;> rfl
@[simp] theorem State.modCtx_scale (s : State) (st : Stream) (f : Ctx → Ctx) : (s.modCtx st f).scale = s.scale :=
  by cases st <;> rfl
@[simp] theorem State.modCtx_twist (s : State) (st : Stream) (f : Ctx → Ctx) : (s.modCtx st f).twist = s.twist :=
  by cases st <;> rfl
@[simp] theorem State.modCtx_partner (s : State) (st : Stream) (f : Ctx → Ctx) : (s.modCtx st f).partner = s.partner :=
  by cases st <;> rfl
@[simp] theorem State.modCtx_net (s : State) (st : Stream) (f : Ctx → Ctx) : (s.modCtx st f).net = s.net :=
  by cases st <;> rfl
@[simp] theorem State.modCtx_mirror (s : State) (st : Stream) (f : Ctx → Ctx) : (s.modCtx st f).mirror = s.mirror :=
  by cases st <;> rfl
@[simp] theorem State.modCtx_clock (s : State) (st : Stream) (f : Ctx → Ctx) : (s.modCtx st f).clock = s.clock :=
  by cases st <;> rfl
@[simp] theorem State.modCtx_keys (s : State) (st : Stream) (f : Ctx → Ctx) : (s.modCtx st f).keys = s.keys :=
  by cases st <;> rfl
@[simp] theorem State.modCtx_trouble (s : State) (st : Stream) (f : Ctx → Ctx) : (s.modCtx st f).trouble = s.trouble :=
  by cases st <;> rfl
@[simp] theorem State.modCtx_freeCount (s : State) (st : Stream) (f : Ctx → Ctx) : (s.modCtx st f).freeCount = s.freeCount :=
  by cases st <;> rfl
@[simp] theorem State.modCtx_testEnable (s : State) (st : Stream) (f : Ctx → Ctx) : (s.modCtx st f).testEnable = s.testEnable :=
  by cases st <;> rfl
@[simp] theorem State.modCtx_testLocal (s : State) (st : Stream) (f : Ctx → Ctx) : (s.modCtx st f).testLocal = s.testLocal :=
  by cases st <;> rfl
@[simp] theorem State.modCtx_pages (s : State) (st : Stream) (f : Ctx → Ctx) : (s.modCtx st f).pages = s.pages :=
  by cases st <;> rfl
@[simp] theorem State.modCtx_mmioOut (s : State) (st : Stream) (f : Ctx → Ctx) : (s.modCtx st f).mmioOut = s.mmioOut :=
  by cases st <;> rfl
@[simp] theorem State.modCtx_maskOut (s : State) (st : Stream) (f : Ctx → Ctx) : (s.modCtx st f).maskOut = s.maskOut :=
  by cases st <;> rfl
@[simp] theorem State.modCtx_outbox (s : State) (st : Stream) (f : Ctx → Ctx) : (s.modCtx st f).outbox = s.outbox :=
  by cases st <;> rfl

/-! ### `State.setMask` -/

@[simp] theorem State.setMask_pending (s : State) (k : Nat) (m : BitVec 4096) : (s.setMask k m).pending = s.pending :=
  by unfold State.setMask; split <;> rfl
@[simp] theorem State.setMask_wz (s : State) (k : Nat) (m : BitVec 4096) : (s.setMask k m).wz = s.wz :=
  by unfold State.setMask; split <;> rfl
@[simp] theorem State.setMask_package (s : State) (k : Nat) (m : BitVec 4096) : (s.setMask k m).package = s.package :=
  by unfold State.setMask; split <;> rfl
@[simp] theorem State.setMask_powered (s : State) (k : Nat) (m : BitVec 4096) : (s.setMask k m).powered = s.powered :=
  by unfold State.setMask; split <;> rfl
@[simp] theorem State.setMask_resetting (s : State) (k : Nat) (m : BitVec 4096) : (s.setMask k m).resetting = s.resetting :=
  by unfold State.setMask; split <;> rfl
@[simp] theorem State.setMask_resetHeld (s : State) (k : Nat) (m : BitVec 4096) : (s.setMask k m).resetHeld = s.resetHeld :=
  by unfold State.setMask; split <;> rfl
@[simp] theorem State.setMask_lastReset (s : State) (k : Nat) (m : BitVec 4096) : (s.setMask k m).lastReset = s.lastReset :=
  by unfold State.setMask; split <;> rfl
@[simp] theorem State.setMask_rest (s : State) (k : Nat) (m : BitVec 4096) : (s.setMask k m).rest = s.rest :=
  by unfold State.setMask; split <;> rfl
@[simp] theorem State.setMask_transit (s : State) (k : Nat) (m : BitVec 4096) : (s.setMask k m).transit = s.transit :=
  by unfold State.setMask; split <;> rfl
@[simp] theorem State.setMask_restRefused (s : State) (k : Nat) (m : BitVec 4096) : (s.setMask k m).restRefused = s.restRefused :=
  by unfold State.setMask; split <;> rfl
@[simp] theorem State.setMask_capGen (s : State) (k : Nat) (m : BitVec 4096) : (s.setMask k m).capGen = s.capGen :=
  by unfold State.setMask; split <;> rfl
@[simp] theorem State.setMask_hoops (s : State) (k : Nat) (m : BitVec 4096) : (s.setMask k m).hoops = s.hoops :=
  by unfold State.setMask; split <;> rfl
@[simp] theorem State.setMask_fabric (s : State) (k : Nat) (m : BitVec 4096) : (s.setMask k m).fabric = s.fabric :=
  by unfold State.setMask; split <;> rfl
@[simp] theorem State.setMask_pstore (s : State) (k : Nat) (m : BitVec 4096) : (s.setMask k m).pstore = s.pstore :=
  by unfold State.setMask; split <;> rfl
@[simp] theorem State.setMask_estore (s : State) (k : Nat) (m : BitVec 4096) : (s.setMask k m).estore = s.estore :=
  by unfold State.setMask; split <;> rfl
@[simp] theorem State.setMask_regs (s : State) (k : Nat) (m : BitVec 4096) : (s.setMask k m).regs = s.regs :=
  by unfold State.setMask; split <;> rfl
@[simp] theorem State.setMask_ecc (s : State) (k : Nat) (m : BitVec 4096) : (s.setMask k m).ecc = s.ecc :=
  by unfold State.setMask; split <;> rfl
@[simp] theorem State.setMask_ctx (s : State) (k : Nat) (m : BitVec 4096) : (s.setMask k m).ctx = s.ctx :=
  by unfold State.setMask; split <;> rfl
@[simp] theorem State.setMask_carries (s : State) (k : Nat) (m : BitVec 4096) : (s.setMask k m).carries = s.carries :=
  by unfold State.setMask; split <;> rfl
@[simp] theorem State.setMask_issue (s : State) (k : Nat) (m : BitVec 4096) : (s.setMask k m).issue = s.issue :=
  by unfold State.setMask; split <;> rfl
@[simp] theorem State.setMask_xfers (s : State) (k : Nat) (m : BitVec 4096) : (s.setMask k m).xfers = s.xfers :=
  by unfold State.setMask; split <;> rfl
@[simp] theorem State.setMask_panelMap (s : State) (k : Nat) (m : BitVec 4096) : (s.setMask k m).panelMap = s.panelMap :=
  by unfold State.setMask; split <;> rfl
@[simp] theorem State.setMask_panels (s : State) (k : Nat) (m : BitVec 4096) : (s.setMask k m).panels = s.panels :=
  by unfold State.setMask; split <;> rfl
@[simp] theorem State.setMask_hoopMeta (s : State) (k : Nat) (m : BitVec 4096) : (s.setMask k m).hoopMeta = s.hoopMeta :=
  by unfold State.setMask; split <;> rfl
@[simp] theorem State.setMask_arb (s : State) (k : Nat) (m : BitVec 4096) : (s.setMask k m).arb = s.arb :=
  by unfold State.setMask; split <;> rfl
@[simp] theorem State.setMask_motif (s : State) (k : Nat) (m : BitVec 4096) : (s.setMask k m).motif = s.motif :=
  by unfold State.setMask; split <;> rfl
@[simp] theorem State.setMask_scale (s : State) (k : Nat) (m : BitVec 4096) : (s.setMask k m).scale = s.scale :=
  by unfold State.setMask; split <;> rfl
@[simp] theorem State.setMask_twist (s : State) (k : Nat) (m : BitVec 4096) : (s.setMask k m).twist = s.twist :=
  by unfold State.setMask; split <;> rfl
@[simp] theorem State.setMask_edging (s : State) (k : Nat) (m : BitVec 4096) : (s.setMask k m).edging = s.edging :=
  by unfold State.setMask; split <;> rfl
@[simp] theorem State.setMask_partner (s : State) (k : Nat) (m : BitVec 4096) : (s.setMask k m).partner = s.partner :=
  by unfold State.setMask; split <;> rfl
@[simp] theorem State.setMask_net (s : State) (k : Nat) (m : BitVec 4096) : (s.setMask k m).net = s.net :=
  by unfold State.setMask; split <;> rfl
@[simp] theorem State.setMask_mirror (s : State) (k : Nat) (m : BitVec 4096) : (s.setMask k m).mirror = s.mirror :=
  by unfold State.setMask; split <;> rfl
@[simp] theorem State.setMask_clock (s : State) (k : Nat) (m : BitVec 4096) : (s.setMask k m).clock = s.clock :=
  by unfold State.setMask; split <;> rfl
@[simp] theorem State.setMask_keys (s : State) (k : Nat) (m : BitVec 4096) : (s.setMask k m).keys = s.keys :=
  by unfold State.setMask; split <;> rfl
@[simp] theorem State.setMask_trouble (s : State) (k : Nat) (m : BitVec 4096) : (s.setMask k m).trouble = s.trouble :=
  by unfold State.setMask; split <;> rfl
@[simp] theorem State.setMask_freeCount (s : State) (k : Nat) (m : BitVec 4096) : (s.setMask k m).freeCount = s.freeCount :=
  by unfold State.setMask; split <;> rfl
@[simp] theorem State.setMask_testEnable (s : State) (k : Nat) (m : BitVec 4096) : (s.setMask k m).testEnable = s.testEnable :=
  by unfold State.setMask; split <;> rfl
@[simp] theorem State.setMask_testLocal (s : State) (k : Nat) (m : BitVec 4096) : (s.setMask k m).testLocal = s.testLocal :=
  by unfold State.setMask; split <;> rfl
@[simp] theorem State.setMask_pages (s : State) (k : Nat) (m : BitVec 4096) : (s.setMask k m).pages = s.pages :=
  by unfold State.setMask; split <;> rfl
@[simp] theorem State.setMask_mmioOut (s : State) (k : Nat) (m : BitVec 4096) : (s.setMask k m).mmioOut = s.mmioOut :=
  by unfold State.setMask; split <;> rfl
@[simp] theorem State.setMask_maskOut (s : State) (k : Nat) (m : BitVec 4096) : (s.setMask k m).maskOut = s.maskOut :=
  by unfold State.setMask; split <;> rfl
@[simp] theorem State.setMask_outbox (s : State) (k : Nat) (m : BitVec 4096) : (s.setMask k m).outbox = s.outbox :=
  by unfold State.setMask; split <;> rfl

/-! ### `State.writeSlab` -/

@[simp] theorem State.writeSlab_pending (s : State) (h k : Nat) (bs : List Byte) : (s.writeSlab h k bs).pending = s.pending :=
  rfl
@[simp] theorem State.writeSlab_wz (s : State) (h k : Nat) (bs : List Byte) : (s.writeSlab h k bs).wz = s.wz := rfl
@[simp] theorem State.writeSlab_package (s : State) (h k : Nat) (bs : List Byte) : (s.writeSlab h k bs).package = s.package :=
  rfl
@[simp] theorem State.writeSlab_powered (s : State) (h k : Nat) (bs : List Byte) : (s.writeSlab h k bs).powered = s.powered :=
  rfl
@[simp] theorem State.writeSlab_resetting (s : State) (h k : Nat) (bs : List Byte) : (s.writeSlab h k bs).resetting = s.resetting :=
  rfl
@[simp] theorem State.writeSlab_resetHeld (s : State) (h k : Nat) (bs : List Byte) : (s.writeSlab h k bs).resetHeld = s.resetHeld :=
  rfl
@[simp] theorem State.writeSlab_lastReset (s : State) (h k : Nat) (bs : List Byte) : (s.writeSlab h k bs).lastReset = s.lastReset :=
  rfl
@[simp] theorem State.writeSlab_rest (s : State) (h k : Nat) (bs : List Byte) : (s.writeSlab h k bs).rest = s.rest :=
  rfl
@[simp] theorem State.writeSlab_transit (s : State) (h k : Nat) (bs : List Byte) : (s.writeSlab h k bs).transit = s.transit :=
  rfl
@[simp] theorem State.writeSlab_restRefused (s : State) (h k : Nat) (bs : List Byte) : (s.writeSlab h k bs).restRefused = s.restRefused :=
  rfl
@[simp] theorem State.writeSlab_capGen (s : State) (h k : Nat) (bs : List Byte) : (s.writeSlab h k bs).capGen = s.capGen :=
  rfl
@[simp] theorem State.writeSlab_fabric (s : State) (h k : Nat) (bs : List Byte) : (s.writeSlab h k bs).fabric = s.fabric :=
  rfl
@[simp] theorem State.writeSlab_pstore (s : State) (h k : Nat) (bs : List Byte) : (s.writeSlab h k bs).pstore = s.pstore :=
  rfl
@[simp] theorem State.writeSlab_estore (s : State) (h k : Nat) (bs : List Byte) : (s.writeSlab h k bs).estore = s.estore :=
  rfl
@[simp] theorem State.writeSlab_regs (s : State) (h k : Nat) (bs : List Byte) : (s.writeSlab h k bs).regs = s.regs :=
  rfl
@[simp] theorem State.writeSlab_ctx (s : State) (h k : Nat) (bs : List Byte) : (s.writeSlab h k bs).ctx = s.ctx := rfl
@[simp] theorem State.writeSlab_masks (s : State) (h k : Nat) (bs : List Byte) : (s.writeSlab h k bs).masks = s.masks :=
  rfl
@[simp] theorem State.writeSlab_carries (s : State) (h k : Nat) (bs : List Byte) : (s.writeSlab h k bs).carries = s.carries :=
  rfl
@[simp] theorem State.writeSlab_issue (s : State) (h k : Nat) (bs : List Byte) : (s.writeSlab h k bs).issue = s.issue :=
  rfl
@[simp] theorem State.writeSlab_xfers (s : State) (h k : Nat) (bs : List Byte) : (s.writeSlab h k bs).xfers = s.xfers :=
  rfl
@[simp] theorem State.writeSlab_panelMap (s : State) (h k : Nat) (bs : List Byte) : (s.writeSlab h k bs).panelMap = s.panelMap :=
  rfl
@[simp] theorem State.writeSlab_panels (s : State) (h k : Nat) (bs : List Byte) : (s.writeSlab h k bs).panels = s.panels :=
  rfl
@[simp] theorem State.writeSlab_hoopMeta (s : State) (h k : Nat) (bs : List Byte) : (s.writeSlab h k bs).hoopMeta = s.hoopMeta :=
  rfl
@[simp] theorem State.writeSlab_arb (s : State) (h k : Nat) (bs : List Byte) : (s.writeSlab h k bs).arb = s.arb := rfl
@[simp] theorem State.writeSlab_motif (s : State) (h k : Nat) (bs : List Byte) : (s.writeSlab h k bs).motif = s.motif :=
  rfl
@[simp] theorem State.writeSlab_scale (s : State) (h k : Nat) (bs : List Byte) : (s.writeSlab h k bs).scale = s.scale :=
  rfl
@[simp] theorem State.writeSlab_twist (s : State) (h k : Nat) (bs : List Byte) : (s.writeSlab h k bs).twist = s.twist :=
  rfl
@[simp] theorem State.writeSlab_edging (s : State) (h k : Nat) (bs : List Byte) : (s.writeSlab h k bs).edging = s.edging :=
  rfl
@[simp] theorem State.writeSlab_partner (s : State) (h k : Nat) (bs : List Byte) : (s.writeSlab h k bs).partner = s.partner :=
  rfl
@[simp] theorem State.writeSlab_net (s : State) (h k : Nat) (bs : List Byte) : (s.writeSlab h k bs).net = s.net := rfl
@[simp] theorem State.writeSlab_mirror (s : State) (h k : Nat) (bs : List Byte) : (s.writeSlab h k bs).mirror = s.mirror :=
  rfl
@[simp] theorem State.writeSlab_clock (s : State) (h k : Nat) (bs : List Byte) : (s.writeSlab h k bs).clock = s.clock :=
  rfl
@[simp] theorem State.writeSlab_keys (s : State) (h k : Nat) (bs : List Byte) : (s.writeSlab h k bs).keys = s.keys :=
  rfl
@[simp] theorem State.writeSlab_trouble (s : State) (h k : Nat) (bs : List Byte) : (s.writeSlab h k bs).trouble = s.trouble :=
  rfl
@[simp] theorem State.writeSlab_freeCount (s : State) (h k : Nat) (bs : List Byte) : (s.writeSlab h k bs).freeCount = s.freeCount :=
  rfl
@[simp] theorem State.writeSlab_testEnable (s : State) (h k : Nat) (bs : List Byte) : (s.writeSlab h k bs).testEnable = s.testEnable :=
  rfl
@[simp] theorem State.writeSlab_testLocal (s : State) (h k : Nat) (bs : List Byte) : (s.writeSlab h k bs).testLocal = s.testLocal :=
  rfl
@[simp] theorem State.writeSlab_pages (s : State) (h k : Nat) (bs : List Byte) : (s.writeSlab h k bs).pages = s.pages :=
  rfl
@[simp] theorem State.writeSlab_mmioOut (s : State) (h k : Nat) (bs : List Byte) : (s.writeSlab h k bs).mmioOut = s.mmioOut :=
  rfl
@[simp] theorem State.writeSlab_maskOut (s : State) (h k : Nat) (bs : List Byte) : (s.writeSlab h k bs).maskOut = s.maskOut :=
  rfl
@[simp] theorem State.writeSlab_outbox (s : State) (h k : Nat) (bs : List Byte) : (s.writeSlab h k bs).outbox = s.outbox :=
  rfl

/-! ### `State.mergeSlab` -/

@[simp] theorem State.mergeSlab_pending (s : State) (h k : Nat) (bs : List Byte) (on : Nat → Bool) : (s.mergeSlab h k bs on).pending = s.pending :=
  rfl
@[simp] theorem State.mergeSlab_wz (s : State) (h k : Nat) (bs : List Byte) (on : Nat → Bool) : (s.mergeSlab h k bs on).wz = s.wz := rfl
@[simp] theorem State.mergeSlab_package (s : State) (h k : Nat) (bs : List Byte) (on : Nat → Bool) : (s.mergeSlab h k bs on).package = s.package :=
  rfl
@[simp] theorem State.mergeSlab_powered (s : State) (h k : Nat) (bs : List Byte) (on : Nat → Bool) : (s.mergeSlab h k bs on).powered = s.powered :=
  rfl
@[simp] theorem State.mergeSlab_resetting (s : State) (h k : Nat) (bs : List Byte) (on : Nat → Bool) : (s.mergeSlab h k bs on).resetting = s.resetting :=
  rfl
@[simp] theorem State.mergeSlab_resetHeld (s : State) (h k : Nat) (bs : List Byte) (on : Nat → Bool) : (s.mergeSlab h k bs on).resetHeld = s.resetHeld :=
  rfl
@[simp] theorem State.mergeSlab_lastReset (s : State) (h k : Nat) (bs : List Byte) (on : Nat → Bool) : (s.mergeSlab h k bs on).lastReset = s.lastReset :=
  rfl
@[simp] theorem State.mergeSlab_rest (s : State) (h k : Nat) (bs : List Byte) (on : Nat → Bool) : (s.mergeSlab h k bs on).rest = s.rest :=
  rfl
@[simp] theorem State.mergeSlab_transit (s : State) (h k : Nat) (bs : List Byte) (on : Nat → Bool) : (s.mergeSlab h k bs on).transit = s.transit :=
  rfl
@[simp] theorem State.mergeSlab_restRefused (s : State) (h k : Nat) (bs : List Byte) (on : Nat → Bool) : (s.mergeSlab h k bs on).restRefused = s.restRefused :=
  rfl
@[simp] theorem State.mergeSlab_capGen (s : State) (h k : Nat) (bs : List Byte) (on : Nat → Bool) : (s.mergeSlab h k bs on).capGen = s.capGen :=
  rfl
@[simp] theorem State.mergeSlab_fabric (s : State) (h k : Nat) (bs : List Byte) (on : Nat → Bool) : (s.mergeSlab h k bs on).fabric = s.fabric :=
  rfl
@[simp] theorem State.mergeSlab_pstore (s : State) (h k : Nat) (bs : List Byte) (on : Nat → Bool) : (s.mergeSlab h k bs on).pstore = s.pstore :=
  rfl
@[simp] theorem State.mergeSlab_estore (s : State) (h k : Nat) (bs : List Byte) (on : Nat → Bool) : (s.mergeSlab h k bs on).estore = s.estore :=
  rfl
@[simp] theorem State.mergeSlab_regs (s : State) (h k : Nat) (bs : List Byte) (on : Nat → Bool) : (s.mergeSlab h k bs on).regs = s.regs :=
  rfl
@[simp] theorem State.mergeSlab_ctx (s : State) (h k : Nat) (bs : List Byte) (on : Nat → Bool) : (s.mergeSlab h k bs on).ctx = s.ctx := rfl
@[simp] theorem State.mergeSlab_masks (s : State) (h k : Nat) (bs : List Byte) (on : Nat → Bool) : (s.mergeSlab h k bs on).masks = s.masks :=
  rfl
@[simp] theorem State.mergeSlab_carries (s : State) (h k : Nat) (bs : List Byte) (on : Nat → Bool) : (s.mergeSlab h k bs on).carries = s.carries :=
  rfl
@[simp] theorem State.mergeSlab_issue (s : State) (h k : Nat) (bs : List Byte) (on : Nat → Bool) : (s.mergeSlab h k bs on).issue = s.issue :=
  rfl
@[simp] theorem State.mergeSlab_xfers (s : State) (h k : Nat) (bs : List Byte) (on : Nat → Bool) : (s.mergeSlab h k bs on).xfers = s.xfers :=
  rfl
@[simp] theorem State.mergeSlab_panelMap (s : State) (h k : Nat) (bs : List Byte) (on : Nat → Bool) : (s.mergeSlab h k bs on).panelMap = s.panelMap :=
  rfl
@[simp] theorem State.mergeSlab_panels (s : State) (h k : Nat) (bs : List Byte) (on : Nat → Bool) : (s.mergeSlab h k bs on).panels = s.panels :=
  rfl
@[simp] theorem State.mergeSlab_hoopMeta (s : State) (h k : Nat) (bs : List Byte) (on : Nat → Bool) : (s.mergeSlab h k bs on).hoopMeta = s.hoopMeta :=
  rfl
@[simp] theorem State.mergeSlab_arb (s : State) (h k : Nat) (bs : List Byte) (on : Nat → Bool) : (s.mergeSlab h k bs on).arb = s.arb := rfl
@[simp] theorem State.mergeSlab_motif (s : State) (h k : Nat) (bs : List Byte) (on : Nat → Bool) : (s.mergeSlab h k bs on).motif = s.motif :=
  rfl
@[simp] theorem State.mergeSlab_scale (s : State) (h k : Nat) (bs : List Byte) (on : Nat → Bool) : (s.mergeSlab h k bs on).scale = s.scale :=
  rfl
@[simp] theorem State.mergeSlab_twist (s : State) (h k : Nat) (bs : List Byte) (on : Nat → Bool) : (s.mergeSlab h k bs on).twist = s.twist :=
  rfl
@[simp] theorem State.mergeSlab_edging (s : State) (h k : Nat) (bs : List Byte) (on : Nat → Bool) : (s.mergeSlab h k bs on).edging = s.edging :=
  rfl
@[simp] theorem State.mergeSlab_partner (s : State) (h k : Nat) (bs : List Byte) (on : Nat → Bool) : (s.mergeSlab h k bs on).partner = s.partner :=
  rfl
@[simp] theorem State.mergeSlab_net (s : State) (h k : Nat) (bs : List Byte) (on : Nat → Bool) : (s.mergeSlab h k bs on).net = s.net := rfl
@[simp] theorem State.mergeSlab_mirror (s : State) (h k : Nat) (bs : List Byte) (on : Nat → Bool) : (s.mergeSlab h k bs on).mirror = s.mirror :=
  rfl
@[simp] theorem State.mergeSlab_clock (s : State) (h k : Nat) (bs : List Byte) (on : Nat → Bool) : (s.mergeSlab h k bs on).clock = s.clock :=
  rfl
@[simp] theorem State.mergeSlab_keys (s : State) (h k : Nat) (bs : List Byte) (on : Nat → Bool) : (s.mergeSlab h k bs on).keys = s.keys :=
  rfl
@[simp] theorem State.mergeSlab_trouble (s : State) (h k : Nat) (bs : List Byte) (on : Nat → Bool) : (s.mergeSlab h k bs on).trouble = s.trouble :=
  rfl
@[simp] theorem State.mergeSlab_freeCount (s : State) (h k : Nat) (bs : List Byte) (on : Nat → Bool) : (s.mergeSlab h k bs on).freeCount = s.freeCount :=
  rfl
@[simp] theorem State.mergeSlab_testEnable (s : State) (h k : Nat) (bs : List Byte) (on : Nat → Bool) : (s.mergeSlab h k bs on).testEnable = s.testEnable :=
  rfl
@[simp] theorem State.mergeSlab_testLocal (s : State) (h k : Nat) (bs : List Byte) (on : Nat → Bool) : (s.mergeSlab h k bs on).testLocal = s.testLocal :=
  rfl
@[simp] theorem State.mergeSlab_pages (s : State) (h k : Nat) (bs : List Byte) (on : Nat → Bool) : (s.mergeSlab h k bs on).pages = s.pages :=
  rfl
@[simp] theorem State.mergeSlab_mmioOut (s : State) (h k : Nat) (bs : List Byte) (on : Nat → Bool) : (s.mergeSlab h k bs on).mmioOut = s.mmioOut :=
  rfl
@[simp] theorem State.mergeSlab_maskOut (s : State) (h k : Nat) (bs : List Byte) (on : Nat → Bool) : (s.mergeSlab h k bs on).maskOut = s.maskOut :=
  rfl
@[simp] theorem State.mergeSlab_outbox (s : State) (h k : Nat) (bs : List Byte) (on : Nat → Bool) : (s.mergeSlab h k bs on).outbox = s.outbox :=
  rfl

/-! ### `State.setMslot` -/

@[simp] theorem State.setMslot_pending (s : State) (i : Nat) (x : MotifSlot) : (s.setMslot i x).pending = s.pending :=
  rfl
@[simp] theorem State.setMslot_wz (s : State) (i : Nat) (x : MotifSlot) : (s.setMslot i x).wz = s.wz := rfl
@[simp] theorem State.setMslot_package (s : State) (i : Nat) (x : MotifSlot) : (s.setMslot i x).package = s.package :=
  rfl
@[simp] theorem State.setMslot_powered (s : State) (i : Nat) (x : MotifSlot) : (s.setMslot i x).powered = s.powered :=
  rfl
@[simp] theorem State.setMslot_resetting (s : State) (i : Nat) (x : MotifSlot) : (s.setMslot i x).resetting = s.resetting :=
  rfl
@[simp] theorem State.setMslot_resetHeld (s : State) (i : Nat) (x : MotifSlot) : (s.setMslot i x).resetHeld = s.resetHeld :=
  rfl
@[simp] theorem State.setMslot_lastReset (s : State) (i : Nat) (x : MotifSlot) : (s.setMslot i x).lastReset = s.lastReset :=
  rfl
@[simp] theorem State.setMslot_rest (s : State) (i : Nat) (x : MotifSlot) : (s.setMslot i x).rest = s.rest := rfl
@[simp] theorem State.setMslot_transit (s : State) (i : Nat) (x : MotifSlot) : (s.setMslot i x).transit = s.transit :=
  rfl
@[simp] theorem State.setMslot_restRefused (s : State) (i : Nat) (x : MotifSlot) : (s.setMslot i x).restRefused = s.restRefused :=
  rfl
@[simp] theorem State.setMslot_capGen (s : State) (i : Nat) (x : MotifSlot) : (s.setMslot i x).capGen = s.capGen :=
  rfl
@[simp] theorem State.setMslot_hoops (s : State) (i : Nat) (x : MotifSlot) : (s.setMslot i x).hoops = s.hoops := rfl
@[simp] theorem State.setMslot_fabric (s : State) (i : Nat) (x : MotifSlot) : (s.setMslot i x).fabric = s.fabric :=
  rfl
@[simp] theorem State.setMslot_pstore (s : State) (i : Nat) (x : MotifSlot) : (s.setMslot i x).pstore = s.pstore :=
  rfl
@[simp] theorem State.setMslot_estore (s : State) (i : Nat) (x : MotifSlot) : (s.setMslot i x).estore = s.estore :=
  rfl
@[simp] theorem State.setMslot_regs (s : State) (i : Nat) (x : MotifSlot) : (s.setMslot i x).regs = s.regs := rfl
@[simp] theorem State.setMslot_ecc (s : State) (i : Nat) (x : MotifSlot) : (s.setMslot i x).ecc = s.ecc := rfl
@[simp] theorem State.setMslot_ctx (s : State) (i : Nat) (x : MotifSlot) : (s.setMslot i x).ctx = s.ctx := rfl
@[simp] theorem State.setMslot_masks (s : State) (i : Nat) (x : MotifSlot) : (s.setMslot i x).masks = s.masks := rfl
@[simp] theorem State.setMslot_carries (s : State) (i : Nat) (x : MotifSlot) : (s.setMslot i x).carries = s.carries :=
  rfl
@[simp] theorem State.setMslot_issue (s : State) (i : Nat) (x : MotifSlot) : (s.setMslot i x).issue = s.issue := rfl
@[simp] theorem State.setMslot_xfers (s : State) (i : Nat) (x : MotifSlot) : (s.setMslot i x).xfers = s.xfers := rfl
@[simp] theorem State.setMslot_panelMap (s : State) (i : Nat) (x : MotifSlot) : (s.setMslot i x).panelMap = s.panelMap :=
  rfl
@[simp] theorem State.setMslot_panels (s : State) (i : Nat) (x : MotifSlot) : (s.setMslot i x).panels = s.panels :=
  rfl
@[simp] theorem State.setMslot_hoopMeta (s : State) (i : Nat) (x : MotifSlot) : (s.setMslot i x).hoopMeta = s.hoopMeta :=
  rfl
@[simp] theorem State.setMslot_arb (s : State) (i : Nat) (x : MotifSlot) : (s.setMslot i x).arb = s.arb := rfl
@[simp] theorem State.setMslot_scale (s : State) (i : Nat) (x : MotifSlot) : (s.setMslot i x).scale = s.scale := rfl
@[simp] theorem State.setMslot_twist (s : State) (i : Nat) (x : MotifSlot) : (s.setMslot i x).twist = s.twist := rfl
@[simp] theorem State.setMslot_edging (s : State) (i : Nat) (x : MotifSlot) : (s.setMslot i x).edging = s.edging :=
  rfl
@[simp] theorem State.setMslot_partner (s : State) (i : Nat) (x : MotifSlot) : (s.setMslot i x).partner = s.partner :=
  rfl
@[simp] theorem State.setMslot_net (s : State) (i : Nat) (x : MotifSlot) : (s.setMslot i x).net = s.net := rfl
@[simp] theorem State.setMslot_mirror (s : State) (i : Nat) (x : MotifSlot) : (s.setMslot i x).mirror = s.mirror :=
  rfl
@[simp] theorem State.setMslot_clock (s : State) (i : Nat) (x : MotifSlot) : (s.setMslot i x).clock = s.clock := rfl
@[simp] theorem State.setMslot_keys (s : State) (i : Nat) (x : MotifSlot) : (s.setMslot i x).keys = s.keys := rfl
@[simp] theorem State.setMslot_trouble (s : State) (i : Nat) (x : MotifSlot) : (s.setMslot i x).trouble = s.trouble :=
  rfl
@[simp] theorem State.setMslot_freeCount (s : State) (i : Nat) (x : MotifSlot) : (s.setMslot i x).freeCount = s.freeCount :=
  rfl
@[simp] theorem State.setMslot_testEnable (s : State) (i : Nat) (x : MotifSlot) : (s.setMslot i x).testEnable = s.testEnable :=
  rfl
@[simp] theorem State.setMslot_testLocal (s : State) (i : Nat) (x : MotifSlot) : (s.setMslot i x).testLocal = s.testLocal :=
  rfl
@[simp] theorem State.setMslot_pages (s : State) (i : Nat) (x : MotifSlot) : (s.setMslot i x).pages = s.pages := rfl
@[simp] theorem State.setMslot_mmioOut (s : State) (i : Nat) (x : MotifSlot) : (s.setMslot i x).mmioOut = s.mmioOut :=
  rfl
@[simp] theorem State.setMslot_maskOut (s : State) (i : Nat) (x : MotifSlot) : (s.setMslot i x).maskOut = s.maskOut :=
  rfl
@[simp] theorem State.setMslot_outbox (s : State) (i : Nat) (x : MotifSlot) : (s.setMslot i x).outbox = s.outbox :=
  rfl

/-! ### `State.setSlot` -/

@[simp] theorem State.setSlot_pending (s : State) (i : Nat) (x : ScaleSlot) : (s.setSlot i x).pending = s.pending :=
  rfl
@[simp] theorem State.setSlot_wz (s : State) (i : Nat) (x : ScaleSlot) : (s.setSlot i x).wz = s.wz := rfl
@[simp] theorem State.setSlot_package (s : State) (i : Nat) (x : ScaleSlot) : (s.setSlot i x).package = s.package :=
  rfl
@[simp] theorem State.setSlot_powered (s : State) (i : Nat) (x : ScaleSlot) : (s.setSlot i x).powered = s.powered :=
  rfl
@[simp] theorem State.setSlot_resetting (s : State) (i : Nat) (x : ScaleSlot) : (s.setSlot i x).resetting = s.resetting :=
  rfl
@[simp] theorem State.setSlot_resetHeld (s : State) (i : Nat) (x : ScaleSlot) : (s.setSlot i x).resetHeld = s.resetHeld :=
  rfl
@[simp] theorem State.setSlot_lastReset (s : State) (i : Nat) (x : ScaleSlot) : (s.setSlot i x).lastReset = s.lastReset :=
  rfl
@[simp] theorem State.setSlot_rest (s : State) (i : Nat) (x : ScaleSlot) : (s.setSlot i x).rest = s.rest := rfl
@[simp] theorem State.setSlot_transit (s : State) (i : Nat) (x : ScaleSlot) : (s.setSlot i x).transit = s.transit :=
  rfl
@[simp] theorem State.setSlot_restRefused (s : State) (i : Nat) (x : ScaleSlot) : (s.setSlot i x).restRefused = s.restRefused :=
  rfl
@[simp] theorem State.setSlot_capGen (s : State) (i : Nat) (x : ScaleSlot) : (s.setSlot i x).capGen = s.capGen := rfl
@[simp] theorem State.setSlot_hoops (s : State) (i : Nat) (x : ScaleSlot) : (s.setSlot i x).hoops = s.hoops := rfl
@[simp] theorem State.setSlot_fabric (s : State) (i : Nat) (x : ScaleSlot) : (s.setSlot i x).fabric = s.fabric := rfl
@[simp] theorem State.setSlot_pstore (s : State) (i : Nat) (x : ScaleSlot) : (s.setSlot i x).pstore = s.pstore := rfl
@[simp] theorem State.setSlot_estore (s : State) (i : Nat) (x : ScaleSlot) : (s.setSlot i x).estore = s.estore := rfl
@[simp] theorem State.setSlot_regs (s : State) (i : Nat) (x : ScaleSlot) : (s.setSlot i x).regs = s.regs := rfl
@[simp] theorem State.setSlot_ecc (s : State) (i : Nat) (x : ScaleSlot) : (s.setSlot i x).ecc = s.ecc := rfl
@[simp] theorem State.setSlot_ctx (s : State) (i : Nat) (x : ScaleSlot) : (s.setSlot i x).ctx = s.ctx := rfl
@[simp] theorem State.setSlot_masks (s : State) (i : Nat) (x : ScaleSlot) : (s.setSlot i x).masks = s.masks := rfl
@[simp] theorem State.setSlot_carries (s : State) (i : Nat) (x : ScaleSlot) : (s.setSlot i x).carries = s.carries :=
  rfl
@[simp] theorem State.setSlot_issue (s : State) (i : Nat) (x : ScaleSlot) : (s.setSlot i x).issue = s.issue := rfl
@[simp] theorem State.setSlot_xfers (s : State) (i : Nat) (x : ScaleSlot) : (s.setSlot i x).xfers = s.xfers := rfl
@[simp] theorem State.setSlot_panelMap (s : State) (i : Nat) (x : ScaleSlot) : (s.setSlot i x).panelMap = s.panelMap :=
  rfl
@[simp] theorem State.setSlot_panels (s : State) (i : Nat) (x : ScaleSlot) : (s.setSlot i x).panels = s.panels := rfl
@[simp] theorem State.setSlot_hoopMeta (s : State) (i : Nat) (x : ScaleSlot) : (s.setSlot i x).hoopMeta = s.hoopMeta :=
  rfl
@[simp] theorem State.setSlot_arb (s : State) (i : Nat) (x : ScaleSlot) : (s.setSlot i x).arb = s.arb := rfl
@[simp] theorem State.setSlot_motif (s : State) (i : Nat) (x : ScaleSlot) : (s.setSlot i x).motif = s.motif := rfl
@[simp] theorem State.setSlot_twist (s : State) (i : Nat) (x : ScaleSlot) : (s.setSlot i x).twist = s.twist := rfl
@[simp] theorem State.setSlot_edging (s : State) (i : Nat) (x : ScaleSlot) : (s.setSlot i x).edging = s.edging := rfl
@[simp] theorem State.setSlot_partner (s : State) (i : Nat) (x : ScaleSlot) : (s.setSlot i x).partner = s.partner :=
  rfl
@[simp] theorem State.setSlot_net (s : State) (i : Nat) (x : ScaleSlot) : (s.setSlot i x).net = s.net := rfl
@[simp] theorem State.setSlot_mirror (s : State) (i : Nat) (x : ScaleSlot) : (s.setSlot i x).mirror = s.mirror := rfl
@[simp] theorem State.setSlot_clock (s : State) (i : Nat) (x : ScaleSlot) : (s.setSlot i x).clock = s.clock := rfl
@[simp] theorem State.setSlot_keys (s : State) (i : Nat) (x : ScaleSlot) : (s.setSlot i x).keys = s.keys := rfl
@[simp] theorem State.setSlot_trouble (s : State) (i : Nat) (x : ScaleSlot) : (s.setSlot i x).trouble = s.trouble :=
  rfl
@[simp] theorem State.setSlot_freeCount (s : State) (i : Nat) (x : ScaleSlot) : (s.setSlot i x).freeCount = s.freeCount :=
  rfl
@[simp] theorem State.setSlot_testEnable (s : State) (i : Nat) (x : ScaleSlot) : (s.setSlot i x).testEnable = s.testEnable :=
  rfl
@[simp] theorem State.setSlot_testLocal (s : State) (i : Nat) (x : ScaleSlot) : (s.setSlot i x).testLocal = s.testLocal :=
  rfl
@[simp] theorem State.setSlot_pages (s : State) (i : Nat) (x : ScaleSlot) : (s.setSlot i x).pages = s.pages := rfl
@[simp] theorem State.setSlot_mmioOut (s : State) (i : Nat) (x : ScaleSlot) : (s.setSlot i x).mmioOut = s.mmioOut :=
  rfl
@[simp] theorem State.setSlot_maskOut (s : State) (i : Nat) (x : ScaleSlot) : (s.setSlot i x).maskOut = s.maskOut :=
  rfl
@[simp] theorem State.setSlot_outbox (s : State) (i : Nat) (x : ScaleSlot) : (s.setSlot i x).outbox = s.outbox := rfl

/-! ### `State.setBank` -/

@[simp] theorem State.setBank_pending (s : State) (k : Nat) (x : Bank) : (s.setBank k x).pending = s.pending := rfl
@[simp] theorem State.setBank_wz (s : State) (k : Nat) (x : Bank) : (s.setBank k x).wz = s.wz := rfl
@[simp] theorem State.setBank_package (s : State) (k : Nat) (x : Bank) : (s.setBank k x).package = s.package := rfl
@[simp] theorem State.setBank_powered (s : State) (k : Nat) (x : Bank) : (s.setBank k x).powered = s.powered := rfl
@[simp] theorem State.setBank_resetting (s : State) (k : Nat) (x : Bank) : (s.setBank k x).resetting = s.resetting :=
  rfl
@[simp] theorem State.setBank_resetHeld (s : State) (k : Nat) (x : Bank) : (s.setBank k x).resetHeld = s.resetHeld :=
  rfl
@[simp] theorem State.setBank_lastReset (s : State) (k : Nat) (x : Bank) : (s.setBank k x).lastReset = s.lastReset :=
  rfl
@[simp] theorem State.setBank_rest (s : State) (k : Nat) (x : Bank) : (s.setBank k x).rest = s.rest := rfl
@[simp] theorem State.setBank_transit (s : State) (k : Nat) (x : Bank) : (s.setBank k x).transit = s.transit := rfl
@[simp] theorem State.setBank_restRefused (s : State) (k : Nat) (x : Bank) : (s.setBank k x).restRefused = s.restRefused :=
  rfl
@[simp] theorem State.setBank_capGen (s : State) (k : Nat) (x : Bank) : (s.setBank k x).capGen = s.capGen := rfl
@[simp] theorem State.setBank_hoops (s : State) (k : Nat) (x : Bank) : (s.setBank k x).hoops = s.hoops := rfl
@[simp] theorem State.setBank_fabric (s : State) (k : Nat) (x : Bank) : (s.setBank k x).fabric = s.fabric := rfl
@[simp] theorem State.setBank_pstore (s : State) (k : Nat) (x : Bank) : (s.setBank k x).pstore = s.pstore := rfl
@[simp] theorem State.setBank_estore (s : State) (k : Nat) (x : Bank) : (s.setBank k x).estore = s.estore := rfl
@[simp] theorem State.setBank_regs (s : State) (k : Nat) (x : Bank) : (s.setBank k x).regs = s.regs := rfl
@[simp] theorem State.setBank_ecc (s : State) (k : Nat) (x : Bank) : (s.setBank k x).ecc = s.ecc := rfl
@[simp] theorem State.setBank_ctx (s : State) (k : Nat) (x : Bank) : (s.setBank k x).ctx = s.ctx := rfl
@[simp] theorem State.setBank_masks (s : State) (k : Nat) (x : Bank) : (s.setBank k x).masks = s.masks := rfl
@[simp] theorem State.setBank_carries (s : State) (k : Nat) (x : Bank) : (s.setBank k x).carries = s.carries := rfl
@[simp] theorem State.setBank_issue (s : State) (k : Nat) (x : Bank) : (s.setBank k x).issue = s.issue := rfl
@[simp] theorem State.setBank_xfers (s : State) (k : Nat) (x : Bank) : (s.setBank k x).xfers = s.xfers := rfl
@[simp] theorem State.setBank_panelMap (s : State) (k : Nat) (x : Bank) : (s.setBank k x).panelMap = s.panelMap := rfl
@[simp] theorem State.setBank_panels (s : State) (k : Nat) (x : Bank) : (s.setBank k x).panels = s.panels := rfl
@[simp] theorem State.setBank_hoopMeta (s : State) (k : Nat) (x : Bank) : (s.setBank k x).hoopMeta = s.hoopMeta := rfl
@[simp] theorem State.setBank_arb (s : State) (k : Nat) (x : Bank) : (s.setBank k x).arb = s.arb := rfl
@[simp] theorem State.setBank_motif (s : State) (k : Nat) (x : Bank) : (s.setBank k x).motif = s.motif := rfl
@[simp] theorem State.setBank_scale (s : State) (k : Nat) (x : Bank) : (s.setBank k x).scale = s.scale := rfl
@[simp] theorem State.setBank_twist (s : State) (k : Nat) (x : Bank) : (s.setBank k x).twist = s.twist := rfl
@[simp] theorem State.setBank_partner (s : State) (k : Nat) (x : Bank) : (s.setBank k x).partner = s.partner := rfl
@[simp] theorem State.setBank_net (s : State) (k : Nat) (x : Bank) : (s.setBank k x).net = s.net := rfl
@[simp] theorem State.setBank_mirror (s : State) (k : Nat) (x : Bank) : (s.setBank k x).mirror = s.mirror := rfl
@[simp] theorem State.setBank_clock (s : State) (k : Nat) (x : Bank) : (s.setBank k x).clock = s.clock := rfl
@[simp] theorem State.setBank_keys (s : State) (k : Nat) (x : Bank) : (s.setBank k x).keys = s.keys := rfl
@[simp] theorem State.setBank_trouble (s : State) (k : Nat) (x : Bank) : (s.setBank k x).trouble = s.trouble := rfl
@[simp] theorem State.setBank_freeCount (s : State) (k : Nat) (x : Bank) : (s.setBank k x).freeCount = s.freeCount :=
  rfl
@[simp] theorem State.setBank_testEnable (s : State) (k : Nat) (x : Bank) : (s.setBank k x).testEnable = s.testEnable :=
  rfl
@[simp] theorem State.setBank_testLocal (s : State) (k : Nat) (x : Bank) : (s.setBank k x).testLocal = s.testLocal :=
  rfl
@[simp] theorem State.setBank_pages (s : State) (k : Nat) (x : Bank) : (s.setBank k x).pages = s.pages := rfl
@[simp] theorem State.setBank_mmioOut (s : State) (k : Nat) (x : Bank) : (s.setBank k x).mmioOut = s.mmioOut := rfl
@[simp] theorem State.setBank_maskOut (s : State) (k : Nat) (x : Bank) : (s.setBank k x).maskOut = s.maskOut := rfl
@[simp] theorem State.setBank_outbox (s : State) (k : Nat) (x : Bank) : (s.setBank k x).outbox = s.outbox := rfl

/-! ### `State.setKey` -/

@[simp] theorem State.setKey_pending (s : State) (k : Nat) (x : KeySlot) : (s.setKey k x).pending = s.pending := rfl
@[simp] theorem State.setKey_wz (s : State) (k : Nat) (x : KeySlot) : (s.setKey k x).wz = s.wz := rfl
@[simp] theorem State.setKey_package (s : State) (k : Nat) (x : KeySlot) : (s.setKey k x).package = s.package := rfl
@[simp] theorem State.setKey_powered (s : State) (k : Nat) (x : KeySlot) : (s.setKey k x).powered = s.powered := rfl
@[simp] theorem State.setKey_resetting (s : State) (k : Nat) (x : KeySlot) : (s.setKey k x).resetting = s.resetting :=
  rfl
@[simp] theorem State.setKey_resetHeld (s : State) (k : Nat) (x : KeySlot) : (s.setKey k x).resetHeld = s.resetHeld :=
  rfl
@[simp] theorem State.setKey_lastReset (s : State) (k : Nat) (x : KeySlot) : (s.setKey k x).lastReset = s.lastReset :=
  rfl
@[simp] theorem State.setKey_rest (s : State) (k : Nat) (x : KeySlot) : (s.setKey k x).rest = s.rest := rfl
@[simp] theorem State.setKey_transit (s : State) (k : Nat) (x : KeySlot) : (s.setKey k x).transit = s.transit := rfl
@[simp] theorem State.setKey_restRefused (s : State) (k : Nat) (x : KeySlot) : (s.setKey k x).restRefused = s.restRefused :=
  rfl
@[simp] theorem State.setKey_capGen (s : State) (k : Nat) (x : KeySlot) : (s.setKey k x).capGen = s.capGen := rfl
@[simp] theorem State.setKey_hoops (s : State) (k : Nat) (x : KeySlot) : (s.setKey k x).hoops = s.hoops := rfl
@[simp] theorem State.setKey_fabric (s : State) (k : Nat) (x : KeySlot) : (s.setKey k x).fabric = s.fabric := rfl
@[simp] theorem State.setKey_pstore (s : State) (k : Nat) (x : KeySlot) : (s.setKey k x).pstore = s.pstore := rfl
@[simp] theorem State.setKey_estore (s : State) (k : Nat) (x : KeySlot) : (s.setKey k x).estore = s.estore := rfl
@[simp] theorem State.setKey_regs (s : State) (k : Nat) (x : KeySlot) : (s.setKey k x).regs = s.regs := rfl
@[simp] theorem State.setKey_ecc (s : State) (k : Nat) (x : KeySlot) : (s.setKey k x).ecc = s.ecc := rfl
@[simp] theorem State.setKey_ctx (s : State) (k : Nat) (x : KeySlot) : (s.setKey k x).ctx = s.ctx := rfl
@[simp] theorem State.setKey_masks (s : State) (k : Nat) (x : KeySlot) : (s.setKey k x).masks = s.masks := rfl
@[simp] theorem State.setKey_carries (s : State) (k : Nat) (x : KeySlot) : (s.setKey k x).carries = s.carries := rfl
@[simp] theorem State.setKey_issue (s : State) (k : Nat) (x : KeySlot) : (s.setKey k x).issue = s.issue := rfl
@[simp] theorem State.setKey_xfers (s : State) (k : Nat) (x : KeySlot) : (s.setKey k x).xfers = s.xfers := rfl
@[simp] theorem State.setKey_panelMap (s : State) (k : Nat) (x : KeySlot) : (s.setKey k x).panelMap = s.panelMap :=
  rfl
@[simp] theorem State.setKey_panels (s : State) (k : Nat) (x : KeySlot) : (s.setKey k x).panels = s.panels := rfl
@[simp] theorem State.setKey_hoopMeta (s : State) (k : Nat) (x : KeySlot) : (s.setKey k x).hoopMeta = s.hoopMeta :=
  rfl
@[simp] theorem State.setKey_arb (s : State) (k : Nat) (x : KeySlot) : (s.setKey k x).arb = s.arb := rfl
@[simp] theorem State.setKey_motif (s : State) (k : Nat) (x : KeySlot) : (s.setKey k x).motif = s.motif := rfl
@[simp] theorem State.setKey_scale (s : State) (k : Nat) (x : KeySlot) : (s.setKey k x).scale = s.scale := rfl
@[simp] theorem State.setKey_twist (s : State) (k : Nat) (x : KeySlot) : (s.setKey k x).twist = s.twist := rfl
@[simp] theorem State.setKey_edging (s : State) (k : Nat) (x : KeySlot) : (s.setKey k x).edging = s.edging := rfl
@[simp] theorem State.setKey_partner (s : State) (k : Nat) (x : KeySlot) : (s.setKey k x).partner = s.partner := rfl
@[simp] theorem State.setKey_net (s : State) (k : Nat) (x : KeySlot) : (s.setKey k x).net = s.net := rfl
@[simp] theorem State.setKey_mirror (s : State) (k : Nat) (x : KeySlot) : (s.setKey k x).mirror = s.mirror := rfl
@[simp] theorem State.setKey_clock (s : State) (k : Nat) (x : KeySlot) : (s.setKey k x).clock = s.clock := rfl
@[simp] theorem State.setKey_trouble (s : State) (k : Nat) (x : KeySlot) : (s.setKey k x).trouble = s.trouble := rfl
@[simp] theorem State.setKey_freeCount (s : State) (k : Nat) (x : KeySlot) : (s.setKey k x).freeCount = s.freeCount :=
  rfl
@[simp] theorem State.setKey_testEnable (s : State) (k : Nat) (x : KeySlot) : (s.setKey k x).testEnable = s.testEnable :=
  rfl
@[simp] theorem State.setKey_testLocal (s : State) (k : Nat) (x : KeySlot) : (s.setKey k x).testLocal = s.testLocal :=
  rfl
@[simp] theorem State.setKey_pages (s : State) (k : Nat) (x : KeySlot) : (s.setKey k x).pages = s.pages := rfl
@[simp] theorem State.setKey_mmioOut (s : State) (k : Nat) (x : KeySlot) : (s.setKey k x).mmioOut = s.mmioOut := rfl
@[simp] theorem State.setKey_maskOut (s : State) (k : Nat) (x : KeySlot) : (s.setKey k x).maskOut = s.maskOut := rfl
@[simp] theorem State.setKey_outbox (s : State) (k : Nat) (x : KeySlot) : (s.setKey k x).outbox = s.outbox := rfl

/-! ### `State.modIssue` -/

@[simp] theorem State.modIssue_pending (s : State) (f : IssueUnit → IssueUnit) : (s.modIssue f).pending = s.pending :=
  rfl
@[simp] theorem State.modIssue_wz (s : State) (f : IssueUnit → IssueUnit) : (s.modIssue f).wz = s.wz := rfl
@[simp] theorem State.modIssue_package (s : State) (f : IssueUnit → IssueUnit) : (s.modIssue f).package = s.package :=
  rfl
@[simp] theorem State.modIssue_powered (s : State) (f : IssueUnit → IssueUnit) : (s.modIssue f).powered = s.powered :=
  rfl
@[simp] theorem State.modIssue_resetting (s : State) (f : IssueUnit → IssueUnit) : (s.modIssue f).resetting = s.resetting :=
  rfl
@[simp] theorem State.modIssue_resetHeld (s : State) (f : IssueUnit → IssueUnit) : (s.modIssue f).resetHeld = s.resetHeld :=
  rfl
@[simp] theorem State.modIssue_lastReset (s : State) (f : IssueUnit → IssueUnit) : (s.modIssue f).lastReset = s.lastReset :=
  rfl
@[simp] theorem State.modIssue_rest (s : State) (f : IssueUnit → IssueUnit) : (s.modIssue f).rest = s.rest := rfl
@[simp] theorem State.modIssue_transit (s : State) (f : IssueUnit → IssueUnit) : (s.modIssue f).transit = s.transit :=
  rfl
@[simp] theorem State.modIssue_restRefused (s : State) (f : IssueUnit → IssueUnit) : (s.modIssue f).restRefused = s.restRefused :=
  rfl
@[simp] theorem State.modIssue_capGen (s : State) (f : IssueUnit → IssueUnit) : (s.modIssue f).capGen = s.capGen :=
  rfl
@[simp] theorem State.modIssue_hoops (s : State) (f : IssueUnit → IssueUnit) : (s.modIssue f).hoops = s.hoops := rfl
@[simp] theorem State.modIssue_fabric (s : State) (f : IssueUnit → IssueUnit) : (s.modIssue f).fabric = s.fabric :=
  rfl
@[simp] theorem State.modIssue_pstore (s : State) (f : IssueUnit → IssueUnit) : (s.modIssue f).pstore = s.pstore :=
  rfl
@[simp] theorem State.modIssue_estore (s : State) (f : IssueUnit → IssueUnit) : (s.modIssue f).estore = s.estore :=
  rfl
@[simp] theorem State.modIssue_regs (s : State) (f : IssueUnit → IssueUnit) : (s.modIssue f).regs = s.regs := rfl
@[simp] theorem State.modIssue_ecc (s : State) (f : IssueUnit → IssueUnit) : (s.modIssue f).ecc = s.ecc := rfl
@[simp] theorem State.modIssue_ctx (s : State) (f : IssueUnit → IssueUnit) : (s.modIssue f).ctx = s.ctx := rfl
@[simp] theorem State.modIssue_masks (s : State) (f : IssueUnit → IssueUnit) : (s.modIssue f).masks = s.masks := rfl
@[simp] theorem State.modIssue_carries (s : State) (f : IssueUnit → IssueUnit) : (s.modIssue f).carries = s.carries :=
  rfl
@[simp] theorem State.modIssue_xfers (s : State) (f : IssueUnit → IssueUnit) : (s.modIssue f).xfers = s.xfers := rfl
@[simp] theorem State.modIssue_panelMap (s : State) (f : IssueUnit → IssueUnit) : (s.modIssue f).panelMap = s.panelMap :=
  rfl
@[simp] theorem State.modIssue_panels (s : State) (f : IssueUnit → IssueUnit) : (s.modIssue f).panels = s.panels :=
  rfl
@[simp] theorem State.modIssue_hoopMeta (s : State) (f : IssueUnit → IssueUnit) : (s.modIssue f).hoopMeta = s.hoopMeta :=
  rfl
@[simp] theorem State.modIssue_arb (s : State) (f : IssueUnit → IssueUnit) : (s.modIssue f).arb = s.arb := rfl
@[simp] theorem State.modIssue_motif (s : State) (f : IssueUnit → IssueUnit) : (s.modIssue f).motif = s.motif := rfl
@[simp] theorem State.modIssue_scale (s : State) (f : IssueUnit → IssueUnit) : (s.modIssue f).scale = s.scale := rfl
@[simp] theorem State.modIssue_twist (s : State) (f : IssueUnit → IssueUnit) : (s.modIssue f).twist = s.twist := rfl
@[simp] theorem State.modIssue_edging (s : State) (f : IssueUnit → IssueUnit) : (s.modIssue f).edging = s.edging :=
  rfl
@[simp] theorem State.modIssue_partner (s : State) (f : IssueUnit → IssueUnit) : (s.modIssue f).partner = s.partner :=
  rfl
@[simp] theorem State.modIssue_net (s : State) (f : IssueUnit → IssueUnit) : (s.modIssue f).net = s.net := rfl
@[simp] theorem State.modIssue_mirror (s : State) (f : IssueUnit → IssueUnit) : (s.modIssue f).mirror = s.mirror :=
  rfl
@[simp] theorem State.modIssue_clock (s : State) (f : IssueUnit → IssueUnit) : (s.modIssue f).clock = s.clock := rfl
@[simp] theorem State.modIssue_keys (s : State) (f : IssueUnit → IssueUnit) : (s.modIssue f).keys = s.keys := rfl
@[simp] theorem State.modIssue_trouble (s : State) (f : IssueUnit → IssueUnit) : (s.modIssue f).trouble = s.trouble :=
  rfl
@[simp] theorem State.modIssue_freeCount (s : State) (f : IssueUnit → IssueUnit) : (s.modIssue f).freeCount = s.freeCount :=
  rfl
@[simp] theorem State.modIssue_testEnable (s : State) (f : IssueUnit → IssueUnit) : (s.modIssue f).testEnable = s.testEnable :=
  rfl
@[simp] theorem State.modIssue_testLocal (s : State) (f : IssueUnit → IssueUnit) : (s.modIssue f).testLocal = s.testLocal :=
  rfl
@[simp] theorem State.modIssue_pages (s : State) (f : IssueUnit → IssueUnit) : (s.modIssue f).pages = s.pages := rfl
@[simp] theorem State.modIssue_mmioOut (s : State) (f : IssueUnit → IssueUnit) : (s.modIssue f).mmioOut = s.mmioOut :=
  rfl
@[simp] theorem State.modIssue_maskOut (s : State) (f : IssueUnit → IssueUnit) : (s.modIssue f).maskOut = s.maskOut :=
  rfl
@[simp] theorem State.modIssue_outbox (s : State) (f : IssueUnit → IssueUnit) : (s.modIssue f).outbox = s.outbox :=
  rfl
@[simp] theorem State.modIssue_issue (s : State) (f : IssueUnit → IssueUnit) : (s.modIssue f).issue = f s.issue := rfl

/-! ### `State.modNet` -/

@[simp] theorem State.modNet_pending (s : State) (f : NetUnit → NetUnit) : (s.modNet f).pending = s.pending := rfl
@[simp] theorem State.modNet_wz (s : State) (f : NetUnit → NetUnit) : (s.modNet f).wz = s.wz := rfl
@[simp] theorem State.modNet_package (s : State) (f : NetUnit → NetUnit) : (s.modNet f).package = s.package := rfl
@[simp] theorem State.modNet_powered (s : State) (f : NetUnit → NetUnit) : (s.modNet f).powered = s.powered := rfl
@[simp] theorem State.modNet_resetting (s : State) (f : NetUnit → NetUnit) : (s.modNet f).resetting = s.resetting :=
  rfl
@[simp] theorem State.modNet_resetHeld (s : State) (f : NetUnit → NetUnit) : (s.modNet f).resetHeld = s.resetHeld :=
  rfl
@[simp] theorem State.modNet_lastReset (s : State) (f : NetUnit → NetUnit) : (s.modNet f).lastReset = s.lastReset :=
  rfl
@[simp] theorem State.modNet_rest (s : State) (f : NetUnit → NetUnit) : (s.modNet f).rest = s.rest := rfl
@[simp] theorem State.modNet_transit (s : State) (f : NetUnit → NetUnit) : (s.modNet f).transit = s.transit := rfl
@[simp] theorem State.modNet_restRefused (s : State) (f : NetUnit → NetUnit) : (s.modNet f).restRefused = s.restRefused :=
  rfl
@[simp] theorem State.modNet_capGen (s : State) (f : NetUnit → NetUnit) : (s.modNet f).capGen = s.capGen := rfl
@[simp] theorem State.modNet_hoops (s : State) (f : NetUnit → NetUnit) : (s.modNet f).hoops = s.hoops := rfl
@[simp] theorem State.modNet_fabric (s : State) (f : NetUnit → NetUnit) : (s.modNet f).fabric = s.fabric := rfl
@[simp] theorem State.modNet_pstore (s : State) (f : NetUnit → NetUnit) : (s.modNet f).pstore = s.pstore := rfl
@[simp] theorem State.modNet_estore (s : State) (f : NetUnit → NetUnit) : (s.modNet f).estore = s.estore := rfl
@[simp] theorem State.modNet_regs (s : State) (f : NetUnit → NetUnit) : (s.modNet f).regs = s.regs := rfl
@[simp] theorem State.modNet_ecc (s : State) (f : NetUnit → NetUnit) : (s.modNet f).ecc = s.ecc := rfl
@[simp] theorem State.modNet_ctx (s : State) (f : NetUnit → NetUnit) : (s.modNet f).ctx = s.ctx := rfl
@[simp] theorem State.modNet_masks (s : State) (f : NetUnit → NetUnit) : (s.modNet f).masks = s.masks := rfl
@[simp] theorem State.modNet_carries (s : State) (f : NetUnit → NetUnit) : (s.modNet f).carries = s.carries := rfl
@[simp] theorem State.modNet_issue (s : State) (f : NetUnit → NetUnit) : (s.modNet f).issue = s.issue := rfl
@[simp] theorem State.modNet_xfers (s : State) (f : NetUnit → NetUnit) : (s.modNet f).xfers = s.xfers := rfl
@[simp] theorem State.modNet_panelMap (s : State) (f : NetUnit → NetUnit) : (s.modNet f).panelMap = s.panelMap := rfl
@[simp] theorem State.modNet_panels (s : State) (f : NetUnit → NetUnit) : (s.modNet f).panels = s.panels := rfl
@[simp] theorem State.modNet_hoopMeta (s : State) (f : NetUnit → NetUnit) : (s.modNet f).hoopMeta = s.hoopMeta := rfl
@[simp] theorem State.modNet_arb (s : State) (f : NetUnit → NetUnit) : (s.modNet f).arb = s.arb := rfl
@[simp] theorem State.modNet_motif (s : State) (f : NetUnit → NetUnit) : (s.modNet f).motif = s.motif := rfl
@[simp] theorem State.modNet_scale (s : State) (f : NetUnit → NetUnit) : (s.modNet f).scale = s.scale := rfl
@[simp] theorem State.modNet_twist (s : State) (f : NetUnit → NetUnit) : (s.modNet f).twist = s.twist := rfl
@[simp] theorem State.modNet_edging (s : State) (f : NetUnit → NetUnit) : (s.modNet f).edging = s.edging := rfl
@[simp] theorem State.modNet_partner (s : State) (f : NetUnit → NetUnit) : (s.modNet f).partner = s.partner := rfl
@[simp] theorem State.modNet_mirror (s : State) (f : NetUnit → NetUnit) : (s.modNet f).mirror = s.mirror := rfl
@[simp] theorem State.modNet_clock (s : State) (f : NetUnit → NetUnit) : (s.modNet f).clock = s.clock := rfl
@[simp] theorem State.modNet_keys (s : State) (f : NetUnit → NetUnit) : (s.modNet f).keys = s.keys := rfl
@[simp] theorem State.modNet_trouble (s : State) (f : NetUnit → NetUnit) : (s.modNet f).trouble = s.trouble := rfl
@[simp] theorem State.modNet_freeCount (s : State) (f : NetUnit → NetUnit) : (s.modNet f).freeCount = s.freeCount :=
  rfl
@[simp] theorem State.modNet_testEnable (s : State) (f : NetUnit → NetUnit) : (s.modNet f).testEnable = s.testEnable :=
  rfl
@[simp] theorem State.modNet_testLocal (s : State) (f : NetUnit → NetUnit) : (s.modNet f).testLocal = s.testLocal :=
  rfl
@[simp] theorem State.modNet_pages (s : State) (f : NetUnit → NetUnit) : (s.modNet f).pages = s.pages := rfl
@[simp] theorem State.modNet_mmioOut (s : State) (f : NetUnit → NetUnit) : (s.modNet f).mmioOut = s.mmioOut := rfl
@[simp] theorem State.modNet_maskOut (s : State) (f : NetUnit → NetUnit) : (s.modNet f).maskOut = s.maskOut := rfl
@[simp] theorem State.modNet_outbox (s : State) (f : NetUnit → NetUnit) : (s.modNet f).outbox = s.outbox := rfl
@[simp] theorem State.modNet_net (s : State) (f : NetUnit → NetUnit) : (s.modNet f).net = f s.net := rfl

/-! ### `State.modMirror` -/

@[simp] theorem State.modMirror_pending (s : State) (f : MirrorUnit → MirrorUnit) : (s.modMirror f).pending = s.pending :=
  rfl
@[simp] theorem State.modMirror_wz (s : State) (f : MirrorUnit → MirrorUnit) : (s.modMirror f).wz = s.wz := rfl
@[simp] theorem State.modMirror_package (s : State) (f : MirrorUnit → MirrorUnit) : (s.modMirror f).package = s.package :=
  rfl
@[simp] theorem State.modMirror_powered (s : State) (f : MirrorUnit → MirrorUnit) : (s.modMirror f).powered = s.powered :=
  rfl
@[simp] theorem State.modMirror_resetting (s : State) (f : MirrorUnit → MirrorUnit) : (s.modMirror f).resetting = s.resetting :=
  rfl
@[simp] theorem State.modMirror_resetHeld (s : State) (f : MirrorUnit → MirrorUnit) : (s.modMirror f).resetHeld = s.resetHeld :=
  rfl
@[simp] theorem State.modMirror_lastReset (s : State) (f : MirrorUnit → MirrorUnit) : (s.modMirror f).lastReset = s.lastReset :=
  rfl
@[simp] theorem State.modMirror_rest (s : State) (f : MirrorUnit → MirrorUnit) : (s.modMirror f).rest = s.rest := rfl
@[simp] theorem State.modMirror_transit (s : State) (f : MirrorUnit → MirrorUnit) : (s.modMirror f).transit = s.transit :=
  rfl
@[simp] theorem State.modMirror_restRefused (s : State) (f : MirrorUnit → MirrorUnit) : (s.modMirror f).restRefused = s.restRefused :=
  rfl
@[simp] theorem State.modMirror_capGen (s : State) (f : MirrorUnit → MirrorUnit) : (s.modMirror f).capGen = s.capGen :=
  rfl
@[simp] theorem State.modMirror_hoops (s : State) (f : MirrorUnit → MirrorUnit) : (s.modMirror f).hoops = s.hoops :=
  rfl
@[simp] theorem State.modMirror_fabric (s : State) (f : MirrorUnit → MirrorUnit) : (s.modMirror f).fabric = s.fabric :=
  rfl
@[simp] theorem State.modMirror_pstore (s : State) (f : MirrorUnit → MirrorUnit) : (s.modMirror f).pstore = s.pstore :=
  rfl
@[simp] theorem State.modMirror_estore (s : State) (f : MirrorUnit → MirrorUnit) : (s.modMirror f).estore = s.estore :=
  rfl
@[simp] theorem State.modMirror_regs (s : State) (f : MirrorUnit → MirrorUnit) : (s.modMirror f).regs = s.regs := rfl
@[simp] theorem State.modMirror_ecc (s : State) (f : MirrorUnit → MirrorUnit) : (s.modMirror f).ecc = s.ecc := rfl
@[simp] theorem State.modMirror_ctx (s : State) (f : MirrorUnit → MirrorUnit) : (s.modMirror f).ctx = s.ctx := rfl
@[simp] theorem State.modMirror_masks (s : State) (f : MirrorUnit → MirrorUnit) : (s.modMirror f).masks = s.masks :=
  rfl
@[simp] theorem State.modMirror_carries (s : State) (f : MirrorUnit → MirrorUnit) : (s.modMirror f).carries = s.carries :=
  rfl
@[simp] theorem State.modMirror_issue (s : State) (f : MirrorUnit → MirrorUnit) : (s.modMirror f).issue = s.issue :=
  rfl
@[simp] theorem State.modMirror_xfers (s : State) (f : MirrorUnit → MirrorUnit) : (s.modMirror f).xfers = s.xfers :=
  rfl
@[simp] theorem State.modMirror_panelMap (s : State) (f : MirrorUnit → MirrorUnit) : (s.modMirror f).panelMap = s.panelMap :=
  rfl
@[simp] theorem State.modMirror_panels (s : State) (f : MirrorUnit → MirrorUnit) : (s.modMirror f).panels = s.panels :=
  rfl
@[simp] theorem State.modMirror_hoopMeta (s : State) (f : MirrorUnit → MirrorUnit) : (s.modMirror f).hoopMeta = s.hoopMeta :=
  rfl
@[simp] theorem State.modMirror_arb (s : State) (f : MirrorUnit → MirrorUnit) : (s.modMirror f).arb = s.arb := rfl
@[simp] theorem State.modMirror_motif (s : State) (f : MirrorUnit → MirrorUnit) : (s.modMirror f).motif = s.motif :=
  rfl
@[simp] theorem State.modMirror_scale (s : State) (f : MirrorUnit → MirrorUnit) : (s.modMirror f).scale = s.scale :=
  rfl
@[simp] theorem State.modMirror_twist (s : State) (f : MirrorUnit → MirrorUnit) : (s.modMirror f).twist = s.twist :=
  rfl
@[simp] theorem State.modMirror_edging (s : State) (f : MirrorUnit → MirrorUnit) : (s.modMirror f).edging = s.edging :=
  rfl
@[simp] theorem State.modMirror_partner (s : State) (f : MirrorUnit → MirrorUnit) : (s.modMirror f).partner = s.partner :=
  rfl
@[simp] theorem State.modMirror_net (s : State) (f : MirrorUnit → MirrorUnit) : (s.modMirror f).net = s.net := rfl
@[simp] theorem State.modMirror_clock (s : State) (f : MirrorUnit → MirrorUnit) : (s.modMirror f).clock = s.clock :=
  rfl
@[simp] theorem State.modMirror_keys (s : State) (f : MirrorUnit → MirrorUnit) : (s.modMirror f).keys = s.keys := rfl
@[simp] theorem State.modMirror_trouble (s : State) (f : MirrorUnit → MirrorUnit) : (s.modMirror f).trouble = s.trouble :=
  rfl
@[simp] theorem State.modMirror_freeCount (s : State) (f : MirrorUnit → MirrorUnit) : (s.modMirror f).freeCount = s.freeCount :=
  rfl
@[simp] theorem State.modMirror_testEnable (s : State) (f : MirrorUnit → MirrorUnit) : (s.modMirror f).testEnable = s.testEnable :=
  rfl
@[simp] theorem State.modMirror_testLocal (s : State) (f : MirrorUnit → MirrorUnit) : (s.modMirror f).testLocal = s.testLocal :=
  rfl
@[simp] theorem State.modMirror_pages (s : State) (f : MirrorUnit → MirrorUnit) : (s.modMirror f).pages = s.pages :=
  rfl
@[simp] theorem State.modMirror_mmioOut (s : State) (f : MirrorUnit → MirrorUnit) : (s.modMirror f).mmioOut = s.mmioOut :=
  rfl
@[simp] theorem State.modMirror_maskOut (s : State) (f : MirrorUnit → MirrorUnit) : (s.modMirror f).maskOut = s.maskOut :=
  rfl
@[simp] theorem State.modMirror_outbox (s : State) (f : MirrorUnit → MirrorUnit) : (s.modMirror f).outbox = s.outbox :=
  rfl
@[simp] theorem State.modMirror_mirror (s : State) (f : MirrorUnit → MirrorUnit) : (s.modMirror f).mirror = f s.mirror := rfl

/-! ### `State.modClock` -/

@[simp] theorem State.modClock_pending (s : State) (f : ClockUnit → ClockUnit) : (s.modClock f).pending = s.pending :=
  rfl
@[simp] theorem State.modClock_wz (s : State) (f : ClockUnit → ClockUnit) : (s.modClock f).wz = s.wz := rfl
@[simp] theorem State.modClock_package (s : State) (f : ClockUnit → ClockUnit) : (s.modClock f).package = s.package :=
  rfl
@[simp] theorem State.modClock_powered (s : State) (f : ClockUnit → ClockUnit) : (s.modClock f).powered = s.powered :=
  rfl
@[simp] theorem State.modClock_resetting (s : State) (f : ClockUnit → ClockUnit) : (s.modClock f).resetting = s.resetting :=
  rfl
@[simp] theorem State.modClock_resetHeld (s : State) (f : ClockUnit → ClockUnit) : (s.modClock f).resetHeld = s.resetHeld :=
  rfl
@[simp] theorem State.modClock_lastReset (s : State) (f : ClockUnit → ClockUnit) : (s.modClock f).lastReset = s.lastReset :=
  rfl
@[simp] theorem State.modClock_rest (s : State) (f : ClockUnit → ClockUnit) : (s.modClock f).rest = s.rest := rfl
@[simp] theorem State.modClock_transit (s : State) (f : ClockUnit → ClockUnit) : (s.modClock f).transit = s.transit :=
  rfl
@[simp] theorem State.modClock_restRefused (s : State) (f : ClockUnit → ClockUnit) : (s.modClock f).restRefused = s.restRefused :=
  rfl
@[simp] theorem State.modClock_capGen (s : State) (f : ClockUnit → ClockUnit) : (s.modClock f).capGen = s.capGen :=
  rfl
@[simp] theorem State.modClock_hoops (s : State) (f : ClockUnit → ClockUnit) : (s.modClock f).hoops = s.hoops := rfl
@[simp] theorem State.modClock_fabric (s : State) (f : ClockUnit → ClockUnit) : (s.modClock f).fabric = s.fabric :=
  rfl
@[simp] theorem State.modClock_pstore (s : State) (f : ClockUnit → ClockUnit) : (s.modClock f).pstore = s.pstore :=
  rfl
@[simp] theorem State.modClock_estore (s : State) (f : ClockUnit → ClockUnit) : (s.modClock f).estore = s.estore :=
  rfl
@[simp] theorem State.modClock_regs (s : State) (f : ClockUnit → ClockUnit) : (s.modClock f).regs = s.regs := rfl
@[simp] theorem State.modClock_ecc (s : State) (f : ClockUnit → ClockUnit) : (s.modClock f).ecc = s.ecc := rfl
@[simp] theorem State.modClock_ctx (s : State) (f : ClockUnit → ClockUnit) : (s.modClock f).ctx = s.ctx := rfl
@[simp] theorem State.modClock_masks (s : State) (f : ClockUnit → ClockUnit) : (s.modClock f).masks = s.masks := rfl
@[simp] theorem State.modClock_carries (s : State) (f : ClockUnit → ClockUnit) : (s.modClock f).carries = s.carries :=
  rfl
@[simp] theorem State.modClock_issue (s : State) (f : ClockUnit → ClockUnit) : (s.modClock f).issue = s.issue := rfl
@[simp] theorem State.modClock_xfers (s : State) (f : ClockUnit → ClockUnit) : (s.modClock f).xfers = s.xfers := rfl
@[simp] theorem State.modClock_panelMap (s : State) (f : ClockUnit → ClockUnit) : (s.modClock f).panelMap = s.panelMap :=
  rfl
@[simp] theorem State.modClock_panels (s : State) (f : ClockUnit → ClockUnit) : (s.modClock f).panels = s.panels :=
  rfl
@[simp] theorem State.modClock_hoopMeta (s : State) (f : ClockUnit → ClockUnit) : (s.modClock f).hoopMeta = s.hoopMeta :=
  rfl
@[simp] theorem State.modClock_arb (s : State) (f : ClockUnit → ClockUnit) : (s.modClock f).arb = s.arb := rfl
@[simp] theorem State.modClock_motif (s : State) (f : ClockUnit → ClockUnit) : (s.modClock f).motif = s.motif := rfl
@[simp] theorem State.modClock_scale (s : State) (f : ClockUnit → ClockUnit) : (s.modClock f).scale = s.scale := rfl
@[simp] theorem State.modClock_twist (s : State) (f : ClockUnit → ClockUnit) : (s.modClock f).twist = s.twist := rfl
@[simp] theorem State.modClock_edging (s : State) (f : ClockUnit → ClockUnit) : (s.modClock f).edging = s.edging :=
  rfl
@[simp] theorem State.modClock_partner (s : State) (f : ClockUnit → ClockUnit) : (s.modClock f).partner = s.partner :=
  rfl
@[simp] theorem State.modClock_net (s : State) (f : ClockUnit → ClockUnit) : (s.modClock f).net = s.net := rfl
@[simp] theorem State.modClock_mirror (s : State) (f : ClockUnit → ClockUnit) : (s.modClock f).mirror = s.mirror :=
  rfl
@[simp] theorem State.modClock_keys (s : State) (f : ClockUnit → ClockUnit) : (s.modClock f).keys = s.keys := rfl
@[simp] theorem State.modClock_trouble (s : State) (f : ClockUnit → ClockUnit) : (s.modClock f).trouble = s.trouble :=
  rfl
@[simp] theorem State.modClock_freeCount (s : State) (f : ClockUnit → ClockUnit) : (s.modClock f).freeCount = s.freeCount :=
  rfl
@[simp] theorem State.modClock_testEnable (s : State) (f : ClockUnit → ClockUnit) : (s.modClock f).testEnable = s.testEnable :=
  rfl
@[simp] theorem State.modClock_testLocal (s : State) (f : ClockUnit → ClockUnit) : (s.modClock f).testLocal = s.testLocal :=
  rfl
@[simp] theorem State.modClock_pages (s : State) (f : ClockUnit → ClockUnit) : (s.modClock f).pages = s.pages := rfl
@[simp] theorem State.modClock_mmioOut (s : State) (f : ClockUnit → ClockUnit) : (s.modClock f).mmioOut = s.mmioOut :=
  rfl
@[simp] theorem State.modClock_maskOut (s : State) (f : ClockUnit → ClockUnit) : (s.modClock f).maskOut = s.maskOut :=
  rfl
@[simp] theorem State.modClock_outbox (s : State) (f : ClockUnit → ClockUnit) : (s.modClock f).outbox = s.outbox :=
  rfl
@[simp] theorem State.modClock_clock (s : State) (f : ClockUnit → ClockUnit) : (s.modClock f).clock = f s.clock := rfl

/-! ### `State.modTrouble` -/

@[simp] theorem State.modTrouble_pending (s : State) (f : TroubleUnit → TroubleUnit) : (s.modTrouble f).pending = s.pending :=
  rfl
@[simp] theorem State.modTrouble_wz (s : State) (f : TroubleUnit → TroubleUnit) : (s.modTrouble f).wz = s.wz := rfl
@[simp] theorem State.modTrouble_package (s : State) (f : TroubleUnit → TroubleUnit) : (s.modTrouble f).package = s.package :=
  rfl
@[simp] theorem State.modTrouble_powered (s : State) (f : TroubleUnit → TroubleUnit) : (s.modTrouble f).powered = s.powered :=
  rfl
@[simp] theorem State.modTrouble_resetting (s : State) (f : TroubleUnit → TroubleUnit) : (s.modTrouble f).resetting = s.resetting :=
  rfl
@[simp] theorem State.modTrouble_resetHeld (s : State) (f : TroubleUnit → TroubleUnit) : (s.modTrouble f).resetHeld = s.resetHeld :=
  rfl
@[simp] theorem State.modTrouble_lastReset (s : State) (f : TroubleUnit → TroubleUnit) : (s.modTrouble f).lastReset = s.lastReset :=
  rfl
@[simp] theorem State.modTrouble_rest (s : State) (f : TroubleUnit → TroubleUnit) : (s.modTrouble f).rest = s.rest :=
  rfl
@[simp] theorem State.modTrouble_transit (s : State) (f : TroubleUnit → TroubleUnit) : (s.modTrouble f).transit = s.transit :=
  rfl
@[simp] theorem State.modTrouble_restRefused (s : State) (f : TroubleUnit → TroubleUnit) : (s.modTrouble f).restRefused = s.restRefused :=
  rfl
@[simp] theorem State.modTrouble_capGen (s : State) (f : TroubleUnit → TroubleUnit) : (s.modTrouble f).capGen = s.capGen :=
  rfl
@[simp] theorem State.modTrouble_hoops (s : State) (f : TroubleUnit → TroubleUnit) : (s.modTrouble f).hoops = s.hoops :=
  rfl
@[simp] theorem State.modTrouble_fabric (s : State) (f : TroubleUnit → TroubleUnit) : (s.modTrouble f).fabric = s.fabric :=
  rfl
@[simp] theorem State.modTrouble_pstore (s : State) (f : TroubleUnit → TroubleUnit) : (s.modTrouble f).pstore = s.pstore :=
  rfl
@[simp] theorem State.modTrouble_estore (s : State) (f : TroubleUnit → TroubleUnit) : (s.modTrouble f).estore = s.estore :=
  rfl
@[simp] theorem State.modTrouble_regs (s : State) (f : TroubleUnit → TroubleUnit) : (s.modTrouble f).regs = s.regs :=
  rfl
@[simp] theorem State.modTrouble_ecc (s : State) (f : TroubleUnit → TroubleUnit) : (s.modTrouble f).ecc = s.ecc := rfl
@[simp] theorem State.modTrouble_ctx (s : State) (f : TroubleUnit → TroubleUnit) : (s.modTrouble f).ctx = s.ctx := rfl
@[simp] theorem State.modTrouble_masks (s : State) (f : TroubleUnit → TroubleUnit) : (s.modTrouble f).masks = s.masks :=
  rfl
@[simp] theorem State.modTrouble_carries (s : State) (f : TroubleUnit → TroubleUnit) : (s.modTrouble f).carries = s.carries :=
  rfl
@[simp] theorem State.modTrouble_issue (s : State) (f : TroubleUnit → TroubleUnit) : (s.modTrouble f).issue = s.issue :=
  rfl
@[simp] theorem State.modTrouble_xfers (s : State) (f : TroubleUnit → TroubleUnit) : (s.modTrouble f).xfers = s.xfers :=
  rfl
@[simp] theorem State.modTrouble_panelMap (s : State) (f : TroubleUnit → TroubleUnit) : (s.modTrouble f).panelMap = s.panelMap :=
  rfl
@[simp] theorem State.modTrouble_panels (s : State) (f : TroubleUnit → TroubleUnit) : (s.modTrouble f).panels = s.panels :=
  rfl
@[simp] theorem State.modTrouble_hoopMeta (s : State) (f : TroubleUnit → TroubleUnit) : (s.modTrouble f).hoopMeta = s.hoopMeta :=
  rfl
@[simp] theorem State.modTrouble_arb (s : State) (f : TroubleUnit → TroubleUnit) : (s.modTrouble f).arb = s.arb := rfl
@[simp] theorem State.modTrouble_motif (s : State) (f : TroubleUnit → TroubleUnit) : (s.modTrouble f).motif = s.motif :=
  rfl
@[simp] theorem State.modTrouble_scale (s : State) (f : TroubleUnit → TroubleUnit) : (s.modTrouble f).scale = s.scale :=
  rfl
@[simp] theorem State.modTrouble_twist (s : State) (f : TroubleUnit → TroubleUnit) : (s.modTrouble f).twist = s.twist :=
  rfl
@[simp] theorem State.modTrouble_edging (s : State) (f : TroubleUnit → TroubleUnit) : (s.modTrouble f).edging = s.edging :=
  rfl
@[simp] theorem State.modTrouble_partner (s : State) (f : TroubleUnit → TroubleUnit) : (s.modTrouble f).partner = s.partner :=
  rfl
@[simp] theorem State.modTrouble_net (s : State) (f : TroubleUnit → TroubleUnit) : (s.modTrouble f).net = s.net := rfl
@[simp] theorem State.modTrouble_mirror (s : State) (f : TroubleUnit → TroubleUnit) : (s.modTrouble f).mirror = s.mirror :=
  rfl
@[simp] theorem State.modTrouble_clock (s : State) (f : TroubleUnit → TroubleUnit) : (s.modTrouble f).clock = s.clock :=
  rfl
@[simp] theorem State.modTrouble_keys (s : State) (f : TroubleUnit → TroubleUnit) : (s.modTrouble f).keys = s.keys :=
  rfl
@[simp] theorem State.modTrouble_freeCount (s : State) (f : TroubleUnit → TroubleUnit) : (s.modTrouble f).freeCount = s.freeCount :=
  rfl
@[simp] theorem State.modTrouble_testEnable (s : State) (f : TroubleUnit → TroubleUnit) : (s.modTrouble f).testEnable = s.testEnable :=
  rfl
@[simp] theorem State.modTrouble_testLocal (s : State) (f : TroubleUnit → TroubleUnit) : (s.modTrouble f).testLocal = s.testLocal :=
  rfl
@[simp] theorem State.modTrouble_pages (s : State) (f : TroubleUnit → TroubleUnit) : (s.modTrouble f).pages = s.pages :=
  rfl
@[simp] theorem State.modTrouble_mmioOut (s : State) (f : TroubleUnit → TroubleUnit) : (s.modTrouble f).mmioOut = s.mmioOut :=
  rfl
@[simp] theorem State.modTrouble_maskOut (s : State) (f : TroubleUnit → TroubleUnit) : (s.modTrouble f).maskOut = s.maskOut :=
  rfl
@[simp] theorem State.modTrouble_outbox (s : State) (f : TroubleUnit → TroubleUnit) : (s.modTrouble f).outbox = s.outbox :=
  rfl
@[simp] theorem State.modTrouble_trouble (s : State) (f : TroubleUnit → TroubleUnit) : (s.modTrouble f).trouble = f s.trouble := rfl

/-! ### `State.modPartner` -/

@[simp] theorem State.modPartner_pending (s : State) (f : PartnerUnit → PartnerUnit) : (s.modPartner f).pending = s.pending :=
  rfl
@[simp] theorem State.modPartner_wz (s : State) (f : PartnerUnit → PartnerUnit) : (s.modPartner f).wz = s.wz := rfl
@[simp] theorem State.modPartner_package (s : State) (f : PartnerUnit → PartnerUnit) : (s.modPartner f).package = s.package :=
  rfl
@[simp] theorem State.modPartner_powered (s : State) (f : PartnerUnit → PartnerUnit) : (s.modPartner f).powered = s.powered :=
  rfl
@[simp] theorem State.modPartner_resetting (s : State) (f : PartnerUnit → PartnerUnit) : (s.modPartner f).resetting = s.resetting :=
  rfl
@[simp] theorem State.modPartner_resetHeld (s : State) (f : PartnerUnit → PartnerUnit) : (s.modPartner f).resetHeld = s.resetHeld :=
  rfl
@[simp] theorem State.modPartner_lastReset (s : State) (f : PartnerUnit → PartnerUnit) : (s.modPartner f).lastReset = s.lastReset :=
  rfl
@[simp] theorem State.modPartner_rest (s : State) (f : PartnerUnit → PartnerUnit) : (s.modPartner f).rest = s.rest :=
  rfl
@[simp] theorem State.modPartner_transit (s : State) (f : PartnerUnit → PartnerUnit) : (s.modPartner f).transit = s.transit :=
  rfl
@[simp] theorem State.modPartner_restRefused (s : State) (f : PartnerUnit → PartnerUnit) : (s.modPartner f).restRefused = s.restRefused :=
  rfl
@[simp] theorem State.modPartner_capGen (s : State) (f : PartnerUnit → PartnerUnit) : (s.modPartner f).capGen = s.capGen :=
  rfl
@[simp] theorem State.modPartner_hoops (s : State) (f : PartnerUnit → PartnerUnit) : (s.modPartner f).hoops = s.hoops :=
  rfl
@[simp] theorem State.modPartner_fabric (s : State) (f : PartnerUnit → PartnerUnit) : (s.modPartner f).fabric = s.fabric :=
  rfl
@[simp] theorem State.modPartner_pstore (s : State) (f : PartnerUnit → PartnerUnit) : (s.modPartner f).pstore = s.pstore :=
  rfl
@[simp] theorem State.modPartner_estore (s : State) (f : PartnerUnit → PartnerUnit) : (s.modPartner f).estore = s.estore :=
  rfl
@[simp] theorem State.modPartner_regs (s : State) (f : PartnerUnit → PartnerUnit) : (s.modPartner f).regs = s.regs :=
  rfl
@[simp] theorem State.modPartner_ecc (s : State) (f : PartnerUnit → PartnerUnit) : (s.modPartner f).ecc = s.ecc := rfl
@[simp] theorem State.modPartner_ctx (s : State) (f : PartnerUnit → PartnerUnit) : (s.modPartner f).ctx = s.ctx := rfl
@[simp] theorem State.modPartner_masks (s : State) (f : PartnerUnit → PartnerUnit) : (s.modPartner f).masks = s.masks :=
  rfl
@[simp] theorem State.modPartner_carries (s : State) (f : PartnerUnit → PartnerUnit) : (s.modPartner f).carries = s.carries :=
  rfl
@[simp] theorem State.modPartner_issue (s : State) (f : PartnerUnit → PartnerUnit) : (s.modPartner f).issue = s.issue :=
  rfl
@[simp] theorem State.modPartner_xfers (s : State) (f : PartnerUnit → PartnerUnit) : (s.modPartner f).xfers = s.xfers :=
  rfl
@[simp] theorem State.modPartner_panelMap (s : State) (f : PartnerUnit → PartnerUnit) : (s.modPartner f).panelMap = s.panelMap :=
  rfl
@[simp] theorem State.modPartner_panels (s : State) (f : PartnerUnit → PartnerUnit) : (s.modPartner f).panels = s.panels :=
  rfl
@[simp] theorem State.modPartner_hoopMeta (s : State) (f : PartnerUnit → PartnerUnit) : (s.modPartner f).hoopMeta = s.hoopMeta :=
  rfl
@[simp] theorem State.modPartner_arb (s : State) (f : PartnerUnit → PartnerUnit) : (s.modPartner f).arb = s.arb := rfl
@[simp] theorem State.modPartner_motif (s : State) (f : PartnerUnit → PartnerUnit) : (s.modPartner f).motif = s.motif :=
  rfl
@[simp] theorem State.modPartner_scale (s : State) (f : PartnerUnit → PartnerUnit) : (s.modPartner f).scale = s.scale :=
  rfl
@[simp] theorem State.modPartner_twist (s : State) (f : PartnerUnit → PartnerUnit) : (s.modPartner f).twist = s.twist :=
  rfl
@[simp] theorem State.modPartner_edging (s : State) (f : PartnerUnit → PartnerUnit) : (s.modPartner f).edging = s.edging :=
  rfl
@[simp] theorem State.modPartner_net (s : State) (f : PartnerUnit → PartnerUnit) : (s.modPartner f).net = s.net := rfl
@[simp] theorem State.modPartner_mirror (s : State) (f : PartnerUnit → PartnerUnit) : (s.modPartner f).mirror = s.mirror :=
  rfl
@[simp] theorem State.modPartner_clock (s : State) (f : PartnerUnit → PartnerUnit) : (s.modPartner f).clock = s.clock :=
  rfl
@[simp] theorem State.modPartner_keys (s : State) (f : PartnerUnit → PartnerUnit) : (s.modPartner f).keys = s.keys :=
  rfl
@[simp] theorem State.modPartner_trouble (s : State) (f : PartnerUnit → PartnerUnit) : (s.modPartner f).trouble = s.trouble :=
  rfl
@[simp] theorem State.modPartner_freeCount (s : State) (f : PartnerUnit → PartnerUnit) : (s.modPartner f).freeCount = s.freeCount :=
  rfl
@[simp] theorem State.modPartner_testEnable (s : State) (f : PartnerUnit → PartnerUnit) : (s.modPartner f).testEnable = s.testEnable :=
  rfl
@[simp] theorem State.modPartner_testLocal (s : State) (f : PartnerUnit → PartnerUnit) : (s.modPartner f).testLocal = s.testLocal :=
  rfl
@[simp] theorem State.modPartner_pages (s : State) (f : PartnerUnit → PartnerUnit) : (s.modPartner f).pages = s.pages :=
  rfl
@[simp] theorem State.modPartner_mmioOut (s : State) (f : PartnerUnit → PartnerUnit) : (s.modPartner f).mmioOut = s.mmioOut :=
  rfl
@[simp] theorem State.modPartner_maskOut (s : State) (f : PartnerUnit → PartnerUnit) : (s.modPartner f).maskOut = s.maskOut :=
  rfl
@[simp] theorem State.modPartner_outbox (s : State) (f : PartnerUnit → PartnerUnit) : (s.modPartner f).outbox = s.outbox :=
  rfl
@[simp] theorem State.modPartner_partner (s : State) (f : PartnerUnit → PartnerUnit) : (s.modPartner f).partner = f s.partner := rfl

/-! ### Reading what an update wrote -/

theorem State.reg_setReg (s : State) (h : SMap.wf 0 s.regs = true) (p off q x : Nat) (v : Word) :
    (s.setReg p off v).reg q x = if q * 4096 + x = p * 4096 + off then
      v ^^^ regReset p off ^^^ regReset q x else s.reg q x := by
  unfold State.reg State.setReg
  dsimp only
  rw [SMap.get_set h]
  split <;> rfl

/-- A register reads what was written to it. -/
theorem State.reg_setReg_self (s : State) (h : SMap.wf 0 s.regs = true) (p off : Nat) (v : Word) :
    (s.setReg p off v).reg p off = v := by
  rw [s.reg_setReg h, if_pos rfl, BitVec.xor_assoc, BitVec.xor_self, BitVec.xor_zero]

/-- A register write leaves every other register of the pages. -/
theorem State.reg_setReg_other (s : State) (h : SMap.wf 0 s.regs = true) (p off q x : Nat) (v : Word)
    (hx : x < 4096) (ho : off < 4096) (hn : (q, x) ≠ (p, off)) : (s.setReg p off v).reg q x = s.reg q x := by
  rw [s.reg_setReg h, if_neg]
  intro e
  exact hn (by rw [Prod.mk.injEq]; omega)

@[simp] theorem State.setReg_counter (s : State) (p off : Nat) (v : Word) (c : Ctr) :
    (s.setReg p off v).counter c = s.counter c := rfl

@[simp] theorem State.mark_counter (s : State) (p b : Nat) (c : Ctr) : (s.mark p b).counter c = s.counter c := rfl

/-- A counter after events: it rises, at most to its maximum (R407); the others stay. -/
theorem State.counter_bump (s : State) (c d : Ctr) (n : Nat) (hc : c.index < 25) :
    (s.bump c n).counter d =
      if c.index = d.index ∧ n ≠ 0 then min (s.counter d + n) (ctrMax d.index) else s.counter d := by
  unfold State.bump
  by_cases hn : n = 0
  · simp [hn]
  · rw [if_neg hn]
    have keep : ∀ (t : State) (b : Bool), (t.markIf b 14 16).counter d = t.counter d := fun t b => by cases b <;> rfl
    rw [keep]
    simp only [State.counter, Vector.getElem?_setIfInBounds]
    by_cases he : c.index = d.index
    · have hd : d.index < 25 := he ▸ hc
      simp [he, hn, hd]
    · simp [he]

theorem State.mask_setMask (s : State) (k j : Nat) (m : BitVec 4096) (hk : k < 8) :
    (s.setMask k m).mask j = if k ≠ 0 ∧ j = k then m else s.mask j := by
  unfold State.setMask State.mask
  by_cases h0 : k = 0
  · simp [h0]
  · rw [if_neg h0]
    by_cases hj : j = 0
    · simp [hj]; intro h; omega
    · simp only [hj, if_false, Vector.getElem?_setIfInBounds]
      by_cases hjk : j = k
      · subst hjk; simp [h0, hk]
      · have : ¬ k = j := fun e => hjk e.symm
        simp [hjk, this]

theorem State.slot_setSlot (s : State) (h : SMap.wf ScaleSlot.reset s.scale.slots = true) (i j : Nat) (x : ScaleSlot) :
    (s.setSlot i x).slot j = if j = i then x else s.slot j := SMap.get_set h i x j

theorem State.mslot_setMslot (s : State) (i j : Nat) (x : MotifSlot) (hi : i < 16) :
    (s.setMslot i x).mslot j = if j = i then x else s.mslot j := by
  unfold State.setMslot State.mslot
  simp only [Vector.getElem?_setIfInBounds]
  by_cases hj : j = i
  · subst hj; simp [hi]
  · have : ¬ i = j := fun e => hj e.symm
    simp [hj, this]

theorem State.bank_setBank (s : State) (i j : Nat) (x : Bank) (hi : i < 2) :
    (s.setBank i x).bank j = if j = i then x else s.bank j := by
  unfold State.setBank State.bank
  simp only [Vector.getElem?_setIfInBounds]
  by_cases hj : j = i
  · subst hj; simp [hi]
  · have : ¬ i = j := fun e => hj e.symm
    simp [hj, this]

theorem Ctx.sreg_setS (c : Ctx) (k r : BitVec 5) (v : BitVec 64) :
    (c.setS k v).sreg r = if r = 0 then 0 else if r = k then v else c.sreg r := by
  unfold Ctx.setS Ctx.sreg
  by_cases hr : r = 0
  · simp [hr]
  · rw [if_neg (c := r = 0) hr]
    by_cases hk : k = 0
    · rw [if_pos hk]
      have : ¬ r = k := fun e => hr (e.trans hk)
      rw [if_neg this, if_neg hr, if_neg hr]
    · rw [if_neg hk]
      simp only [Vector.getElem?_setIfInBounds]
      by_cases hrk : r = k
      · subst hrk
        have := r.isLt
        rw [if_neg hr]
        simp [this]
      · have : ¬ k.toNat = r.toNat := fun e => hrk (BitVec.eq_of_toNat_eq e.symm)
        rw [if_neg hr, if_neg hr, if_neg hrk, if_neg this]

end Sys2Proof.Machine
end

