-- ==== Sys2Proof/Laws/Settle.lean ====
section
/-!
SUPPORT. Every command ends by settling (R34, R45, R404); what settling leaves unchanged, and field lemmas of the
named updates.
-/

namespace Sys2Proof.Machine

/-- Every command answers a next state, the effect of its meaning settled. -/
theorem exec_settles (c : Instr) (s : State) : ∃ u, exec c s = .next (State.settle s u) := by
  cases c <;> exact ⟨_, rfl⟩

theorem settle_eq (s t : State) : State.settle s t =
    if t.resetting.isSome || !t.powered then t
    else State.settleFirst s (State.settleDown (State.settleCap s t)) := rfl

/-- A field that neither CAP_CHANGE, the trigger queue nor FIRST touches is as before settling. -/
theorem settle_keeps {α : Type} (P : State → α)
    (h1 : ∀ (t : State) (c : Word) (p : Vector PageHdr 16), P { t with capGen := c, pages := p } = P t)
    (h2 : ∀ (t : State) (u : TroubleUnit) (p : Vector PageHdr 16) (x : List Trigger) (y : List Tile) (o : List OutMsg),
      P { t with trouble := u, pages := p, edging := { t.edging with trig := x, tiles := y }, outbox := o } = P t)
    (s t : State) : P (State.settle s t) = P t := by
  have cap : P (State.settleCap s t) = P t := by
    unfold State.settleCap
    split
    · rfl
    · exact h1 t _ _
  have down : ∀ u : State, P (State.settleDown u) = P u := by
    intro u
    unfold State.settleDown State.refuseTriggers
    split
    · split
      · exact h2 u _ _ _ _ _
      · exact h2 u _ _ _ _ _
    · rfl
  have first : ∀ u : State, P (State.settleFirst s u) = P u := by
    intro u
    unfold State.settleFirst
    split
    · rfl
    · split
      · rfl
      · exact h2 u _ _ _ _ _
  rw [settle_eq]
  split
  · rfl
  · rw [first, down, cap]

@[simp] theorem settle_pending (s t : State) : (State.settle s t).pending = t.pending :=
  settle_keeps State.pending (fun _ _ _ => rfl) (fun _ _ _ _ _ _ => rfl) s t

@[simp] theorem settle_wz (s t : State) : (State.settle s t).wz = t.wz :=
  settle_keeps State.wz (fun _ _ _ => rfl) (fun _ _ _ _ _ _ => rfl) s t

@[simp] theorem settle_package (s t : State) : (State.settle s t).package = t.package :=
  settle_keeps State.package (fun _ _ _ => rfl) (fun _ _ _ _ _ _ => rfl) s t

@[simp] theorem settle_powered (s t : State) : (State.settle s t).powered = t.powered :=
  settle_keeps State.powered (fun _ _ _ => rfl) (fun _ _ _ _ _ _ => rfl) s t

@[simp] theorem settle_resetting (s t : State) : (State.settle s t).resetting = t.resetting :=
  settle_keeps State.resetting (fun _ _ _ => rfl) (fun _ _ _ _ _ _ => rfl) s t

@[simp] theorem settle_resetHeld (s t : State) : (State.settle s t).resetHeld = t.resetHeld :=
  settle_keeps State.resetHeld (fun _ _ _ => rfl) (fun _ _ _ _ _ _ => rfl) s t

@[simp] theorem settle_lastReset (s t : State) : (State.settle s t).lastReset = t.lastReset :=
  settle_keeps State.lastReset (fun _ _ _ => rfl) (fun _ _ _ _ _ _ => rfl) s t

@[simp] theorem settle_rest (s t : State) : (State.settle s t).rest = t.rest :=
  settle_keeps State.rest (fun _ _ _ => rfl) (fun _ _ _ _ _ _ => rfl) s t

@[simp] theorem settle_transit (s t : State) : (State.settle s t).transit = t.transit :=
  settle_keeps State.transit (fun _ _ _ => rfl) (fun _ _ _ _ _ _ => rfl) s t

@[simp] theorem settle_restRefused (s t : State) : (State.settle s t).restRefused = t.restRefused :=
  settle_keeps State.restRefused (fun _ _ _ => rfl) (fun _ _ _ _ _ _ => rfl) s t

@[simp] theorem settle_hoops (s t : State) : (State.settle s t).hoops = t.hoops :=
  settle_keeps State.hoops (fun _ _ _ => rfl) (fun _ _ _ _ _ _ => rfl) s t

@[simp] theorem settle_fabric (s t : State) : (State.settle s t).fabric = t.fabric :=
  settle_keeps State.fabric (fun _ _ _ => rfl) (fun _ _ _ _ _ _ => rfl) s t

@[simp] theorem settle_pstore (s t : State) : (State.settle s t).pstore = t.pstore :=
  settle_keeps State.pstore (fun _ _ _ => rfl) (fun _ _ _ _ _ _ => rfl) s t

@[simp] theorem settle_estore (s t : State) : (State.settle s t).estore = t.estore :=
  settle_keeps State.estore (fun _ _ _ => rfl) (fun _ _ _ _ _ _ => rfl) s t

@[simp] theorem settle_regs (s t : State) : (State.settle s t).regs = t.regs :=
  settle_keeps State.regs (fun _ _ _ => rfl) (fun _ _ _ _ _ _ => rfl) s t

@[simp] theorem settle_ecc (s t : State) : (State.settle s t).ecc = t.ecc :=
  settle_keeps State.ecc (fun _ _ _ => rfl) (fun _ _ _ _ _ _ => rfl) s t

@[simp] theorem settle_ctx (s t : State) : (State.settle s t).ctx = t.ctx :=
  settle_keeps State.ctx (fun _ _ _ => rfl) (fun _ _ _ _ _ _ => rfl) s t

@[simp] theorem settle_masks (s t : State) : (State.settle s t).masks = t.masks :=
  settle_keeps State.masks (fun _ _ _ => rfl) (fun _ _ _ _ _ _ => rfl) s t

@[simp] theorem settle_carries (s t : State) : (State.settle s t).carries = t.carries :=
  settle_keeps State.carries (fun _ _ _ => rfl) (fun _ _ _ _ _ _ => rfl) s t

@[simp] theorem settle_issue (s t : State) : (State.settle s t).issue = t.issue :=
  settle_keeps State.issue (fun _ _ _ => rfl) (fun _ _ _ _ _ _ => rfl) s t

@[simp] theorem settle_xfers (s t : State) : (State.settle s t).xfers = t.xfers :=
  settle_keeps State.xfers (fun _ _ _ => rfl) (fun _ _ _ _ _ _ => rfl) s t

@[simp] theorem settle_panelMap (s t : State) : (State.settle s t).panelMap = t.panelMap :=
  settle_keeps State.panelMap (fun _ _ _ => rfl) (fun _ _ _ _ _ _ => rfl) s t

@[simp] theorem settle_panels (s t : State) : (State.settle s t).panels = t.panels :=
  settle_keeps State.panels (fun _ _ _ => rfl) (fun _ _ _ _ _ _ => rfl) s t

@[simp] theorem settle_hoopMeta (s t : State) : (State.settle s t).hoopMeta = t.hoopMeta :=
  settle_keeps State.hoopMeta (fun _ _ _ => rfl) (fun _ _ _ _ _ _ => rfl) s t

@[simp] theorem settle_arb (s t : State) : (State.settle s t).arb = t.arb :=
  settle_keeps State.arb (fun _ _ _ => rfl) (fun _ _ _ _ _ _ => rfl) s t

@[simp] theorem settle_motif (s t : State) : (State.settle s t).motif = t.motif :=
  settle_keeps State.motif (fun _ _ _ => rfl) (fun _ _ _ _ _ _ => rfl) s t

@[simp] theorem settle_scale (s t : State) : (State.settle s t).scale = t.scale :=
  settle_keeps State.scale (fun _ _ _ => rfl) (fun _ _ _ _ _ _ => rfl) s t

@[simp] theorem settle_twist (s t : State) : (State.settle s t).twist = t.twist :=
  settle_keeps State.twist (fun _ _ _ => rfl) (fun _ _ _ _ _ _ => rfl) s t

@[simp] theorem settle_partner (s t : State) : (State.settle s t).partner = t.partner :=
  settle_keeps State.partner (fun _ _ _ => rfl) (fun _ _ _ _ _ _ => rfl) s t

@[simp] theorem settle_net (s t : State) : (State.settle s t).net = t.net :=
  settle_keeps State.net (fun _ _ _ => rfl) (fun _ _ _ _ _ _ => rfl) s t

@[simp] theorem settle_mirror (s t : State) : (State.settle s t).mirror = t.mirror :=
  settle_keeps State.mirror (fun _ _ _ => rfl) (fun _ _ _ _ _ _ => rfl) s t

@[simp] theorem settle_clock (s t : State) : (State.settle s t).clock = t.clock :=
  settle_keeps State.clock (fun _ _ _ => rfl) (fun _ _ _ _ _ _ => rfl) s t

@[simp] theorem settle_keys (s t : State) : (State.settle s t).keys = t.keys :=
  settle_keeps State.keys (fun _ _ _ => rfl) (fun _ _ _ _ _ _ => rfl) s t

@[simp] theorem settle_freeCount (s t : State) : (State.settle s t).freeCount = t.freeCount :=
  settle_keeps State.freeCount (fun _ _ _ => rfl) (fun _ _ _ _ _ _ => rfl) s t

@[simp] theorem settle_testEnable (s t : State) : (State.settle s t).testEnable = t.testEnable :=
  settle_keeps State.testEnable (fun _ _ _ => rfl) (fun _ _ _ _ _ _ => rfl) s t

@[simp] theorem settle_testLocal (s t : State) : (State.settle s t).testLocal = t.testLocal :=
  settle_keeps State.testLocal (fun _ _ _ => rfl) (fun _ _ _ _ _ _ => rfl) s t

@[simp] theorem settle_mmioOut (s t : State) : (State.settle s t).mmioOut = t.mmioOut :=
  settle_keeps State.mmioOut (fun _ _ _ => rfl) (fun _ _ _ _ _ _ => rfl) s t

@[simp] theorem settle_maskOut (s t : State) : (State.settle s t).maskOut = t.maskOut :=
  settle_keeps State.maskOut (fun _ _ _ => rfl) (fun _ _ _ _ _ _ => rfl) s t

@[simp] theorem settle_edging_binds (s t : State) : (State.settle s t).edging.binds = t.edging.binds :=
  settle_keeps (fun u => u.edging.binds) (fun _ _ _ => rfl) (fun _ _ _ _ _ _ => rfl) s t

@[simp] theorem settle_edging_run (s t : State) : (State.settle s t).edging.run = t.edging.run :=
  settle_keeps (fun u => u.edging.run) (fun _ _ _ => rfl) (fun _ _ _ _ _ _ => rfl) s t

@[simp] theorem settle_edging_compl (s t : State) : (State.settle s t).edging.compl = t.edging.compl :=
  settle_keeps (fun u => u.edging.compl) (fun _ _ _ => rfl) (fun _ _ _ _ _ _ => rfl) s t

@[simp] theorem settle_edging_banks (s t : State) : (State.settle s t).edging.banks = t.edging.banks :=
  settle_keeps (fun u => u.edging.banks) (fun _ _ _ => rfl) (fun _ _ _ _ _ _ => rfl) s t

@[simp] theorem settle_edging_entries (s t : State) : (State.settle s t).edging.entries = t.edging.entries :=
  settle_keeps (fun u => u.edging.entries) (fun _ _ _ => rfl) (fun _ _ _ _ _ _ => rfl) s t

@[simp] theorem settle_edging_verdict (s t : State) : (State.settle s t).edging.verdict = t.edging.verdict :=
  settle_keeps (fun u => u.edging.verdict) (fun _ _ _ => rfl) (fun _ _ _ _ _ _ => rfl) s t

@[simp] theorem settle_edging_armReason (s t : State) : (State.settle s t).edging.armReason = t.edging.armReason :=
  settle_keeps (fun u => u.edging.armReason) (fun _ _ _ => rfl) (fun _ _ _ _ _ _ => rfl) s t

@[simp] theorem settle_edging_armBinding (s t : State) : (State.settle s t).edging.armBinding = t.edging.armBinding :=
  settle_keeps (fun u => u.edging.armBinding) (fun _ _ _ => rfl) (fun _ _ _ _ _ _ => rfl) s t

@[simp] theorem settle_streams (s t : State) : (State.settle s t).streams = t.streams :=
  settle_keeps State.streams (fun _ _ _ => rfl) (fun _ _ _ _ _ _ => rfl) s t

@[simp] theorem settle_ctxOf (s t : State) (st : Stream) : (State.settle s t).ctxOf st = t.ctxOf st := by
  cases st <;> simp [State.ctxOf]

@[simp] theorem settle_pcOf (s t : State) (st : Stream) : (State.settle s t).pcOf st = t.pcOf st := by
  cases st <;> simp [State.pcOf]

@[simp] theorem settle_live (s t : State) : (State.settle s t).live = t.live := by simp [State.live]

@[simp] theorem settle_active (s t : State) : (State.settle s t).active = t.active := by simp [State.active]

@[simp] theorem settle_figures (s t : State) : (State.settle s t).figures = t.figures := by
  simp [State.figures, State.active]

/-! ### Sticky bits -/

theorem page_setPage (s : State) (p q : Nat) (h : PageHdr) (hp : p < 16) :
    (s.setPage p h).page q = if p = q then h else s.page q := by
  simp only [State.setPage, State.page, Vector.getElem?_setIfInBounds]
  split
  · next e => subst e; simp
  · rfl

theorem sticky_mark (s : State) (p b q : Nat) (hp : p < 16) :
    (s.mark p b).sticky q = if p = q then s.sticky q ||| BitVec.ofNat 32 (2 ^ b) else s.sticky q := by
  simp only [State.sticky, State.mark, page_setPage _ _ _ _ hp]
  split
  · next e => subst e; rfl
  · rfl

/-- A mark sets its bit. -/
theorem sticky_mark_self (s : State) (p b : Nat) (hp : p < 16) (hb : b < 32) : ((s.mark p b).sticky p).getLsbD b = true := by
  rw [sticky_mark _ _ _ _ hp, if_pos rfl, BitVec.getLsbD_or, BitVec.getLsbD_ofNat]
  simp [hb]

/-- A mark clears no bit. -/
theorem sticky_mark_keeps (s : State) (p b q n : Nat) (hp : p < 16) (h : (s.sticky q).getLsbD n = true) :
    ((s.mark p b).sticky q).getLsbD n = true := by
  rw [sticky_mark _ _ _ _ hp]
  split
  · rw [BitVec.getLsbD_or, h, Bool.true_or]
  · exact h

theorem settleFirst_pages (s t : State) : (State.settleFirst s t).pages = t.pages := by
  unfold State.settleFirst
  split
  · rfl
  · split <;> rfl

theorem settleFirst_counters (s t : State) : (State.settleFirst s t).trouble.counters = t.trouble.counters := by
  unfold State.settleFirst
  cases t.trouble.first.getLsbD 31
  · cases State.firstNew s t <;> simp
  · simp

theorem refuseTriggers_counters (t : State) : t.refuseTriggers.trouble.counters = t.trouble.counters := by
  unfold State.refuseTriggers
  split
  · rfl
  · simp only [State.mark_trouble]

theorem sticky_refuseTriggers (t : State) (q n : Nat) (h : (t.sticky q).getLsbD n = true) :
    (t.refuseTriggers.sticky q).getLsbD n = true := by
  unfold State.refuseTriggers
  split
  · exact h
  · exact sticky_mark_keeps _ _ _ _ _ (by omega) h

theorem settleDown_counters (t : State) : (State.settleDown t).trouble.counters = t.trouble.counters := by
  unfold State.settleDown
  split
  · rw [refuseTriggers_counters]
  · rfl

theorem sticky_settleDown (t : State) (q n : Nat) (h : (t.sticky q).getLsbD n = true) :
    ((State.settleDown t).sticky q).getLsbD n = true := by
  unfold State.settleDown
  split
  · exact sticky_refuseTriggers _ _ _ h
  · exact h

theorem settleCap_counters (s t : State) : (State.settleCap s t).trouble.counters = t.trouble.counters := by
  unfold State.settleCap
  split
  · rfl
  · simp only [State.mark_trouble]

theorem sticky_settleCap (s t : State) (q n : Nat) (h : (t.sticky q).getLsbD n = true) :
    ((State.settleCap s t).sticky q).getLsbD n = true := by
  unfold State.settleCap
  split
  · exact h
  · exact sticky_mark_keeps _ _ _ _ _ (by omega) h

/-- Settling clears no sticky bit. -/
theorem sticky_settle (s t : State) (q n : Nat) (h : (t.sticky q).getLsbD n = true) :
    ((State.settle s t).sticky q).getLsbD n = true := by
  rw [settle_eq]
  split
  · exact h
  · have e : ∀ u : State, (State.settleFirst s u).sticky q = u.sticky q := fun u => by
      simp only [State.sticky, State.page, settleFirst_pages]
    rw [e]
    exact sticky_settleDown _ _ _ (sticky_settleCap _ _ _ _ h)

/-- Settling counts nothing. -/
@[simp] theorem settle_counter (s t : State) (c : Ctr) : (State.settle s t).counter c = t.counter c := by
  rw [settle_eq]
  split
  · rfl
  · simp only [State.counter, settleFirst_counters, settleDown_counters, settleCap_counters]

end Sys2Proof.Machine
end

