-- ==== Sys2Proof/Laws/Repair.lean ====
section
/-!
SUPPORT. What the operations that wait for a boundary can do: the end of a structural activity, an injection behind held
writes, and a coupling that takes effect.
-/

namespace Sys2Proof.Machine

/-- With no aborted bundle an activity that ends takes its effect at once. -/
theorem State.actEnds_of_none {s : State} (a : Act) (h : s.issue.retry = none) :
    s.actEnds a = (s.actEffect a).endStruct := by
  simp [State.actEnds, h]

/-- Under an aborted bundle it is noted for the boundary after that (R326). -/
theorem State.actEnds_of_retry {s : State} {r : Retry} (a : Act) (h : s.issue.retry = some r) :
    s.actEnds a = (s.setRetry (some { r with acts := r.acts ++ [a] })).endStruct := by
  simp [State.actEnds, h]

/-- With nothing held an injection is made at once. -/
theorem State.inject_of_none {s : State} (t : EccTarget) (w : Nat) (m : BitVec 72) (h : s.issue.held = []) :
    s.inject t w m = s.doHeld (.inject t w m) := by
  simp [State.inject, h]

/-- What passing the last bundle of the main program leaves of the edge. -/
theorem State.passEnd_main_edging (s : State) : (s.passEnd .main).edging = s.edging := by
  unfold State.passEnd
  dsimp only
  split <;> rfl

/-- Without a run the edge stream waits for nothing. -/
theorem State.waitOf_edge_of_none {s : State} (h : s.edging.run = none) : s.waitOf .edge = none := by
  simp [State.waitOf, h]

/-- While no run is active only a WAIT of the main program can be one that the loss of the matrix engine ends. -/
theorem State.endTileWaits_of_none {s : State} (h : s.edging.run = none) :
    s.endTileWaits = if s.meUp then s else
      match s.waitOf .main with
      | some w => if w.kind = .bobbin then s.endWait .main 1 else s
      | none => s := by
  have hm (v : BitVec 64) : (s.endWait .main v).waitOf .edge = none := by
    apply State.waitOf_edge_of_none
    unfold State.endWait
    split
    · exact h
    · rw [State.passEnd_main_edging]; exact h
  have he := State.waitOf_edge_of_none h
  unfold State.endTileWaits
  split
  · rfl
  · cases hw : s.waitOf .main with
    | none => simp [hw, he]
    | some w => by_cases k : w.kind = .bobbin <;> simp [hw, k, hm, he]

/-- While no run is active a coupling takes effect as `State.coupled` says. -/
theorem State.couple_eq_coupled {s : State} (c : Coupling) (h : s.edging.run = none) : s.couple c = s.coupled c := by
  unfold State.couple State.coupled
  rw [State.endTileWaits_of_none (by exact h)]
  obtain hw | ⟨⟨k, sd, met⟩, hw⟩ := Option.eq_none_or_eq_some s.issue.wait
  · simp [State.modPartner, State.waitOf, hw]
  · cases k <;> by_cases hm : c.meSrc = 0xFF#8 <;>
      simp [State.modPartner, State.waitOf, State.meUp, State.endWait, State.setWait, State.modIssue, State.modCtx, hm, hw]

end Sys2Proof.Machine
end

