-- ==== Sys2Proof/Laws/Scalar.lean ====
section
/-!
SUPPORT. The state that the S slot of an executing bundle meets, and what positions and waits leave unchanged.
-/

namespace Sys2Proof.Machine

/-- The state of an executing bundle before its S slot writes back. -/
def State.beforeS (s : State) (i : Issue) : State :=
  let e := s.env i
  mRest e .normal ((mHand e .normal (v1Effect e (chainEffect e s))).beginLoad e.b.m)

theorem executed_eq (s : State) (i : Issue) : s.executed i =
    (if i.stream = .main then
      (sEffect (s.env i) (s.beforeS i)).modIssue fun x => { x with count := x.count + 1 }
    else sEffect (s.env i) (s.beforeS i)) := rfl

theorem beforeS_offPort (s : State) (i : Issue) : (s.beforeS i).offPort = s.offPort := by
  unfold State.beforeS
  simp only [mRest_offPort, beginLoad_offPort, mHand_offPort]
  exact offPort_of_offLane (by simp)

theorem beforeS_streams (s : State) (i : Issue) :
    (s.beforeS i).streams = (s.modCtx i.stream (s.env i).mCtx).streams := by
  unfold State.beforeS
  rw [mRest_streams]
  refine modCtx_streams ?_ _ _
  rw [beginLoad_streams, mHand_streams]
  exact streams_of_offLane (by simp)

theorem beforeS_issue (s : State) (i : Issue) : (s.beforeS i).issue = s.issue :=
  issue_of_offPort (beforeS_offPort s i)

theorem beforeS_regs (s : State) (i : Issue) : (s.beforeS i).regs = s.regs :=
  (congrArg State.regs (beforeS_offPort s i) : (s.beforeS i).offPort.regs = s.offPort.regs)

theorem beforeS_panelMap (s : State) (i : Issue) : (s.beforeS i).panelMap = s.panelMap :=
  (congrArg State.panelMap (beforeS_offPort s i) : (s.beforeS i).offPort.panelMap = s.offPort.panelMap)

theorem beforeS_core (s : State) (i : Issue) : (s.beforeS i).partner.core = s.partner.core :=
  (congrArg (fun t : State => t.partner.core) (beforeS_offPort s i) :
    (s.beforeS i).offPort.partner.core = s.offPort.partner.core)

theorem beforeS_vlmax (s : State) (i : Issue) (ew : EW) : (s.beforeS i).vlmax ew = s.vlmax ew := by
  simp only [State.vlmax, State.vlmaxAt, State.active, beforeS_panelMap]

theorem ctxOf_modCtx (s : State) (st : Stream) (f : Ctx → Ctx) (h : st = .edge → s.edging.run ≠ none) :
    (s.modCtx st f).ctxOf st = f (s.ctxOf st) := by
  cases st with
  | main => rfl
  | edge =>
    cases hr : s.edging.run with
    | none => exact absurd hr (h rfl)
    | some r => simp [State.modCtx, State.ctxOf, hr]

theorem beforeS_run (s : State) (i : Issue) (h : s.edging.run ≠ none) : (s.beforeS i).edging.run ≠ none := by
  have e : (s.beforeS i).edging.run = (s.modCtx i.stream (s.env i).mCtx).edging.run :=
    congrArg Prod.snd (beforeS_streams s i)
  rw [e]
  cases i.stream
  · exact h
  · simpa [State.modCtx] using h

theorem beforeS_ctxOf (s : State) (i : Issue) (h : i.stream = .edge → s.edging.run ≠ none) :
    (s.beforeS i).ctxOf i.stream = (s.env i).mCtx (s.ctxOf i.stream) := by
  rw [ctxOf_of_streams (beforeS_streams s i), ctxOf_modCtx s _ _ h]

/-- An offering edging stream has a run. -/
theorem canOffer_run {s : State} {st : Stream} (h : s.canOffer st = true) : st = .edge → s.edging.run ≠ none := by
  rintro rfl hr
  simp [State.canOffer, State.streamReady, hr] at h

/-! ### Positions -/

@[simp] theorem modIssue_ctxOf (s : State) (st : Stream) (f : IssueUnit → IssueUnit) :
    (s.modIssue f).ctxOf st = s.ctxOf st := by cases st <;> rfl

@[simp] theorem mark_ctxOf (s : State) (st : Stream) (p b : Nat) : (s.mark p b).ctxOf st = s.ctxOf st := by
  cases st <;> rfl

@[simp] theorem markIf_ctxOf (s : State) (st : Stream) (c : Bool) (p b : Nat) :
    (s.markIf c p b).ctxOf st = s.ctxOf st := ctxOf_of_offLane (by simp) st

@[simp] theorem raise_ctxOf (s : State) (st : Stream) (k : Nat) (r : Raises) :
    (s.raise k r).ctxOf st = s.ctxOf st := ctxOf_of_offLane (by simp) st

@[simp] theorem setPc_ctxOf (s : State) (st : Stream) (n : Nat) : (s.setPc st n).ctxOf st = s.ctxOf st := by
  cases st
  · rfl
  · simp only [State.setPc, State.modRun, State.ctxOf, Option.map_map]; rfl

@[simp] theorem setWait_ctxOf (s : State) (st : Stream) (w : Option Wait) : (s.setWait st w).ctxOf st = s.ctxOf st := by
  cases st
  · rfl
  · simp only [State.setWait, State.modRun, State.ctxOf, Option.map_map]; rfl

@[simp] theorem passEnd_ctxOf (s : State) (st : Stream) : (s.passEnd st).ctxOf st = s.ctxOf st := by
  cases st
  · simp only [State.passEnd]; split <;> simp [State.stopAt]
  · simp only [State.passEnd, State.modRun, State.ctxOf, Option.map_map]
    cases s.edging.run with
    | none => rfl
    | some r => simp only [Option.map_some, Function.comp]; split <;> rfl

@[simp] theorem goTo_ctxOf (s : State) (st : Stream) (n : Nat) : (s.goTo st n).ctxOf st = s.ctxOf st := by
  simp [State.goTo]

theorem setPc_pcOf (s : State) (st : Stream) (n : Nat) (h : st = .edge → s.edging.run ≠ none) :
    (s.setPc st n).pcOf st = n := by
  cases st with
  | main => rfl
  | edge =>
    cases hr : s.edging.run with
    | none => exact absurd hr (h rfl)
    | some r => simp [State.setPc, State.modRun, State.pcOf, hr]

@[simp] theorem mark_pcOf (s : State) (st : Stream) (p b : Nat) : (s.mark p b).pcOf st = s.pcOf st := by
  cases st <;> rfl

@[simp] theorem passEnd_pcOf (s : State) (st : Stream) : (s.passEnd st).pcOf st = s.pcOf st := by
  cases st
  · simp only [State.passEnd]; split <;> rfl
  · simp only [State.passEnd, State.modRun, State.pcOf, Option.map_map]
    cases s.edging.run with
    | none => rfl
    | some r => simp only [Option.map_some, Function.comp]; split <;> rfl

theorem goTo_pcOf (s : State) (st : Stream) (n : Nat) (h : st = .edge → s.edging.run ≠ none) :
    (s.goTo st n).pcOf st = n := by
  simp only [State.goTo, passEnd_pcOf, setPc_pcOf s st n h]

theorem modIssue_count_pcOf (s : State) (st : Stream) (f : IssueUnit → IssueUnit) (h : (f s.issue).pc = s.issue.pc) :
    (s.modIssue f).pcOf st = s.pcOf st := by
  cases st
  · exact h
  · rfl

theorem executed_ctxOf (s : State) (i : Issue) :
    (s.executed i).ctxOf i.stream = (sEffect (s.env i) (s.beforeS i)).ctxOf i.stream := by
  rw [executed_eq]; split <;> simp

theorem executed_pcOf (s : State) (i : Issue) :
    (s.executed i).pcOf i.stream = (sEffect (s.env i) (s.beforeS i)).pcOf i.stream := by
  rw [executed_eq]; split
  · rw [modIssue_count_pcOf _ _ _ rfl]
  · rfl

/-! ### Registers -/

theorem sreg_setS (c : Ctx) (k r : BitVec 5) (v : BitVec 64) :
    (c.setS k v).sreg r = if r = 0 then 0 else if r = k then v else c.sreg r := by
  unfold Ctx.setS Ctx.sreg
  by_cases hr : r = 0
  · simp [hr]
  · by_cases hk : k = 0
    · have : r ≠ k := by rw [hk]; exact hr
      rw [if_pos hk, if_neg hr, if_neg hr, if_neg this]
    · simp only [hr, hk, if_false]
      rw [Vector.getElem?_setIfInBounds]
      have hlt : k.toNat < 32 := k.isLt
      by_cases hrk : r = k
      · simp [hrk, hlt]
      · have : ¬ k.toNat = r.toNat := fun h => hrk (BitVec.eq_of_toNat_eq h.symm)
        simp [this, hrk]

@[simp] theorem setDesc_sreg (c : Ctx) (k : Nat) (d : Desc) (r : BitVec 5) : (c.setDesc k d).sreg r = c.sreg r := rfl

@[simp] theorem postCtx_sreg (e : Env) (c : Ctx) (r : BitVec 5) : (e.postCtx c).sreg r = c.sreg r := by
  unfold Env.postCtx; dsimp only; repeat' split
  all_goals rfl

theorem mCtx_sreg (e : Env) (c : Ctx) (r : BitVec 5) (h : e.b.m.major = 10 → r ≠ e.b.m.sreg) :
    (e.mCtx c).sreg r = c.sreg r := by
  unfold Env.mCtx
  rw [postCtx_sreg]
  split
  · next h10 =>
    have hm : e.b.m.major = 10 := BitVec.eq_of_toNat_eq (by simpa using h10)
    rw [sreg_setS]
    have := h hm
    simp only [this, if_false]
    split
    · next h0 => simp [Ctx.sreg, h0]
    · rfl
  · rfl

end Sys2Proof.Machine
end

