-- ==== Sys2Proof/Tests/Slice0.lean ====
section
/-!
SUPPORT. The model's own tests: ill-formed commands that the check refuses, single steps on small states, and for
every statement with hypotheses states and operands that meet them (the theorems named wit_).
-/

set_option Elab.async false

namespace Sys2Proof.Tests

open Sys2Proof Sys2Proof.Machine

/-! ### Small bundles and states -/

/-- The bundle of zeros (R80). -/
def none4 : Bundle := Bundle.decode 0

def sSlot (major : BitVec 6) (sd sa sb : BitVec 5) (imm : BitVec 11) : Bundle :=
  { none4 with s := ⟨imm, sb, sa, sd, major⟩ }

def mSlot (major : BitVec 6) (f : MSlot → MSlot) : Bundle :=
  { none4 with m := { f none4.m with major := major } }

def v1Slot (major : BitVec 6) (f : V1Slot → V1Slot) : Bundle :=
  { none4 with v1 := { f none4.v1 with major := major } }

def v0Slot (f : V0Slot → V0Slot) : Bundle := { none4 with v0 := { f none4.v0 with major := 1 } }

/-- A store whose bundle 0 is `b` (R82). -/
def storeOf (b : Bundle) : SMap Word :=
  (List.range 8).foldl (fun m k => m.set 0 k (b.encode.extractLsb' (32 * k) 32)) []

/-- Every partner present, the own matrix engine bound with its queue for the program, package 5 the buddy. -/
def partners : PartnerUnit :=
  { PartnerUnit.reset with
    me := true, core := true, sram := Vector.replicate 4 true, dram := true, rollBusy := false
    coupling := ⟨false, 0xFE, true⟩, buddy := some 5, buddyId := 5, reach := [(0, 0x20)] }

/-- The state after reset with its partners, keys, and issue running at bundle `b`. -/
def running (b : Bundle) : State :=
  { State.reset with
    issue := { IssueUnit.reset with running := true }
    pstore := storeOf b
    partner := partners
    keys := { SealUnit.reset with keys := Vector.replicate 4 ⟨.live, 7, none⟩ }
    net := { NetUnit.reset with credit := [(5, 3)] }
    ctx := { Ctx.reset with
      vl := 3, ew := .w16, sregs := (Ctx.reset.sregs.setIfInBounds 1 5).setIfInBounds 2 0x1400000 } }

/-- A tile of zeros, in the use that its event gave it. -/
def tile0 (u : TileUse) : Tile := ⟨u, 0, 0, [], 0⟩

/-- The same with the active edging run at bundle `b` and its tile on the direct port. -/
def edging (b : Bundle) : State :=
  let s := running b
  { s with
    estore := storeOf b
    partner := { partners with coupling := ⟨true, 0xFE, false⟩ }
    edging := { Edging.reset with
      tiles := [tile0 .direct]
      run := some ⟨0, false, 0, 0, false, 0, 0, 1, 0, s.ctx, none, none, 0⟩ } }

def mainOf (b : Bundle) : Issue := ⟨.main, b⟩

def edgeOf (b : Bundle) : Issue := ⟨.edge, b⟩

/-- `Clear` as a function. -/
def clearFor (s : State) (i : Issue) (o : MOut) : Bool :=
  s.canOffer i.stream && s.fetched i.stream == i.bundle && s.fetchErrs i.stream == [] &&
    s.legalHere i.stream i.bundle && (s.namedHoops i).all (fun h => s.hoopPresent h) &&
    (s.namedHoops i).all (fun h => !s.lentHoop h && !s.net.rxEn) && !s.mustWait (s.env i) o && (i.stream == .main || s.meUp) &&
    (i.stream == .main || i.bundle.m.major != 8 || !s.nextGone (s.env i).netAddr && ((s.nextArrival (s.env i).netAddr).map fun x => !x.2.goneRelease).getD
      (s.reachable (addrPackage (s.env i).netAddr))) &&
    (s.env i).readErrs == [] && (s.env i).leafErrs == [] && (s.env i).injected == none

theorem clear_of_clearFor {s : State} {i : Issue} {o : MOut} (h : clearFor s i o = true) : Clear s i o := by
  simp only [clearFor, Bool.and_eq_true, Bool.or_eq_true, beq_iff_eq, bne_iff_ne, List.all_eq_true,
    Bool.not_eq_true'] at h
  obtain ⟨⟨⟨⟨⟨⟨⟨⟨⟨⟨⟨h1, h2⟩, h3⟩, h4⟩, h5⟩, h6⟩, h7⟩, h8⟩, h9⟩, h10⟩, h11⟩, h12⟩ := h
  refine ⟨h1, h2, h3, h4, h5, fun _ x hx => ⟨(h6 x hx).1, fun hr => ?_⟩, h7, fun he _ => ?_, fun he hm => ?_, h10, h11, h12⟩
  · simp [(h6 x hx).2] at hr
  · rcases h8 with h8 | h8
    · rw [h8] at he; cases he
    · exact h8
  · rcases h9 with (h9 | h9) | h9
    · rw [h9] at he; cases he
    · exact absurd hm h9
    · refine ⟨h9.1, ?_⟩
      cases hn : s.nextArrival (s.env i).netAddr with
      | none => simpa [hn] using h9.2
      | some x => simpa [hn] using h9.2

/-- The conditions of the element statements beside `Clear`: canonical storage, at most sixteen panels, lengths
within VLMAX. -/
def bounds (s : State) : Bool :=
  s.canon && decide (s.active ≤ 16) && decide (s.ctx.vl ≤ s.vlmax s.ctx.ew) &&
    decide (s.ctx.rowshape ≤ s.vlmax s.ctx.ew)

/-- The command's bundle executes on the state, which is within bounds. -/
def fits (p : Instr × State) : Bool :=
  match p.1.row with
  | some (_, i) => p.1.wf && clearFor p.2 i .normal && bounds p.2
  | none => false

def onMain (f : Issue → Instr) (b : Bundle) : Instr × State := (f (mainOf b), running b)

def onEdge (f : Issue → Instr) (b : Bundle) : Instr × State := (f (edgeOf b), edging b)

/-- What a command answers: every meaning answers a next state. -/
def after (c : Instr) (s : State) : State :=
  match exec c s with
  | .next t => t
  | _ => s

/-! ### Ill-formed commands -/

theorem test_refuses_wrong_row : (Instr.addi (mainOf (sSlot 0x02 3 1 2 0))).wf = false := by decide
theorem test_refuses_recv_without_recv : (Instr.recvTimeout (mainOf none4)).wf = false := by decide
theorem test_refuses_popq_without_popq : (Instr.popqTimeout (mainOf none4)).wf = false := by decide
theorem test_refuses_no_lane_error : (Instr.laneError (mainOf none4) [] false).wf = false := by decide
theorem test_refuses_panel_18 : (Instr.laneError (mainOf none4) [⟨0, 18⟩] false).wf = false := by decide
theorem test_refuses_scalar_panel : (Instr.laneError (mainOf none4) [⟨3, 30⟩] false).wf = false := by decide
theorem test_refuses_long_arrivals : (Instr.fabricTimeout (2 ^ 4096)).wf = false := by decide +kernel
theorem test_refuses_tile_element : (Instr.tileCompletion 0 0 [(16384, 0)]).wf = false := by decide
theorem test_refuses_tile_repeat : (Instr.tileCompletion 0 0 [(7, 0), (7, 1)]).wf = false := by decide
theorem test_refuses_short_header : (Instr.recordVerified ⟨[], [], 0⟩).wf = false := by decide
theorem test_refuses_mark_codes :
    ([Instr.stepOpen ⟨0, 1, 0, 0⟩, .fwd ⟨0, 0, 0, 0⟩, .bwd ⟨0, 0, 0, 0⟩, .exch ⟨0, 0, 0, 0⟩, .update ⟨0, 0, 0, 0⟩,
      .commit ⟨0, 0, 0, 0⟩, .abort ⟨0, 0, 0, 0⟩, .idle ⟨0, 0, 0, 0⟩, .userMark ⟨0, 7, 0, 0⟩].all
      fun c => !c.wf) = true := by decide
theorem test_refuses_plain_bind : (Instr.registerWrite .host 8 0x048 .word 0).wf = false := by decide

/-! ### The spec's worked encodings and examples -/

def chainWord : BitVec 256 := 0x0001113320930300051820410000000000000000000000000000000000000000

/-- The chain of 04_bundles.md, "max(a·b + c, 0) to BF16". -/
theorem test_chain_word : (Bundle.decode chainWord).v0 =
    { none4.v0 with
      major := 1, cell1 := ⟨1, 0, 0, 1⟩, cell2 := ⟨5, 0, 3, 0⟩, a := 0x03, b := 0x93, c := 0x20, d := 0x33
      sfmt := 1, cfmt := 1, dfmt := 1 } ∧
    (Bundle.decode chainWord).encode = chainWord := by decide +kernel

/-- 04_bundles.md, "a function, a load and a loop in one bundle". -/
theorem test_loop_word :
    Bundle.decode 0x0000000000000000000000000006000444400041000000000220808102000159 =
      { none4 with
        v1 := { none4.v1 with major := 1, src1 := 0x01, dst := 0x11, sfmt := 1, dfmt := 1, ts := 6 }
        m := { none4.m with major := 1, hs := 0x02, dsc := 2, mfmt := 1, pi := 1 }
        s := ⟨0x010, 0, 0, 5, 0x19⟩ } := by decide +kernel

/-- Codes of 2 bytes, or of 4, laid from byte 0. -/
def halves (xs : List Nat) : List Byte := xs.flatMap (leBytes 2)

def words (xs : List Nat) : List Byte := xs.flatMap (leBytes 4)

/-- The state with contexts of VL `n` and width `ew`. -/
def sized (n : Nat) (ew : EW) (s : State) : State := { s with ctx := { s.ctx with vl := n, ew := ew } }

def dotB : Bundle := Bundle.decode 0x0000014000100000000060010000000000000000000000000000000000000000

def dotState : State :=
  let s := sized 8 .w16 (running dotB)
  (s.writeSlab 0 0 (halves [0x3FC0, 0x4000, 0x7F00, 0xFFC1, 0x3E80, 0xC040, 0x3F80, 0x3F00])).writeSlab 1 0
    (halves [0x4000, 0xBFA0, 0x4300, 0x3F80, 0x4080, 0x3F00, 0xBF80, 0x3F40])

/-- 06_lane_arithmetic.md, "a BF16 dot product": the products, OF with NX and NV of class activation, one saturation. -/
theorem test_dot_products :
    (List.range 8).map ((after (.chain (mainOf dotB)) dotState).elem .main 0x40 4) =
      [0x40400000, 0xC0200000, 0x7F7FFFFF, 0x7FC00000, 0x3F800000, 0xBFC00000, 0xBF800000, 0x3EC00000] ∧
    (after (.chain (mainOf dotB)) dotState).trouble.flags = 0xB ∧
    (after (.chain (mainOf dotB)) dotState).counter (.sat 0) = 1 := by decide +kernel

def redB : Bundle := v1Slot 4 fun v => { v with src1 := 0x40, dst := 0x50 }

/-- The same example: the second case's sum saturates; the first case's is NaN. -/
theorem test_dot_sums :
    ([(0x7FC00000, 0x7FC00000), (0x7F000000, 0x7F7FFFFF)].all fun p =>
      let s := (sized 8 .w16 (running redB)).writeSlab 4 0
        (words [0x40400000, 0xC0200000, 0x7F7FFFFF, p.1, 0x3F800000, 0xBFC00000, 0xBF800000, 0x3EC00000])
      (after (.red (mainOf redB)) s).elem .main 0x50 4 0 == p.2) = true := by decide +kernel

/-- 06_lane_arithmetic.md, "a truncated F32 product": the correctly rounded product of the two factors. -/
theorem test_rounded_product :
    (Fmt.f32.round ((Fmt.f32.value 0x3F81FFFF).mul (Fmt.f32.value 0x3F800021)) .rne).val = 0x3F820021 := by
  decide +kernel

/-- The table of 07_conversion_twist.md, "Worked conversions". -/
theorem test_conversions :
    (Fmt.bf16.round (Fmt.f32.value 0x3F808000) .rne).val = 0x3F80 ∧
    (Fmt.bf16.round (Fmt.f32.value 0x3F808000) (.sr 0x8000)).val = 0x3F81 ∧
    (Fmt.bf16.round (Fmt.f32.value 0x3F808000) (.sr 0x7FFF)).val = 0x3F80 ∧
    (Fmt.e4m3.round (Fmt.f32.value 0x3B100000) .rne).val = 0x01 ∧
    (Fmt.e4m3.round (Fmt.f32.value 0x3B100000) (.sr 0xE000)).val = 0x02 ∧
    (Fmt.e4m3.round (Fmt.f32.value 0x3B100000) (.sr 0xDFFF)).val = 0x01 ∧
    (Fmt.int8.round (Fmt.f32.value 0xC3488000) .rz).val = 0x80 ∧
    (Fmt.e10m21.round (Fmt.f32.value 0x3F800001) .rne).val = 0x3FE00000 ∧
    (Fmt.f32.round (Fmt.e10m21.value 0x3FE00001) .rne).val = 0x3F800004 ∧
    (Fmt.f32.round (Fmt.e10m21.value 0x60000000) .rne).val = 0x7F7FFFFF ∧
    (Fmt.int16.round (Fmt.e10m21.value 0x7FF00000) .rne).val = 0 := by decide +kernel

/-- 07_conversion_twist.md, "one gradient element, from the twist to the slab". -/
theorem test_twist : twist 0x0123456789ABCDEF 0xFEDCBA9876543210 1 5 0x1000 = 0xE035 ∧
    (Fmt.bf16.round (Fmt.f32.value 0xBC235A71) (.sr 0xE035)).val = 0xBC24 ∧
    (Fmt.bf16.round (Fmt.f32.value 0xBC235A71) .rne).val = 0xBC23 := by decide +kernel

/-- 05_number_formats.md, "an E5M2 strip through the gate". -/
theorem test_gate : (Fmt.e5m2.gate 0x7C).val = 0x7B ∧ (Fmt.e5m2.gate 0x7C).r.ovf = true ∧
    Fmt.e5m2.value (Fmt.e5m2.gate 0xFD).val = .nan ∧ (Fmt.e5m2.gate 0xFD).r.nv = false ∧
    (Fmt.e5m2.gate 0x03).val = 0x03 := by decide +kernel

def permB : Bundle := v1Slot 7 fun v => { v with src1 := 0x00, src2 := 0x10, dst := 0x20, km := 1 }

/-- 10_row_work.md, the PERM example, with MP 1 and K1 = 0b11_1011. -/
theorem test_perm :
    (let b := { permB with v0 := { permB.v0 with mp := 1 } }
     let s := sized 6 .w32 (running b)
     let s := { s with masks := s.masks.setIfInBounds 1 0x3B }
     let s := (s.writeSlab 0 0 (words [10, 11, 12, 13, 14, 15])).writeSlab 1 0 (words [5, 0, 7, 2, 0xFFFFFFFF, 3])
     let t := after (.perm (mainOf b)) s
     (List.range 6).map (t.elem .main 0x20 4) = [15, 10, 0, 12, 0, 13] ∧ (t.sticky 2).getLsbD 2 = true) := by
  decide +kernel

def lscanB : Bundle :=
  v1Slot 6 fun v => { v with fn := 0x80, src1 := 0x00, src2 := 0x10, dst := 0x20, sfmt := 1, dfmt := 1, ts := 1 }

/-- 10_row_work.md, "one LSCAN strip with a carry". -/
theorem test_lscan :
    (let s := sized 4 .w16 (running lscanB)
     let s := { s with carries := s.carries.setIfInBounds 1 ⟨0x41000000, false, true⟩ }
     let s := (s.writeSlab 0 0 (halves [0x3F00, 0x3F00, 0x3E80, 0x3F80])).writeSlab 1 0
       (halves [0x3F80, 0x4000, 0x4080, 0x3F00])
     let t := after (.lscan (mainOf lscanB)) s
     (List.range 4).map (t.elem .main 0x20 2) = [0x40A0, 0x4090, 0x40A4, 0x40B4] ∧
       t.carry 1 = ⟨0x40B40000, false, true⟩) := by decide +kernel

def topkB : Bundle :=
  v1Slot 12 fun v => { v with src1 := 0x10, src2 := 0xA0, dst := 0x30, aux := 2, sfmt := 1, dfmt := 1, dcls := 2 }

def topkState : State :=
  let s := sized 8 .w16 (running topkB)
  let s := { s with ctx := { s.ctx with tid := 0x31, base := 0x32010 } }
  (s.writeSlab 1 0 (halves [0x3E80, 0xBF40, 0x3F00, 0x4020, 0xBE00, 0x0000, 0xC0A0, 0x3EFF])).writeSlab 2 0
    (words [0x3F000000])

/-- 13_exchange_update.md, "one top-k call": the payload, the residuals and K2. -/
theorem test_topk :
    (let t := after (.gcmp (mainOf topkB)) topkState
     (List.range 6).map (t.slabWord .main 0x30) =
         [0x10000004, 0x32, 0x0011BF40, 0x00123F00, 0x00134020, 0x0016C0A0] ∧
       (List.range 8).map (t.elem .main 0x10 2) = [0x3E80, 0, 0, 0, 0xBE00, 0, 0, 0x3EFF] ∧
       (t.mask 2).toNat % 256 = 0x4E ∧ t.trouble.flags = 0) := by decide +kernel

def decodeB : Bundle := v1Slot 13 fun v => { v with src1 := 0x30, dst := 0x40, sfmt := 1, dcls := 1 }

/-- The same example, decoded: elements 17, 18, 19 and 22 of a window at base 0x3_2000. -/
theorem test_decode :
    (let s := sized 32 .w16 (running decodeB)
     let s := { s with ctx := { s.ctx with base := 0x32000 } }
     let s := (s.writeSlab 3 0 (words [0x10000004, 0x32, 0x0011BF40, 0x00123F00, 0x00134020, 0x0016C0A0])).writeSlab 4 0
       (words (List.replicate 17 0 ++ [0x3F800000, 0x3F800000, 0xC0200000, 0, 0, 0x40800000]))
     let t := after (.gdec (mainOf decodeB)) s
     [17, 18, 19, 22].map (t.elem .main 0x40 4) = [0x3E800000, 0x3FC00000, 0, 0xBF800000] ∧ t.trouble.flags = 0) := by
  decide +kernel

def mxB : Bundle := v1Slot 3 fun v => { v with fn := 2, src1 := 0x00, src2 := 0x20, dst := 0x10, dfmt := 13 }

/-- 08_scale_slots.md, "one MXFP4 block": scale 0x80, codes 7, 0xB and 0, one saturation and one vanished element. -/
theorem test_mx_block :
    (let s := (sized 32 .w32 (running mxB)).writeSlab 0 0 (words [0x41680000, 0xC0400000, 0x3C23D70A])
     let t := after (.cvt (mainOf mxB)) s
     Fmt.ofCode 13 = some (.mx .e2m1) ∧ t.elem .main 0x20 1 0 = 0x80 ∧
       (List.range 4).map (t.elem .main 0x10 1) = [7, 0xB, 0, 0] ∧ t.counter (.sat 0) = 1 ∧
       t.trouble.flags = 0xE) := by decide +kernel

/-- 22_pages_compute.md, "binding 2 of the held band": B_CTL arms and reads back 0x8803_0007. -/
theorem test_binding :
    (let s : State := { State.reset with edging := { Edging.reset with verdict := .favourable } }
     let s := (((s.setReg 7 0x184 0x100C2014).setReg 7 0x188 0x50153C1F).setReg 7 0x18C 0x380).setReg 7 0x190 0x00400051
     let t := after (.bCtl .host 2 0x88030007) (s.setReg 7 0x19C 0x380)
     t.reg 7 0x180 = 0x88030007 ∧ t.armed 2 = true ∧ t.edging.armReason = 0) := by decide +kernel

/-- The walk's pseudocode in 08_scale_slots.md: a cold slot turns warm when its count comes to 4, not above it. -/
theorem test_walk_warms : ([(3, false), (4, true)].all fun p =>
    let x : ScaleSlot := { ScaleSlot.reset with valid := true, warmup := p.1 }
    x.cold && x.walk.cold == p.2) = true := by decide +kernel

/-- A queue of two commands: a step takes the first and leaves the second. -/
theorem test_step : (match step { State.reset with pending := [.unsealRefused, .picotPost] } with
    | .next t => decide (t.pending = [.picotPost]) && (t.sticky 13).getLsbD 5
    | _ => false) = true := by decide +kernel

/-! ### Every row that issues a bundle executes somewhere -/

def scalarRows : List (Instr × State) :=
  [onMain .nop none4, onMain .addi (sSlot 0x01 3 1 0 7), onMain .add (sSlot 0x02 3 1 2 0),
    onMain .sub (sSlot 0x03 3 1 2 0), onMain .mul (sSlot 0x04 3 1 2 0), onMain .and (sSlot 0x05 3 1 2 0),
    onMain .or (sSlot 0x06 3 1 2 0), onMain .xor (sSlot 0x07 3 1 2 0), onMain .shli (sSlot 0x08 3 1 0 63),
    onMain .shri (sSlot 0x09 3 1 0 63), onMain .sari (sSlot 0x0A 3 1 0 63), onMain .shin (sSlot 0x0B 3 1 0 2047),
    onMain .fadd (sSlot 0x0C 3 1 2 0), onMain .fmul (sSlot 0x0D 3 1 2 0)] ++
  [onMain .setvl (sSlot 0x10 3 1 0 2), onMain .setrow (sSlot 0x11 3 1 0 0), onMain .setes (sSlot 0x12 0 1 0 7),
    onMain .setd (sSlot 0x13 0 1 2 15), onMain .settw (sSlot 0x14 0 1 0 0), onMain .rdvl (sSlot 0x15 3 0 0 0),
    onMain .jmp (sSlot 0x18 0 0 0 2047), onMain .loop (sSlot 0x19 1 0 0 0), onMain .wait (sSlot 0x1A 3 1 0 0x300),
    onMain .picot (sSlot 0x1B 3 1 0 255), onMain .waitdir (sSlot 0x1C 3 0 0 9), onMain .setent (sSlot 0x1D 0 1 0 7),
    onMain .halt (sSlot 0x1E 0 0 0 0)]

def chainB : Bundle :=
  v0Slot fun v => { v with a := 0x04, b := 0x08, kd := 2, d := 0x0C, cell1 := ⟨6, 0, 0, 0⟩ }

def vectorRows : List (Instr × State) :=
  [onMain .chain chainB, onMain .func (v1Slot 1 fun v => { v with dst := 0x04, src1 := 0x08 }),
    onMain .gact (v1Slot 2 fun v => { v with dst := 0x04, src1 := 0x08, src2 := 0x0C }),
    onMain .cvt (v1Slot 3 fun v => { v with dst := 0x04, src1 := 0x08, dfmt := 1 }),
    onMain .red (v1Slot 4 fun v => { v with dst := 0x04, src1 := 0x08 }),
    onMain .scan (v1Slot 5 fun v => { v with dst := 0x04, src1 := 0x08, ts := 3 }),
    onMain .lscan (v1Slot 6 fun v => { v with dst := 0x04, src1 := 0x08, src2 := 0x0C }),
    onMain .perm (v1Slot 7 fun v => { v with dst := 0x04, src1 := 0x08, src2 := 0x0C }),
    onMain .xpose (v1Slot 8 fun v => { v with dst := 0x04, src1 := 0x08 }),
    onMain .cprs (v1Slot 9 fun v => { v with dst := 0x04, src1 := 0x08, aux := 1 }),
    onMain .expd (v1Slot 10 fun v => { v with dst := 0x04, src1 := 0x08, aux := 1 }),
    onMain .tsel (v1Slot 11 fun v => { v with dst := 0x04, src1 := 0x08, src2 := 0x0C, aux := 1 })]

def gcmpB (fn : BitVec 8) : Bundle :=
  v1Slot 12 fun v => { v with fn := fn, dst := 0x04, src1 := 0x08, src2 := 0x8C, sfmt := 1, dfmt := 1, dcls := 2 }

def gdecB : Bundle := v1Slot 13 fun v => { v with dst := 0x04, src1 := 0x08, sfmt := 1, dcls := 1 }

def updB (fn : BitVec 8) : Bundle :=
  v1Slot 14 fun v => { v with fn := fn, dst := 0x04, src1 := 0x08, src2 := 0x0C, sfmt := 1, dfmt := 1, dcls := 2 }

/-- The guard frozen at `g`. -/
def frozen (g : Bool) (p : Instr × State) : Instr × State :=
  (p.1, { p.2 with clock := { p.2.clock with frozenGuard := some g } })

def exchangeRows : List (Instr × State) :=
  [onMain .gcmp (gcmpB 0), onMain .gcmp (gcmpB 1), onMain .gdec gdecB, frozen false (onMain .upd (updB 0)),
    frozen false (onMain .upd (updB 1)), frozen true (onMain .upd (updB 0))]

/-- A released record of package 5, stream 7, in arrival slot 2. -/
def arrived (gone : Bool) : NetUnit :=
  { NetUnit.reset with
    credit := [(5, 3)]
    slots := NetUnit.reset.slots.setIfInBounds 2
      (some ⟨headerWords 0 (addrWord 5 0 7) 0 0 0 0 (List.replicate 6 0), false, true, gone, false, 0⟩) }

def nrecvB : Bundle := mSlot 8 fun m => { m with hs := 0x04, sreg := 2, imm := 7 }

def nsendB : Bundle := mSlot 7 fun m => { m with hs := 0x04, sreg := 2, imm := 7 }

def withNet (n : NetUnit) (p : Instr × State) : Instr × State := (p.1, { p.2 with net := n })

def withTile (p : Instr × State) : Instr × State :=
  (p.1, { p.2 with edging := { p.2.edging with tiles := [tile0 .program] } })

def memoryRows : List (Instr × State) :=
  [onMain .ld (mSlot 1 fun m => { m with hs := 0x04, pi := 1 }), onMain .st (mSlot 2 fun m => { m with hs := 0x04, pi := 1 }),
    onMain .gather (mSlot 3 fun m => { m with hs := 0x04, xs := 0x08 }),
    onMain .scatter (mSlot 4 fun m => { m with hs := 0x04, xs := 0x08 }),
    onEdge .mova (mSlot 5 fun m => { m with hs := 0x04, imm := 3 }), withTile (onMain .popq (mSlot 6 fun m => { m with hs := 0x04 })),
    onMain .nsend nsendB, withNet (arrived false) (onMain .nrecv nrecvB), withNet (arrived true) (onMain .nrecv nrecvB)] ++
  [onMain .movs (mSlot 9 fun m => { m with hs := 0x04, sreg := 1 }), onMain .gets (mSlot 10 fun m => { m with hs := 0x04, sreg := 4 }),
    onMain .kst (mSlot 11 fun m => { m with hs := 0x04, imm := 7 }), onMain .kld (mSlot 12 fun m => { m with hs := 0x04, imm := 7 }),
    onMain .tbld (mSlot 13 fun m => { m with imm := 9 }), onMain .tbswap (mSlot 14 fun m => { m with imm := 9 }),
    onMain .scld (mSlot 15 id), onMain .scst (mSlot 16 id), onMain .lgst (mSlot 17 fun m => { m with imm := 255 }),
    onMain .lgld (mSlot 18 fun m => { m with imm := 255 }), onMain .pref (mSlot 19 id), onMain .fencem (mSlot 20 id)]

/-- The premises of ClearBundleExecutes, BundleFrame, ScalarFrame, IntegerMajors, F32Majors and of every statement
about one instruction's bundle: each row has a bundle that executes. -/
theorem wit_scalarRows : scalarRows.all fits = true := by decide +kernel
theorem wit_vectorRows : vectorRows.all fits = true := by decide +kernel
theorem wit_exchangeRows : exchangeRows.all fits = true := by decide +kernel
theorem wit_memoryRows : memoryRows.all fits = true := by decide +kernel

/-- ScalarFrame: the bundles of the scalar rows hold nothing else. -/
theorem wit_ScalarFrame : (scalarRows.all fun p =>
    match p.1.row with | some (_, i) => i.bundle.scalarOnly | none => false) = true := by decide +kernel

/-- The element statements: the other slots are no-ops. -/
theorem wit_single : ((vectorRows ++ exchangeRows).all fun p =>
    match p.1.row with
    | some (_, i) => (i.bundle.v0.isNop || i.bundle.v1.isNop) && i.bundle.m.quiet && i.bundle.s.isNop
    | none => false) = true := by decide +kernel

/-- EmptyStrip, with VL zero and every slot in use. -/
def fullB : Bundle :=
  { v0 := chainB.v0, v1 := (v1Slot 7 fun v => { v with dst := 0x14, src1 := 0x18, src2 := 0x1C }).v1
    m := (mSlot 2 fun m => { m with hs := 0x04, pi := 1 }).m, s := (sSlot 0x01 3 1 0 7).s }

def emptied (p : Instr × State) : Instr × State := (p.1, { p.2 with ctx := { p.2.ctx with vl := 0 } })

theorem wit_EmptyStrip : ((emptied (onMain .st fullB)).2.ctx.vl = 0 ∧ fits (emptied (onMain .st fullB)) = true) ∧
    fits (onMain .chain fullB) = true := by decide +kernel

/-! ### Witnesses of the clauses of the S slot -/

def withS1 (v : BitVec 64) (p : Instr × State) : Instr × State :=
  (p.1, { p.2 with ctx := { p.2.ctx with sregs := p.2.ctx.sregs.setIfInBounds 1 v } })

/-- IntegerMajors: the largest shift and the largest unsigned immediate have a value. -/
theorem wit_IntegerMajors :
    scalarRule 0x0A 63 (BitVec.intMin 64) 0 = some (BitVec.allOnes 64) ∧
      scalarRule 0x0B 2047 1 0 = some 4095 ∧ scalarRule 0x01 2047 0 0 = some (BitVec.allOnes 64) ∧
      scalarRule 0x04 0 (BitVec.intMin 64) (BitVec.allOnes 64) = some (BitVec.intMin 64) := by decide

/-- LengthMajors: requests at VLMAX, one above, and negative; a SETVL that leaves ROWSHAPE above VLMAX. -/
theorem wit_LengthMajors :
    ([(0x02 : BitVec 64), 1024, 1025, BitVec.allOnes 64].all fun v =>
      fits (withS1 v (onMain .setvl (sSlot 0x10 3 1 0 2))) && fits (withS1 v (onMain .setrow (sSlot 0x11 3 1 0 0))))
      = true ∧ (running none4).vlmax .w32 = 1024 ∧ (running none4).vlmax .w16 = 2048 := by decide +kernel

/-- WaitMajors: every kind, a wait of no cycles, no bound matrix engine, no control core, and a latched word. -/
theorem wit_WaitMajors :
    ([0x000, 0x100, 0x209, 0x300].all fun k => fits (onMain .wait (sSlot 0x1A 3 1 0 k))) = true ∧
      fits (withS1 0 (onMain .wait (sSlot 0x1A 3 1 0 0x300))) = true ∧
      (let unbound (p : Instr × State) : Instr × State :=
        (p.1, { p.2 with partner := { p.2.partner with core := false, coupling := Coupling.reset } })
       fits (unbound (onMain .wait (sSlot 0x1A 3 1 0 0x100))) && fits (unbound (onMain .picot (sSlot 0x1B 3 1 0 255))) &&
         fits (unbound (onMain .waitdir (sSlot 0x1C 3 0 0 9))) &&
         !(unbound (onMain .nop none4)).2.meUp) = true ∧
      (let latched (p : Instr × State) : Instr × State :=
        (p.1, { p.2 with issue := { p.2.issue with dirLatch := some 5 } })
       fits (latched (onMain .waitdir (sSlot 0x1C 3 0 0 9)))) = true := by decide +kernel

/-- BranchMajors: a count of zero, of one and of more, LOOP on S0, and the frame's streams. -/
theorem wit_BranchMajors : ([0, 1, 2].all fun v => fits (withS1 v (onMain .loop (sSlot 0x19 1 0 0 3)))) = true ∧
    fits (onMain .loop (sSlot 0x19 0 0 0 3)) = true := by decide +kernel

/-! ### Witnesses of the clauses of the M slot -/

/-- TransfersQueued and StridedStore: post-increment of an MX transfer at D15, and a strided plain store. -/
theorem wit_TransfersQueued :
    fits (onMain .ld (mSlot 1 fun m => { m with hs := 0x04, xs := 0x08, mfmt := 9, dsc := 15, pi := 1 })) = true ∧
      fits (onMain .st (mSlot 2 fun m => { m with hs := 0x04, mfmt := 1, esr := 7, km := 3 })) = true ∧
      (fmtOf 9).isMx = true ∧ (fmtOf 1).isMx = false := by decide +kernel

/-- MovesIntoSlabs: the slab resolves, the record of the source is there, or is a release of a gone source. -/
theorem wit_MovesIntoSlabs :
    (running nrecvB).resolve .main 0 4 = some (0, 4) ∧
      ([false, true].all fun g =>
        let p := withNet (arrived g) (onMain .nrecv nrecvB)
        ((p.2.nextArrival (p.2.env (mainOf nrecvB)).netAddr).map fun x => (x.1, x.2.goneRelease)) == some (2, g)) = true ∧
      (let p := (onMain .nrecv nrecvB)
       let q : State := { p.2 with partner := { p.2.partner with reach := [] } }
       fits (p.1, q) && (q.nextArrival (q.env (mainOf nrecvB)).netAddr).isNone) = true := by decide +kernel

/-- A source of stream 7 of package 5, `n` of whose records were released as GONE. -/
def goneOf (n : Nat) : NetUnit := { NetUnit.reset with gones := [⟨1, addrWord 9 0 7, 2⟩, ⟨0, addrWord 5 0 7, n⟩] }

/-- MovesIntoSlabs: one or two GONE releases; MOVA and POPQ past tiles of the other use; a POPQ without its engine. -/
theorem wit_MovesIntoSlabs_gone :
    ([1, 2].all fun n =>
      let p := withNet (goneOf n) (onMain .nrecv nrecvB)
      fits p && p.2.nextGone (p.2.env (mainOf nrecvB)).netAddr) = true ∧
      (let p := onEdge .mova (mSlot 5 fun m => { m with hs := 0x04, imm := 0xF5 })
       fits (p.1, { p.2 with edging := { p.2.edging with tiles := [tile0 .program, tile0 .direct] } })) = true ∧
      ([0, 15].all fun n =>
        let p := onMain .popq (mSlot 6 fun m => { m with hs := 0x04 })
        let x : Tile := { tile0 .program with popped := n }
        let s : State := { p.2 with edging := { p.2.edging with tiles := [tile0 .edging, x] } }
        fits (p.1, s) && s.meUp && !s.trouble.engineDown) = true ∧
      (let p := onMain .popq (mSlot 6 fun m => { m with hs := 0x04 })
       let s : State := { p.2 with partner := { p.2.partner with coupling := ⟨false, 0xFF, true⟩ } }
       fits (p.1, s) && !s.meUp) = true := by decide +kernel

/-- MovesAndRequests: a swap that is pending, one of an EMPTY leaf, and one that is taken; S0 and K0 as destinations. -/
theorem wit_MovesAndRequests :
    ([false, true].all fun g =>
      let p := onMain .tbswap (mSlot 14 fun m => { m with imm := 9 })
      let l : Leaf := { Leaf.reset with state := .checked }
      let x : MotifSlot := { MotifSlot.reset with leafB := l, pending := g }
      let s := p.2.setMslot 9 x
      fits (p.1, s) && !(s.mslot 9).isNoLeaf && ((s.mslot 9).leaf (s.mslot 9).target).state == .checked) = true ∧
      ((running none4).mslot 9).leafB.state = .empty ∧
      (let p := onMain .tbswap (mSlot 14 fun m => { m with imm := 9 })
       let s : State := { p.2 with arb := { Arbiter.reset with running := some ⟨.leafRepair 9 true, .engine⟩ } }
       fits (p.1, s) && s.repairing 9 && !(s.mslot 9).pending) = true ∧
      fits (onMain .gets (mSlot 10 fun m => { m with hs := 0x5F, sreg := 0 })) = true ∧
      fits (onMain .kld (mSlot 12 fun m => { m with hs := 0x5F, imm := 0xF8 })) = true := by decide +kernel

/-- SendsRecord: package 5 is reachable and has credit, package 6 is not reachable, 20480 does not exist; 20479 is
the last that does. -/
theorem wit_SendsRecord :
    (let s := running nsendB
     addrPackage (s.env (mainOf nsendB)).netAddr = 5 ∧ s.reachable 5 = true ∧ s.reachable 6 = false ∧
       s.reachable 20479 = false ∧ (s.key 0).state = .live) ∧
      ([6, 20479, 20480].all fun n =>
        let p := onMain .nsend nsendB
        fits (p.1, { p.2 with ctx := { p.2.ctx with
          sregs := p.2.ctx.sregs.setIfInBounds 2 (BitVec.ofNat 64 (n * 2 ^ 22)) } })) = true := by decide +kernel

/-! ### Witnesses of the clauses of the vector slots -/

/-- Element codes of one width placed from a slab's byte 0. -/
def withSlab (h k : Nat) (bs : List Byte) (p : Instr × State) : Instr × State := (p.1, p.2.writeSlab h k bs)

/-- TableElements: slot 0 with a loaded table, and (in vectorRows) with none. -/
theorem wit_TableElements :
    (let p := onMain .func (v1Slot 1 fun v => { v with dst := 0x04, src1 := 0x08 })
     let s := p.2.setMslot 0 { MotifSlot.reset with leafA := { Leaf.reset with state := .ready } }
     fits (p.1, s) && (s.mslot 0).table.isSome && (p.2.mslot 0).table.isNone) = true := by decide +kernel

/-- ConvertedElements: scaled to and from eight-bit floats, and from MX. -/
theorem wit_ConvertedElements :
    fits (onMain .cvt (v1Slot 3 fun v => { v with fn := 1, dst := 0x04, src1 := 0x08, dfmt := 3 })) = true ∧
      fits (onMain .cvt (v1Slot 3 fun v => { v with fn := 1, dst := 0x04, src1 := 0x08, sfmt := 4 })) = true ∧
      fits (onMain .cvt (v1Slot 3 fun v =>
        { v with fn := 2, dst := 0x04, src1 := 0x08, src2 := 0x0C, sfmt := 9 })) = true ∧
      ([0x04, 0x80].all fun d =>
        let p := onMain .cvt (v1Slot 3 fun v => { v with fn := 2, dst := d, src1 := 0x08, src2 := 0x0C, dfmt := 13 })
        fits p && p.2.resolve .main (Opnd.of d).h (Opnd.of d).k != p.2.resolve .main 0 12) = true ∧
      (fmtOf 13).isMx = true ∧
      (fmtOf 3).isFp8 = true ∧ (fmtOf 4).isFp8 = true := by decide +kernel

/-- MovedElements: an index at VL beside one below it, broadcasts, and a block of 16 in rows of 16. -/
theorem wit_MovedElements :
    (let p := withSlab 0 12 [2, 0, 3, 0] (onMain .perm (v1Slot 7 fun v => { v with dst := 0x04, src1 := 0x08, src2 := 0x0C }))
     fits p && p.2.source .main 0x0C 2 0 == 2 && p.2.source .main 0x0C 2 1 == 3 && p.2.ctx.vl == 3) = true ∧
      (let p := onMain .xpose (v1Slot 8 fun v => { v with fn := 1, dst := 0x04, src1 := 0x08 })
       fits (p.1, { p.2 with ctx := { p.2.ctx with rowshape := 16, vl := 256 } })) = true := by decide +kernel

/-- PackedElements: a threshold given by a broadcast, and indices as the result; a chain's mask policy 1. -/
theorem wit_PackedElements :
    fits (onMain .tsel (v1Slot 11 fun v =>
      { v with fn := 7, dst := 0x04, src1 := 0x08, src2 := 0x8C, aux := 7, dfmt := 6 })) = true ∧
      (let b := v1Slot 10 fun v => { v with dst := 0x04, src1 := 0x08, aux := 1, km := 1 }
       fits (onMain .expd { b with v0 := { b.v0 with mp := 1 } })) = true := by decide +kernel

/-- ReducedSegments: a count, a broadcast result, a carried-in value and segments of two. -/
theorem wit_ReducedSegments :
    ([0x04, 0x11, 0x98].all fun n =>
      let p := onMain .red (v1Slot 4 fun v =>
        { v with fn := n, dst := 0x04, src1 := 0x08, src2 := if n.getLsbD 7 then 0x0C else 0 })
      fits (p.1, { p.2 with ctx := { p.2.ctx with rowshape := 2 } })) = true := by decide +kernel

/-- ScannedSegments: the scan goes on from a valid carry with its format. -/
theorem wit_ScannedSegments :
    ([false, true].all fun g =>
      let p := onMain .lscan (v1Slot 6 fun v =>
        { v with fn := if g then 0x88 else 0x80, dst := 0x04, src1 := 0x08, src2 := 0x0C, ts := 3 })
      fits (p.1, { p.2 with carries := p.2.carries.setIfInBounds 3 ⟨0x3F800000, g, true⟩ })) = true := by decide +kernel

/-- CompressedGradient: the payload and the gradient are different slabs; a fresh payload and one that goes on. -/
theorem wit_CompressedGradient :
    (let s := running (gcmpB 0)
     s.resolve .main 0 8 ≠ s.resolve .main 0 4 ∧ (s.slabWord .main 0x04 0).toNat / 2 ^ 28 ≠ 1) ∧
      (let p := withSlab 0 4 [0xFE, 3, 0, 0x10] (onMain .gcmp (gcmpB 0))
       fits p && p.2.slabWord .main 0x04 0 == 0x100003FE) = true := by decide +kernel

/-- DecodedGradient: a slab of zeros is refused, an empty top-k payload is not. -/
theorem wit_DecodedGradient :
    payloadBad 0 ((List.range 1024).map ((running gdecB).slabWord .main 0x08)) = true ∧
      (let p := withSlab 0 8 [0, 0, 0, 0x10] (onMain .gdec gdecB)
       fits p && !payloadBad 0 ((List.range 1024).map (p.2.slabWord .main 0x08))) = true := by decide +kernel

/-- OptimiserStep: effective with and without the buddy, and not effective. -/
theorem wit_OptimiserStep :
    (let p := frozen false (onMain .upd (updB 1))
     let q : State := { p.2 with partner := { p.2.partner with buddy := none } }
     p.2.buddyUp && fits (p.1, q) && !q.buddyUp && p.2.ctx.vl == 3) = true ∧
      (running (updB 0)).clock.frozenGuard = none ∧ fits (onMain .upd (updB 0)) = true := by decide +kernel

/-! ### Witnesses of the machine and of control -/

theorem wit_StepTakesFront : ({ State.reset with pending := [.picotPost] } : State).pending = Instr.picotPost :: [] ∧
    State.reset.pending = [] ∧ State.reset.resetHeld = false ∧ State.reset.works = true ∧
    ({ State.reset with rest := .rest1 } : State).works = false ∧
    (let s : State := { State.reset with
      net := arrived false, edging := { Edging.reset with trig := List.replicate 16 ⟨0, false, 0, 0⟩ } }
     s.pending == [] && s.works && s.arrivals != []) = true := by decide +kernel

/-- No panel is left. -/
def panelless : State := { State.reset with panelMap := [] }

/-- The darning of panel 3 with no spare left ends. -/
def lastSpares : State :=
  { State.reset with
    panels := ((panelsReset.setIfInBounds 3 .retired).setIfInBounds 16 .bad).setIfInBounds 17 .bad
    arb := { Arbiter.reset with running := some ⟨.darning 3, .engine⟩ } }

theorem wit_DownAfterEveryCommand : exec .picotPost panelless = .next (after .picotPost panelless) ∧
    (after .picotPost panelless).live = true ∧ (after .picotPost panelless).active = 0 :=
  ⟨rfl, by decide +kernel, by decide +kernel⟩

/-- FirstCatchesEveryBit: a bit that was set stays set, FIRST clear. -/
def marked : State := { State.reset with pages := State.reset.pages.setIfInBounds 3 ⟨1, 0, 0, false, none⟩ }

theorem wit_FirstCatchesEveryBit : (after .picotPost marked).live = true ∧
    (after .picotPost marked).trouble.first.getLsbD 31 = false ∧
    ((after .picotPost marked).sticky 3).getLsbD 0 = true := by decide +kernel

/-- ExecKeepsOthers: a command answers a next state, and each kind of state that a clause speaks of does change. -/
theorem wit_ExecKeepsOthers :
    let w : Access := .write .host 1
    (after (.pstoreData w) State.reset).pstore ≠ State.reset.pstore ∧
    (after (.estoreData w) State.reset).estore ≠ State.reset.estore ∧
    (after (.hoopData w) State.reset).hoops ≠ State.reset.hoops ∧
    (after (.cyValue .host 0 false 1) State.reset).carries ≠ State.reset.carries ∧
    (after (.liveSeedWrite .host 0 1) State.reset).twist ≠ State.reset.twist ∧
    (after (.darningDone false false) lastSpares).panelMap ≠ lastSpares.panelMap ∧
    (after (.go .host) State.reset).issue.running = true ∧
    (after (.enable .host true) State.reset).testEnable = true ∧
    (after .pwrReset { State.reset with keys := { State.reset.keys with isSealed := true } }).keys.isSealed = false := by
  decide +kernel

theorem wit_CapChangeMarked : (after (.darningDone false false) lastSpares).live = true ∧
    (after (.darningDone false false) lastSpares).figures ≠ lastSpares.figures := by decide +kernel

def waiting (k : WaitKind) (met : Bool) : State :=
  { State.reset with issue := { IssueUnit.reset with running := true, wait := some ⟨k, 3, met⟩ } }

/-- WaitsAndPicots: each kind of wait, met and not; a wait of the run; a picot with room and with a full mailbox. -/
theorem wit_WaitsAndPicots :
    ([(WaitKind.fabric 0, false), (.fabric 1, false), (.mark 3, true), (.mark 3, false), (.cycles, false),
      (.dir, false), (.bobbin, false)].all fun p =>
        (waiting p.1 p.2).executes && (waiting p.1 p.2).waitOf .main == some ⟨p.1, 3, p.2⟩) = true ∧
      ({ waiting .bobbin false with edging := { Edging.reset with tiles := [tile0 .program] } } : State).queueTile = true ∧
      (let s := edging none4
       let t : State := { s with edging := { s.edging with run := s.edging.run.map fun r => { r with wait := some ⟨.cycles, 3, false⟩ } } }
       t.executes && t.waitOf .edge == some ⟨.cycles, 3, false⟩) = true ∧
      State.reset.takes .host 1 = true ∧ State.reset.takes .coreD 1 = true ∧
      ([0, 15, 16].all fun n =>
        let s : State := { State.reset with issue := { IssueUnit.reset with
          mailbox := List.replicate n ⟨0, 0, 0⟩, posts := [⟨.main, 3, 7, 1, 0⟩] } }
        s.executes && s.issue.posts.length == 1 && s.issue.mailbox.length == n) = true := by decide +kernel

/-- StartStop: GO in a live and in a down engine, STOP with and without a wait, a stop whose time has come. -/
theorem wit_StartStop :
    (State.reset.takes .host 1 && State.reset.works && !State.reset.issue.running &&
      !State.reset.trouble.restitchBusy && !State.reset.trouble.engineDown) = true ∧
      (let s : State := { State.reset with trouble := { TroubleUnit.reset with engineDown := true } }
       s.takes .host 1 && s.works && !s.issue.running) = true ∧
      ((running none4).takes .host 1 && (running none4).issue.stop.isNone && (running none4).issue.wait.isNone &&
        (waiting .dir false).takes .host 1 && (waiting .dir false).issue.running) = true ∧
      (let s := waiting .dir false
       let t : State := { s with issue := { s.issue with stop := some .laneHard } }
       t.takes .host 1 && t.issue.running && t.issue.wait.isSome) = true ∧
      ([StopReason.halt, .hostStop].all fun why =>
        let s : State := { State.reset with issue := { IssueUnit.reset with running := true, stop := some why } }
        s.works && s.issue.wait.isNone && s.issue.retry.isNone && s.xfers == [] && s.net.outQ == [] &&
          s.issue.posts == []) = true := by
  decide +kernel

/-- Resets: no reset running, each kind running, a powered engine, and a page that takes BLK_RESET. -/
theorem wit_Resets :
    (State.reset.powered && State.reset.resetting.isNone && State.reset.takes .host 1) = true ∧
      ([ResetKind.pwr, .pkg, .blk].all fun k =>
        let s : State := { State.reset with resetting := some k }
        s.resetting == some k && s.xfers == [] && s.net.outQ == []) = true ∧
      ({ State.reset with resetting := some .blk } : State).powered = true := by decide +kernel

/-! ### Witnesses of transfers, faults and repair -/

def withXfer (op : XferOp) (got : Bool) : State := { State.reset with xfers := [⟨.main, 0, 0, op, [], got, []⟩] }

/-- One transfer of each kind: a store at the top of SRAM, one in the hole above it, and one whose target is absent. -/
def transfers : List XferOp :=
  [.store [⟨0x7FFFFFFF, [1]⟩, ⟨0x7FFFFFFF, [2]⟩] false, .store [] true,
    .load [⟨8 * 0x7FFFFFFC, 32, 0⟩, ⟨8 * 0x10000000000, 16, 4096⟩] [8] true [16], .tbld 3 true 64, .scld 0, .scst 0,
    .lgst 255 64, .lgld 255 64]

/-- TransferDone: each kind of transfer, not held; a LOADING leaf of a slot with two leaves. -/
theorem wit_TransferDone :
    (transfers.all fun op =>
      let s := withXfer op false
      s.canon && s.xfers == [⟨.main, 0, 0, op, [], false, []⟩] && !s.heldByRetry ⟨.main, 0, 0, op, [], false, []⟩) = true ∧
      State.reset.present [] 0 0x7FFFFFFF 1 = false ∧ State.reset.darningNow = false ∧
      (let s : State := { State.reset with partner := partners }
       s.present [⟨.sram 0, none⟩] 0 0x7FFFFFFF 1 && !s.present [⟨.sram 3, none⟩] 0 0x7FFFFFFF 1) = true ∧
      (let s := State.reset.setMslot 3 { MotifSlot.reset with leafB := { Leaf.reset with state := .loading } }
       !(s.mslot 3).isNoLeaf && ((s.mslot 3).leaf true).state == .loading) = true := by decide +kernel

def outRec (mirror : Bool) : OutRec := ⟨mirror, 5, 9, ⟨[], [], 0⟩, .main, 0⟩

/-- PortEvents: a record of the program and one of the mirror; an NRECV and a POPQ that wait only for their limits. -/
theorem wit_PortEvents :
    State.reset.up = true ∧
      ([false, true].all fun m => ({ State.reset with net := { NetUnit.reset with outQ := [outRec m] } } : State).net.outQ
        == [outRec m]) = true ∧
      (let s : State := { running nsendB with net := NetUnit.reset }
       s.net.outQ == [] && clearFor s (mainOf nsendB) .sendTimeout && !clearFor s (mainOf nsendB) .normal &&
         !s.streamReady .edge) = true ∧
      clearFor (running nrecvB) (mainOf nrecvB) .recvTimeout = true ∧
      (let b := mSlot 6 fun m => { m with hs := 0x04 }
       clearFor (running b) (mainOf b) .popqTimeout && !clearFor (running b) (mainOf b) .normal) = true := by
  decide +kernel

/-- A bundle that waits for its re-execution after `n` failures. -/
def retried (b : Bundle) (n : Nat) : State :=
  let s := running b
  { s with issue := { s.issue with retry := some ⟨.main, b, n, false, .normal, [], false, s.twCap, [], none, false⟩ } }

/-- LaneRetry: a first error with and without its transfer handed; a re-execution; a second, and a third of a panel and
of the scalar unit. -/
theorem wit_LaneRetry :
    (errsOk ((running fullB).env (mainOf fullB)) [⟨0, 0⟩, ⟨3, 31⟩] && handsFirst fullB [⟨0, 0⟩, ⟨3, 31⟩] &&
      clearFor (running fullB) (mainOf fullB) .normal && (running fullB).issue.retry.isNone) = true ∧
      ([1, 2].all fun n =>
        let s := retried fullB n
        let m := (s.bump .retry 1).mark 14 0
        let e : Env := ⟨m, .main, fullB, s.twCap⟩
        s.works && !s.trouble.restitchBusy && !s.darningDue && e.readErrs == [] && e.leafErrs == [] &&
          e.injected == none && errsOk ⟨s, .main, fullB, s.twCap⟩ [⟨1, 0⟩] && errsOk ⟨s, .main, fullB, s.twCap⟩ [⟨3, 31⟩] && s.spare?.isSome &&
          s.arb.running.isNone && s.panel 0 == .inService) = true := by decide +kernel

/-- LaneRetry: in a requested RESTITCH, with the place of panel 0 lost already, and with no spare left. -/
theorem wit_LaneRetry_late :
    (let s := retried fullB 2
     let q := s.issue.retry.map fun r => { r with lost := [0] }
     let t : State := { s with
       issue := { s.issue with retry := q }
       panels := (panelsReset.setIfInBounds 16 .bad).setIfInBounds 17 .bad
       trouble := { TroubleUnit.reset with restitchBusy := true, lastRestitch := 1 } }
     t.works && !t.darningDue && t.spare?.isNone && errsOk ⟨t, .main, fullB, t.twCap⟩ [⟨0, 1⟩] &&
       !errsOk ⟨t, .main, fullB, t.twCap⟩ [⟨0, 0⟩]) = true := by decide +kernel

/-- LaneRetry: an injection armed on panel 0 joins the error reported of a re-execution. -/
theorem wit_LaneRetry_injected :
    (let s := (retried fullB 1).setReg 15 0x040 0x80000001
     let e : Env := ⟨(s.bump .retry 1).mark 14 0, .main, fullB, s.twCap⟩
     errsOk ⟨s, .main, fullB, s.twCap⟩ [⟨1, 0⟩] && (e.injected.map (·.1)) == some ⟨0, 0⟩ && e.readErrs == [] &&
       e.leafErrs == []) = true := by decide +kernel

/-- DarningEnds: panel 15 in darning; spare 16 passes, only 17 passes, neither passes. -/
theorem wit_DarningEnds :
    (let s : State := { State.reset with
       arb := { Arbiter.reset with running := some ⟨.darning 15, .engine⟩ }, panels := panelsReset.setIfInBounds 15 .retired }
     let t : State := { s with issue := { s.issue with retry := (retried fullB 0).issue.retry } }
     s.arb.darns == [] && s.arb.queue == [] && s.panel 15 == .retired && s.panel 16 == .spare &&
       s.panel 17 == .spare && s.issue.retry.isNone && t.issue.retry.isSome) = true := by decide +kernel

def acting (a : Act) : State := { State.reset with arb := { Arbiter.reset with running := some ⟨a, .mmio⟩ } }

/-- The limit of CE_LIMIT, 16 after reset (R430), turned off. -/
def noLimit : State := State.reset.setReg 3 0x04C 0

/-- RepairsEnd: each activity that ends while a bundle waits for its re-execution. -/
theorem wit_RepairsEnd_retry :
    ([Act.spareIn 5 15 1, .leafRepair 15 true, .staged].all fun a =>
      let s : State := { acting a with issue := (retried fullB 1).issue }
      s.arb.running == some ⟨a, .mmio⟩ && s.issue.retry.isSome && s.arb.darns == [] && s.arb.queue == []) = true := by
  decide +kernel

/-- RepairsEnd: a spare-in of the last slab with a hard error in it, a leaf repair, each proofing, a staged
retirement, and a scrub of the spare slab's turn. -/
theorem wit_RepairsEnd :
    (let s : State := { acting (.spareIn 5 15 1) with ecc := [⟨.hoop, (5 * 17 + 15) * 512 + 511, 3⟩] }
     s.canon && s.hoopPresent 5 && decide (s.hoopMeta.spare[5]? = some .free) && s.ecc.all EccErr.hard &&
       s.issue.retry.isNone) = true ∧
      (let s : State := { acting (.leafRepair 15 true) with ecc := [⟨.leaf, leafNo 15 true * 1096 + 1095, 3⟩] }
       s.ecc.all (fun e => e.word / 1096 == leafNo 15 true && e.hard) && s.motif.spares[3]? == some .free) = true ∧
      (let s := acting (.leafRepair 15 true)
       let t : State := { s with motif := { s.motif with spares := s.motif.spares.setIfInBounds 3 .bad } }
       t.arb.running == some ⟨.leafRepair 15 true, .mmio⟩ && t.motif.spares[3]? != some .free) = true ∧
      (let s : State := { acting .staged with trouble := { TroubleUnit.reset with stage := [(0, 0x1400000F)] } }
       s.arb.running == some ⟨.staged, .mmio⟩ && s.panel 15 == .inService) = true ∧
      ([0, 1, 2, 3].all fun a => (acting (.proofing a)).arb.running == some ⟨.proofing a, .mmio⟩) = true ∧
      bits 0x40000005 31 28 = 4 ∧ bits 0x40000005 15 0 = 5 ∧ bits 0x1400000F 27 24 = 4 ∧
      (let s : State := { noLimit with clock := { ClockUnit.reset with scrubs := [(5, 16)] } }
       s.clock.scrubs.find? (fun p => p.1 == 5) == some (5, 16) && s.hoopPresent 5 && s.arb.running.isNone &&
         bits (s.reg 3 0x04C) 15 0 == 0) = true := by decide +kernel

/-! ### Witnesses of tables, partners and edging -/

def leafIn (st : LeafState) (pending : Bool) : State :=
  State.reset.setMslot 15 { MotifSlot.reset with leafB := { Leaf.reset with state := st }, pending := pending }

def awaiting (m : MeasTarget) (s : State) : State := { s with keys := { s.keys with awaiting := [m] } }

/-- TableEvents: a verdict still to come on a measurement that was cancelled, for either kind of target. -/
theorem wit_staleVerdict :
    ([MeasTarget.leaf 15 true, .store].all fun m =>
      let s : State := { State.reset with keys := { SealUnit.reset with stale := [m], awaiting := [m] } }
      s.keys.stale.contains m && !(awaiting m State.reset).keys.stale.contains m) = true := by decide +kernel

theorem wit_TableEvents :
    (let s : State := { leafIn .loading false with xfers := [⟨.main, 0, 0, .tbld 15 true 0, [], true, []⟩] }
     !s.darningNow && !(s.mslot 15).isNoLeaf && ((s.mslot 15).leaf true).state == .loading &&
       ((s.mslot 15).leaf true).loadReason 15 != 0) = true ∧
      (let s := awaiting (.leaf 15 true) (leafIn .checked false)
       s.keys.awaiting.contains (.leaf 15 true) && ((s.mslot 15).leaf true).state == .checked) = true ∧
      (let s := awaiting (.leaf 15 true) (leafIn .checked true)
       let t : State := { s with arb := (acting (.leafRepair 15 false)).arb }
       (s.mslot 15).pending && (s.mslot 15).target && !s.repairing 15 && t.repairing 15 &&
         ((t.mslot 15).leaf true).state == .checked) = true ∧
      (awaiting .store State.reset).keys.awaiting.contains .store = true ∧
      (let s := leafIn .ready true
       s.executes && !s.repairing 15 && s.issue.retry.isNone && (s.mslot 15).pending && ((s.mslot 15).leaf (s.mslot 15).target).state == .ready) = true ∧
      (let s := leafIn .checked false
       s.takes .host 4 && s.works && !(s.mslot 15).pending && !(s.mslot 15).isNoLeaf &&
         ((s.mslot 15).leaf (s.mslot 15).target).state == .checked && ((s.mslot 14).leaf (s.mslot 14).target).state == .empty) = true ∧
      ((acting (.leafRepair 15 true)).takes .host 4 && (acting (.leafRepair 15 true)).works &&
        (acting (.leafRepair 15 true)).repairing 15) = true ∧
      (let s : State := { State.reset with keys := { SealUnit.reset with sending := some .store } }
       s.keys.sending == some .store && s.takes .host 13 && s.works && !s.anyArmed) = true := by decide +kernel

/-- TableEvents: a load that ends CHECKED, of a table of KIND 3 with every coefficient zero. -/
theorem wit_loadChecks :
    ({ Leaf.reset with state := .loading, image := [(0, 0x4D544631), (1, 0x01803000)] } : Leaf).loadReason 15 = 0 := by
  decide +kernel

theorem wit_PartnerEvents :
    State.reset.up = true ∧ State.reset.canon = true ∧ State.reset.partner.rollBusy = true ∧
      ({ State.reset with partner := partners } : State).partner.rollBusy = false ∧
      (withXfer (.scld 0) false).up = true ∧
      (let s : State := { State.reset with rest := .rest1, partner := { partners with rollBusy := false } }
       s.up && !s.works) = true ∧ (20479 : BitVec 15) ≠ State.reset.package ∧ (partners.reach.get 0 0).getLsbD 5 = true ∧
      partners.buddy = some 5 ∧ State.reset.takes .host 8 = true ∧ State.reset.works = true ∧
      (waiting .dir false).issue.wait = some ⟨.dir, 3, false⟩ := by decide +kernel

/-- PartnerEvents: a held coupling that names a foreign matrix engine while the own one is in force. -/
theorem wit_heldForeign :
    (let s : State := { State.reset with partner := { partners with
       coupling := ⟨false, 0xFE, false⟩, couplingHeld := some ⟨false, 3, false⟩ } }
     s.up && s.ownMe && s.partner.couplingHeld.isSome) = true := by decide +kernel

theorem wit_Couplings :
    (let s : State := { State.reset with partner := { partners with couplingHeld := some Coupling.reset } }
     s.up && s.couplingFree && s.partner.couplingHeld.isSome && s.takes .host 8 && !s.partner.rollBusy && s.ownMe) = true ∧
      (State.reset.takes .host 8 && State.reset.partner.rollBusy) = true ∧
      (let s : State := { waiting .bobbin false with partner := { partners with
         coupling := ⟨false, 0xFE, false⟩, couplingHeld := some ⟨false, 0xFF, false⟩ } }
       s.up && s.couplingFree && s.meUp && s.issue.wait == some ⟨.bobbin, 3, false⟩) = true := by decide +kernel

/-- Binding 7 armed for stream 9: KIND `kind`, MODE `mode`. -/
def bound (kind mode : Nat) (s : State) : State :=
  s.setReg 7 0x2C0 (BitVec.ofNat 32 (2 ^ 31 + kind * 2 ^ 28 + mode * 2 ^ 26 + 9))

def ready (c : Coupling) : State := { State.reset with partner := { partners with coupling := c } }

def runWith (st : Option RunStatus) (s : State) : State :=
  { s with edging := { s.edging with run := some ⟨7, false, 3, 0, false, 0, 0, 1, 0, Ctx.reset, none, st, 0⟩, tiles := [tile0 .direct] } }

theorem wit_EdgingRuns :
    (let q := ready ⟨false, 0xFE, true⟩
     let d := bound 0 0 (ready ⟨true, 0xFE, false⟩)
     decide (0 < q.active) && q.hoopPresent 5 && q.takesTile && q.partner.coupling.queueUse &&
       !d.partner.coupling.queueUse && d.takesTile && !q.trouble.engineDown && !q.directPort &&
       d.directPort && d.matchBinding 0 9 == some 7 && (d.matchBinding 0 8).isNone &&
       tileWf [(0, 1), (16383, 2)]) = true ∧
      (let s : State := { ready ⟨true, 0xFE, false⟩ with edging := { Edging.reset with trig := [⟨7, true, 3, addrWord 5 0 7 |>.zeroExtend 64⟩] } }
       let t := s.setBank 1 { Bank.reset with occ := true, releaseDue := true }
       let d : State := { s with arb := { Arbiter.reset with running := some ⟨.darning 15, .engine⟩ } }
       s.runFree && s.edging.compl.isNone && (t.bank 1).releaseDue && !t.runFree && d.darningDue && !d.runFree) = true ∧
      (let s : State := { ready ⟨true, 0xFE, false⟩ with edging := { Edging.reset with compl := some ⟨7, 3, 0, 1, [0, 5]⟩ } }
       s.runFree) = true ∧
      (let s := runWith none (ready ⟨true, 0xFE, false⟩)
       s.issue.retry.isNone && s.executes && s.partner.coupling.meSrc == 0xFE && s.rowErrs 3 127 == []) = true ∧
      (let s := (runWith none (ready ⟨true, 0xFE, false⟩)).setReg 7 0x040 1
       let t : State := { s with ecc := [⟨.hoop, 3 * 512 + 62, 3⟩] }
       t.executes && t.partner.coupling.meSrc == 0xFE && t.rowErrs 0 127 != [] && t.ecc.all EccErr.hard) = true ∧
      ([0, 2].all fun mode =>
        let s := runWith (some .ok) (bound 0 mode (ready ⟨true, 0xFE, false⟩))
        s.runDrained && s.issue.retry.isNone && s.bindMode 7 == mode && s.edging.trig == []) = true ∧
      ((runWith (some .gone) State.reset).runDrained && (runWith (some .ok) State.reset).bindMode 7 == 0) = true := by
  decide +kernel

/-! ### Witnesses of records, the mirror and the step clock -/

/-- A record header to the engine of package 0, of step 0, from stream 7 of package `n`. -/
def header (mirror : Bool) (n : BitVec 15) : List Word :=
  headerWords (if mirror then 1 else 0) (addrWord n 0 7) 0 0 0 0 (List.replicate 6 0)

/-- A record under the key 7 whose tag is right, whatever its header and its bytes. -/
def sealed7 (h : List Word) : WireRec :=
  let body := List.replicate 4096 0
  ⟨h, body, gcmTag (recKeys 7 h) (recIv h) (wordsToBytes h) body⟩

theorem wit_recOk (h : List Word) : recOk 7 (sealed7 h) = true := by
  unfold recOk sealed7
  exact beq_self_eq_true _

/-- Keys live, RX on hoop 5, log half 0 open with room for one record. -/
def receiving : State :=
  ({ State.reset with
    partner := partners
    keys := { SealUnit.reset with keys := Vector.replicate 4 ⟨.live, 7, none⟩ }
    net := { NetUnit.reset with rxEn := true, rxHoop := 5 }
    mirror := { MirrorUnit.reset with halves := MirrorUnit.reset.halves.setIfInBounds 0 ⟨.isOpen, 0, 0⟩ } } :
    State).setReg 10 0x064 4160

theorem wit_recordForm (m : Bool) (n : BitVec 15) : (sealed7 (header m n)).wf = true := by
  have h : (header m n).length = 16 := rfl
  unfold WireRec.wf sealed7
  rw [Bool.and_eq_true]
  exact ⟨beq_iff_eq.mpr h, beq_iff_eq.mpr List.length_replicate⟩

/-- ArrivingRecords: no key; a wrong header; a stale and a current exchange record with two free slots; a mirror record
of a stranger, and one of the buddy for a half with room. -/
theorem wit_ArrivingRecords :
    receiving.canon = true ∧ receiving.works = true ∧ (receiving.key 0).state = .live ∧ (receiving.key 1).key = 7 ∧
      (State.reset.key 0).state = .empty ∧ receiving.headerOk (header false 5) = true ∧
      receiving.headerOk ((header false 5).set 9 4095) = false ∧ hdrMirror (header false 5) = false ∧
      hdrStep (header false 5) = receiving.twist.step ∧ hdrStep ((header false 5).set 6 2) = 2 ∧
      receiving.net.rxEn = true ∧ receiving.net.slots[14]? = some none ∧ receiving.net.slots[15]? = some none ∧
      (hdrMirror (header true 5) = true ∧ receiving.headerOk (header true 5) = true ∧
        receiving.partner.buddy = some (addrPackage (hdrSrc (header true 5))) ∧
        receiving.partner.buddy ≠ some (addrPackage (hdrSrc (header true 6))) ∧
        addrWz (hdrSrc (header true 5)) = receiving.wz ∧ hdrMkind (header true 5) ≤ 3 ∧
        (receiving.half 0).state = .isOpen ∧ (receiving.half 0).step = receiving.twist.step ∧
        receiving.mirror.expMseq = none ∧ logEntry * 1 ≤ (receiving.reg 10 0x064).toNat) := by decide +kernel

/-- ArrivingRecords: an exchange and a mirror record of the next step, and a half that folds. -/
theorem wit_nextStepRecords :
    ([false, true].all fun m =>
      let h := (header m 5).set 6 1
      hdrStep h == receiving.twist.step + 1 && receiving.headerOk h && hdrMirror h == m && decide (hdrMkind h ≤ 3) &&
        receiving.partner.buddy == some (addrPackage (hdrSrc h)) && addrWz (hdrSrc h) == receiving.wz) = true ∧
      (receiving.half 1).state ≠ .folding ∧
      (let s : State := { receiving with mirror := { receiving.mirror with
        halves := receiving.mirror.halves.setIfInBounds 0 ⟨.folding, 1, 0⟩ } }
       s.works && (s.half 0).state == .folding && s.headerOk (header true 5)) = true := by decide +kernel

/-- ArrivingRecords: a BASE and a BASE_END record, in a restarted sequence and within one. -/
theorem wit_baseRecords :
    ([(4, 0), (5, 3)].all fun p =>
      let h := ((header true 5).set 5 (BitVec.ofNat 32 (p.1 * 2 ^ 28))).set 10 (BitVec.ofNat 32 p.2)
      let s : State := { receiving with mirror := { receiving.mirror with
        rxSeen := some 2, rxNew := false, image := .filling, rxCount := 0 } }
      hdrMkind h == p.1 && hdrMirror h && s.headerOk h && s.partner.buddy == some (addrPackage (hdrSrc h)) &&
        addrWz (hdrSrc h) == s.wz && (hdr h 10 == 0) == (p.1 == 4) && decide (2 < (hdr h 10).toNat) == (p.1 == 5)) = true := by
  decide +kernel

/-- ArrivingRecords: a log write under way, and a record that awaits its acknowledgement. -/
theorem wit_logWrites :
    (let s : State := { State.reset with mirror := { MirrorUnit.reset with
        logWrites := [⟨0, 0, header true 5, List.replicate 4096 1, 9⟩], unacked := [9] } }
     let t : State := { s with mirror := { s.mirror with
       halves := s.mirror.halves.setIfInBounds 0 ⟨.folding, 1, 0⟩ } }
     s.up && s.canon && (header true 5).length == 16 && s.mirror.unacked.contains 9 && s.net.outQ == [] &&
       s.mirror.rxHeld == [] && (s.half 0).state != .folding && (t.half 0).state == .folding &&
       s.reach [] 0 0 != .ok) = true := by
  decide +kernel

def mirrorRec0 : MirrorRec := ⟨header true 5, []⟩

def region0 : RegionTodo := ⟨0, 1, 0, 8192, 4096, false⟩

/-- MirrorOperations: a record to send with and without a buddy; the last and the next slab of an operation; a
descriptor; an operation with nothing left; a half that folds. -/
theorem wit_MirrorOperations :
    (let s : State := { receiving with mirror := { MirrorUnit.reset with queue := [mirrorRec0] } }
     s.up && s.buddyUp && (s.key 1).state == .live && hdrMirror mirrorRec0.hdr && mirrorRec0.hdr.length == 16 &&
       !State.reset.buddyUp && State.reset.up) = true ∧
      ([0, 4096].all fun o =>
        let d := { region0 with offset := o }
        let s : State := { receiving with mirror := { MirrorUnit.reset with op := some .flush, todo := [d] } }
        s.up && s.mirror.queue == [] && s.mirror.todo == [d] && !s.updWaits && s.updKept == 0) = true ∧
      ([(MirrorOp.flush, 0), (.baseCopy, 30), (.restore, 31)].all fun p =>
        let s : State := { receiving with mirror := { MirrorUnit.reset with
          op := some p.1, todo := [region0], queue := List.replicate (p.2 + 1) mirrorRec0 } }
        s.up && s.buddyUp && !s.updWaits && decide (region0.role < 16) && s.mirror.descs == [] && s.updKept == 0 &&
          (decide (p.2 + 1 < 32) || decide (32 ≤ s.mirror.queue.length))) = true ∧
      (let s : State := { receiving with mirror := { MirrorUnit.reset with
        op := some .flush, todo := [region0], descs := [[1]] } }
       s.up && s.buddyUp && !s.updWaits && s.updKept == 0 && s.mirror.sent == 0) = true ∧
      (let r : MirrorRec := ⟨header true 5, [1]⟩
       let s : State := { receiving with mirror := { receiving.mirror with
         halves := receiving.mirror.halves.setIfInBounds 0 ⟨.folding, 2, 0⟩, rxHeld := [r] } }
       s.up && (s.half 0).state == .folding && s.mirror.logWrites == [] && decide (hdrMkind r.hdr ≤ 3) &&
         hdrStep r.hdr == s.twist.step && s.mirror.expMseq.isNone && decide (logEntry ≤ (s.reg 10 0x064).toNat)) = true ∧
      (let s : State := { receiving with mirror := { MirrorUnit.reset with descs := [[1], [2]] } }
       s.up && s.mirror.queue == [] && s.buddyUp) = true ∧
      ([0, 31].all fun n =>
        let s : State := { receiving with mirror := { MirrorUnit.reset with
          op := some .baseCopy, queue := List.replicate n mirrorRec0 } }
        s.up && s.buddyUp && s.mirror.todo == [] && s.updKept == 0 && !s.updWaits && (s.key 1).state == .live) = true ∧
      ([MirrorOp.flush, .restore].all fun op =>
        let s : State := { receiving with mirror := { MirrorUnit.reset with
          op := some op, queue := List.replicate 31 mirrorRec0 } }
        s.up && s.buddyUp && decide (s.mirror.queue.length + s.updKept < 32) && s.mirror.todo == [] && s.mirror.descs == [] &&
          !s.updWaits) = true ∧
      (let s : State := { receiving with mirror := { MirrorUnit.reset with
        halves := MirrorUnit.reset.halves.setIfInBounds 1 ⟨.folding, 2, 0⟩ } }
       let t : State := { s with mirror := { s.mirror with
         halves := s.mirror.halves.setIfInBounds 0 ⟨.folding, 1, 2⟩ } }
       s.up && (s.half 1).state == .folding && (s.half 0).state != .folding && s.mirror.logWrites == [] &&
         (t.half 0).state == .folding && decide ((t.half 1).step.toNat < (t.half 0).step.toNat)) = true := by
  decide +kernel

/-- MirrorOperations: a UPD for which freed room is kept. -/
theorem wit_owedRoom :
    (let p := frozen false (onMain .upd (updB 0))
     let s : State := { p.2 with mirror := { p.2.mirror with owed := some p.2.issue.pc } }
     s.up && s.buddyUp && s.canOffer .main && (s.fetched .main).v1.major == 14 && s.clock.frozenGuard == some false &&
       s.ctx.vl != 0 && s.updWaits) = true := by decide +kernel

/-- A frame with its check (R312). -/
def frame (code : BitVec 4) (step : BitVec 48) : Frame :=
  let f : Frame := ⟨step, code, 3, 0⟩
  { f with crc := BitVec.ofNat 8 (Frame.check f) }

def inStep : State := { State.reset with clock := { ClockUnit.reset with isOpen := true, phase := 3, expSeq := some 2 } }

def markRow (f : Frame) : Instr :=
  match f.code.toNat with
  | 0 => .stepOpen f
  | 1 => .fwd f
  | 2 => .bwd f
  | 3 => .exch f
  | 4 => .update f
  | 5 => .commit f
  | 6 => .abort f
  | 7 => .idle f
  | _ => .userMark f

/-- Marks: every code, of this step and of another, in an open and in a closed step, with an entry that comes due. -/
theorem wit_Marks :
    ((List.range 16).all fun k =>
      let f := frame (BitVec.ofNat 4 k) 0
      let g := frame (BitVec.ofNat 4 k) 1
      Frame.check f == f.crc.toNat && (markRow f).wf && Frame.check g == g.crc.toNat && (markRow g).wf) = true ∧
      (inStep.works && !inStep.testLocal && inStep.clock.expSeq == some 2 && !inStep.clock.frozen &&
        !State.reset.clock.isOpen && State.reset.works) = true ∧
      (let s := (inStep.setReg 11 0x7F0 0x80500000).setReg 11 0x7F4 0x00010000
       (s.entryWord 63 0).getLsbD 31 && bits (s.entryWord 63 0) 23 20 == 5 &&
         s.twist.step.toNat % bits (s.entryWord 63 1) 31 16 == bits (s.entryWord 63 1) 15 0) = true := by decide +kernel

/-- Marks: a frame that fails its check, a second UPDATE, a state at rest, and at STEP_OPEN a base copy under way, an
image that fills, and a record of the next step. -/
theorem wit_Marks_more :
    (let f := frame 4 0
     Frame.check { f with crc := f.crc + 1 } != f.crc.toNat + 1 &&
       (markRow { f with crc := f.crc + 1 }).wf) = true ∧
      (let s : State := { inStep with clock := { inStep.clock with frozen := true } }
       s.works && s.clock.isOpen && !s.testLocal) = true ∧
      (let s : State := { State.reset with rest := .rest2 }
       s.up && !s.works) = true ∧
      (let s : State := { State.reset with mirror := { MirrorUnit.reset with op := some .baseCopy, image := .filling } }
       s.works && s.mirror.rxHeld == []) = true ∧
      (let x : Arrival := ⟨(header false 5).set 6 1, true, false, false, false, 0⟩
       let s : State := { State.reset with net := { NetUnit.reset with
         slots := NetUnit.reset.slots.setIfInBounds 15 (some x) } }
       !s.clock.isOpen && s.net.slots[15]? == some (some x) && x.early && !x.missed &&
         hdrStep x.hdr == (frame 0 1).step) = true := by decide +kernel

def pendingEntry (ctl arg : Word) : State :=
  ({ State.reset with clock := { ClockUnit.reset with pendings := [⟨63, true⟩] } } : State).setReg 11 0x7F0 ctl
    |>.setReg 11 0x7F8 arg

theorem wit_StepMachinery :
    (State.reset.works && State.reset.canon && State.reset.issue.retry.isNone && State.reset.ecc == [] &&
      !State.reset.clock.quiet && bits ((State.reset.setReg 11 0x040 1).reg 11 0x040) 15 0 != 0 &&
      State.reset.takes .host 14) = true ∧
      ({ State.reset with clock := { ClockUnit.reset with freezeDue := true } } : State).works = true ∧
      ({ State.reset with scale := { ScaleUnit.reset with walkDue := [0, 1] } } : State).canon = true ∧
      State.reset.issue.held = [] ∧
      (let s : State := { State.reset with issue := { IssueUnit.reset with held := [.slot 5 .ctl 0x8000] } }
       s.works && s.canon && s.issue.retry.isNone && s.scale.walkDue == []) = true ∧
      ([(0xA4000000, 0), (0xA1000000, 5), (0xA6000000, 3), (0xA3000000, 15), (0xA5000000, 0), (0xA7000000, 0)].all fun p =>
        let s := pendingEntry p.1 p.2
        s.works && s.canon && s.clock.pendings.any (fun x => x.entry == 63) && (s.entryWord 63 0).getLsbD 29 &&
          bits (s.entryWord 63 0) 27 24 == bits p.1 27 24 && bits (s.entryWord 63 2) 11 0 == bits p.2 11 0 &&
          s.hoopPresent 5 && s.clock.scrubs == [] && s.arb.running.isNone && s.arb.queue == [] && s.arb.darns == [] &&
          !s.repairing 15 && s.stageEmpty && s.mirror.op.isNone && s.pairsOk) = true ∧
      ([Act.proofing 3, .staged].all fun a =>
        let s : State := { pendingEntry (if a = .staged then 0xA7000000 else 0xA6000000) 3 with
          arb := { Arbiter.reset with running := some ⟨a, .mmio⟩ }, clock := { ClockUnit.reset with
            pendings := [⟨63, true⟩], scrubs := [(5, 3)] } }
        s.works && s.canon && s.arb.running == some ⟨a, .mmio⟩) = true ∧
      (let s : State := { pendingEntry 0xA6000000 1 with arb := { Arbiter.reset with running := some ⟨.proofing 2, .mmio⟩ } }
       s.works && s.canon && bits (s.entryWord 63 2) 11 0 == 1) = true ∧
      ({ State.reset with trouble := { TroubleUnit.reset with
        copying := some (Vector.replicate 25 1, 0) } } : State).works = true := by decide +kernel

/-! ### Witnesses of keys, rest and RESTITCH -/

theorem wit_SealAndRest :
    (State.reset.up && State.reset.canon && State.reset.takes .host 0 && State.reset.resetting.isNone &&
      !State.reset.trouble.restitchBusy && State.reset.transit.isNone && State.reset.restBlocked == 0 &&
      State.reset.live && (State.reset.key 1).state == .empty && (receiving.key 1).state == .live) = true ∧
      ((running none4).restBlocked == 1 && (running none4).takes .host 0 && inStep.restBlocked == 2) = true ∧
      ([Rest.rest1, .rest2, .rest3].all fun r =>
        let s : State := { State.reset with rest := r }
        let t : State := { s with transit := some .run }
        s.takes .host 0 && t.live && t.takes .host 0) = true ∧
      ([Rest.rest1, .rest2, .rest3].all fun r =>
        let s : State := { State.reset with transit := some r }
        s.live && s.transit == some r) = true ∧
      (let s : State := { State.reset with
        rest := .rest2, transit := some .run, partner := { partners with rollPending := true } }
       s.live && s.partner.rollPending && !s.partner.rollBusy) = true ∧
      Rest.ofReq 0 = .run ∧ Rest.ofReq 3 = .rest3 ∧ ¬ (Rest.depth .rest3 < Rest.depth .rest2) := by decide +kernel

theorem wit_Restitching :
    (State.reset.works && State.reset.takes .host 14 && !State.reset.trouble.restitchBusy) = true ∧
      (let s : State := { edging none4 with xfers := [⟨.main, 5, 0, .load [] [] false [], [], false, []⟩] }
       let t : State := { s with issue := { s.issue with count := 3 }, xfers := s.xfers ++ s.xfers }
       t.works && decide (0 + 1 + ((t.xfers.filter fun x => x.op.isLoad && x.stream == .main).drop 1).length < t.issue.count) &&
         s.works && s.issue.running && (s.xfers.find? fun x => x.op.isLoad && x.stream == .main).isSome) = true ∧
      (let s : State := { State.reset with
        trouble := { TroubleUnit.reset with restitchBusy := true }
        arb := { Arbiter.reset with queue := [⟨.proofing 0, .mmio⟩] } }
       s.works && s.issue.retry.isNone && s.arb.running.isNone && s.arb.darns == []) = true ∧
      ((waiting .dir false).works && (waiting .dir false).issue.wait == some ⟨.dir, 3, false⟩ &&
        (waiting .dir false).issue.retry.isNone && !(waiting .dir false).trouble.restitchBusy) = true ∧
      ((retried fullB 1).works && (retried fullB 1).issue.retry.isSome && (acting .staged).works &&
        (acting .staged).arb.running.isSome) = true := by decide +kernel

/-! ### Witnesses of the registers -/

/-- Every ADDR register at its last index, with AUTOINC. -/
def lastIndex : State :=
  (((((((State.reset.setReg 1 0x050 0x80003FFF).setReg 7 0x050 0x800007FF).setReg 14 0x06C 0x8000003F).setReg 4 0x048
    0x801F188F).setReg 7 0x070 0x800003FF).setReg 8 0x064 0x8000027F).setReg 3 0x040 0x80150FFC)

/-- ArrayAccess: every read is answered and every write is taken, at the last index of each array. -/
theorem wit_ArrayAccess :
    ([(1, 0x054), (7, 0x054), (14, 0x070), (4, 0x04C), (7, 0x074), (8, 0x068), (14, 0x068), (3, 0x044)].all fun p =>
      lastIndex.readable p.1 p.2) = true ∧ lastIndex.canon = true ∧
      ([1, 7, 14, 3].all fun p => lastIndex.takes .host p) = true ∧ lastIndex.isStopped = true ∧
      lastIndex.anyArmed = false ∧ lastIndex.rest ≠ .rest2 ∧ lastIndex.transit = none ∧ lastIndex.arb.running = none ∧
      lastIndex.keys.isSealed = false ∧ lastIndex.hoopPresent 5 = true ∧ lastIndex.issue.retry = none ∧
      ((retried fullB 1).takes .host 3 && (retried fullB 1).hoopPresent 0 && (retried fullB 1).canon) = true ∧ bits (lastIndex.reg 3 0x040) 20 18 = 5 ∧
      bits (lastIndex.reg 3 0x040) 16 12 = 16 ∧ bits (lastIndex.reg 3 0x040) 11 2 = 1023 := by decide +kernel

theorem wit_LaneAndTwistRegs :
    (let s := State.reset.setReg 5 0x040 1023
     s.canon && s.takes .host 2 && s.takes .host 5 && s.takes .host 6 && s.isStopped && !(running none4).isStopped &&
       (running none4).takes .host 2 && s.issue.retry.isNone && s.works && s.scale.walkDue == [] && !s.scale.walkBusy &&
       bits (s.reg 5 0x040) 10 0 == 1023 && s.ecc == [] && !s.issue.running && s.edging.run.isNone &&
       (running none4).takes .host 6 && (running none4).issue.running) = true ∧
      (let s := retried fullB 1
       let t : State := { State.reset with scale := { ScaleUnit.reset with walkBusy := true } }
       s.canon && s.takes .host 2 && s.takes .host 5 && s.works && s.issue.retry.isSome &&
         decide (bits (s.reg 5 0x040) 10 0 < 1024) && t.takes .host 5 && t.works && t.canon) = true := by decide +kernel

/-- A binding of two bundles at the end of the edging store, with a verdict on it. -/
def armable : State :=
  { State.reset.setReg 7 0x2C4 0xFE020000 with edging := { Edging.reset with verdict := .favourable } }

/-- LaneAndTwistRegs: a control write with the key that the slot holds. -/
theorem wit_sameKey :
    (let s := State.reset.setSlot 0 { ScaleSlot.reset with valid := true, key := 7 }
     s.canon && (s.slot 0).valid && (s.slot 0).key == (0x00078000 : Word).extractLsb' 16 16 && s.takes .host 5 &&
       s.works) = true := by decide +kernel

theorem wit_EdgingAndNetRegs :
    (armable.canon && armable.takes .host 7 && !armable.armed 7 && armable.armReason 7 0x80000009 == 0 &&
      State.reset.armReason 7 0x80000009 != 0 && (bound 0 0 State.reset).armed 7) = true ∧
      (let s := State.reset.setBank 1 { Bank.reset with occ := true, releaseDue := true }
       s.canon && (s.bank 1).releaseDue && s.edging.run.isNone && s.edging.compl.isNone &&
         s.takes .host 7 && (runWith none s).edging.run.isSome && (runWith none s).takes .host 7) = true ∧
      (State.reset.takes .host 9 && !State.reset.stepOpen && State.reset.arrivals == [] && State.reset.hoopPresent 5 &&
        inStep.takes .host 9 && inStep.stepOpen) = true ∧
      ({ State.reset with net := arrived false } : State).arrivals ≠ [] := by decide +kernel

theorem wit_MirrorRegs :
    (receiving.takes .host 10 && receiving.works && receiving.canon && !receiving.stepOpen && !receiving.issue.running &&
      !receiving.mirrorBusy && receiving.pairsOk && receiving.restartMseq.mirrorKeyOk && receiving.staleHalf == some 0 &&
      !State.reset.restartMseq.mirrorKeyOk && State.reset.staleHalf == none && inStep.takes .host 10 &&
      !inStep.mirrorBusy && inStep.stepOpen) = true ∧
      (let s := State.reset.setReg 10 (regionOff false 0 + 4) 0x40000000
       s.canon && !s.pairsOk && !s.mirrorBusy) = true ∧
      (let s : State := { receiving with mirror := { receiving.mirror with image := .valid } }
       s.works && s.pairsOk && s.restartMseq.mirrorKeyOk && !s.mirrorBusy) = true ∧
      (let s : State := { receiving with mirror := { receiving.mirror with op := some .flush } }
       s.mirrorBusy && s.takes .host 10) = true ∧ State.reset.mirror.image ≠ .valid := by decide +kernel

theorem wit_ServiceRegs :
    (State.reset.canon && [11, 12, 14, 15].all (fun p => State.reset.takes .host p) && State.reset.works &&
      State.reset.isStopped && !State.reset.keys.isSealed && State.reset.stageEmpty) = true ∧
      entryReason 0x84000000 0x00010000 0 = 0 ∧ entryReason 0x84000000 0 0 ≠ 0 ∧
      ([0, 3, 4].all fun n =>
        let s : State := { acting (.proofing 1) with arb :=
          { (acting (.proofing 1)).arb with queue := List.replicate n ⟨.proofing 0, .mmio⟩ } }
        s.takes .host 12 && s.works && s.arb.running.isSome && s.arb.queue.length == n) = true ∧
      (let s : State := { State.reset with resetting := none, rest := .rest1 }
       s.takes .host 12 && !s.works) = true ∧
      (frozen true (onMain .nop none4)).2.clock.frozenGuard = some true ∧
      (let s : State := { State.reset with trouble := { TroubleUnit.reset with stage := [(0, 0x40000005)] } }
       s.canon && !s.stageEmpty && s.arb.running.isNone) = true ∧
      ([false, true].all fun g =>
        let s : State := { State.reset with testEnable := true, testLocal := g }
        let t : State := { s with ecc := [⟨.hoop, 5, 1⟩], rest := .rest1 }
        s.takes .host 15 && s.works && s.canon && t.takes .host 15 && !t.works) = true ∧
      (let s := ({ State.reset with testEnable := true } : State).setReg 15 0x044 0x00140FF8 |>.setReg 15 0x048 0xC700
       s.takes .host 15 && s.canon && injWord (s.reg 15 0x044) == some (.hoop, 5 * 17 * 512 + 511) &&
         bits (s.reg 15 0x044) 31 28 == 0 && s.hoopPresent 5 && bits (s.reg 15 0x048) 6 0 == 0 &&
         bits (s.reg 15 0x048) 14 8 == 71 && (s.reg 15 0x048).getLsbD 15 && s.ecc == [] && s.issue.held == [] &&
         bits (s.reg 15 0x044) 20 18 == 5 && bits (s.reg 15 0x044) 16 12 == 0 && bits (s.reg 15 0x044) 11 3 == 511) = true ∧
      (let s : State := { State.reset with issue := { IssueUnit.reset with held := [.hoop 5 0 1023 7] } }
       s.issue.held.contains (.hoop 5 0 1023 7) && 1023 / 2 == 511) = true ∧
      (let s := (({ State.reset with testEnable := true } : State).setReg 15 0x044 0x10000000).setMslot 0
         { MotifSlot.reset with lostA := true }
       s.takes .host 15 && injWord (s.reg 15 0x044) == some (.leaf, 0) && (s.mslot 0).lost false) = true ∧
      ((running none4).takes .host 15 && !(running none4).isStopped && !State.reset.testEnable) = true ∧
      bits (0x00070000 : Word) 19 16 = 7 ∧
      (let s : State := { State.reset with keys := { SealUnit.reset with isSealed := true } }
       s.takes .host 15) = true ∧
      injWord 0x30000000 = some (.program, 0) ∧ injWord 0x50000000 = none := by decide +kernel

theorem wit_PageAccess :
    State.reset.canon = true ∧ ([0, 7, 15].all fun p => State.reset.answers p && State.reset.takes .host p) = true ∧
      ({ State.reset with powered := false } : State).answers 0 = false ∧
      (let s := State.reset.setPage 7 { State.reset.page 7 with writer := 2 }
       s.canon && s.answers 7 && !s.admits .host 7 && s.admits .coreD 7) = true ∧
      ({ State.reset with resetting := some .pkg } : State).answers 1 = false ∧
      plainMask 1 0x048 = some 0xFFFFFFFF ∧
      (let s := State.reset.setPage 1 { State.reset.page 1 with capture := some (0x104, 9) }
       s.canon && s.answers 1 && !s.readHeld 1 0x104 && (s.page 1).capture == some (0x104, 9) && isLow 1 0x100) = true := by
  decide +kernel

/-! ### Witnesses of bundles that do not execute, and of the invariants -/

/-- The bundle is offered at its place. -/
def stands (p : Instr × State) : Bool :=
  match p.1.row with
  | some (_, i) => p.1.wf && p.2.canOffer i.stream && p.2.fetched i.stream == i.bundle
  | none => false

def legalFor (p : Instr × State) : Bool :=
  match p.1.row with
  | some (_, i) => p.2.legalHere i.stream i.bundle && (p.2.fetchErrs i.stream).isEmpty
  | none => false

/-- RefusedBundles: a fetch error, an illegal bundle in each stream, an absent hoop, a lent one, the port's hoop, and a
POPQ that must wait. -/
theorem wit_RefusedBundles :
    (let b := mSlot 9 fun m => { m with hs := 0x04, sreg := 1 }
     let p := onMain .movs b
     let bad := onMain .movs (mSlot 9 fun m => { m with hs := 0x64 })
     let run := onEdge .halt (sSlot 0x1E 0 0 0 0)
     let gone : State := { p.2 with hoopMeta := { p.2.hoopMeta with present := p.2.hoopMeta.present.setIfInBounds 0 false } }
     let lent := bound 0 2 (p.2.setReg 7 0x2C8 0x100)
     let rx : State := { p.2 with net := { p.2.net with rxEn := true, rxHoop := 0 } }
     let q := onMain .popq (mSlot 6 fun m => { m with hs := 0x04 })
     let torn : State := { p.2 with ecc := [⟨.program, 0, 3⟩] }
     stands p && stands bad && stands run && stands q && legalFor p && !legalFor bad && !legalFor run && legalFor q &&
       stands (p.1, torn) && (torn.fetchErrs .main).any EccErr.hard &&
       stands (p.1, gone) && legalFor (p.1, gone) && !gone.hoopPresent 0 && (gone.namedHoops (mainOf b)).contains 0 &&
       stands (p.1, lent) && legalFor (p.1, lent) && lent.lentHoop 0 && stands (p.1, rx) && legalFor (p.1, rx) &&
       !rx.lentHoop 0 && (q.2.mustWait (q.2.env (mainOf (mSlot 6 fun m => { m with hs := 0x04 }))) .normal)) = true := by
  decide +kernel

/-- RefusedBundles: the main program while the run has a bundle ready, a word that an active element needs, and a word
of the leaf that is evaluated. -/
theorem wit_RefusedBundles_errors :
    (edging none4).canOffer .main = false ∧
      (let p := onMain .func (v1Slot 1 fun v => { v with dst := 0x04, src1 := 0x08, ts := 3 })
       let torn : State := { p.2 with ecc := [⟨.hoop, 8 * 512, 3⟩] }
       let leaf : State := { p.2.setMslot 3 { MotifSlot.reset with leafA := { Leaf.reset with state := .ready } } with
         ecc := [⟨.leaf, leafNo 3 false * 1096, 3⟩] }
       let i := mainOf (v1Slot 1 fun v => { v with dst := 0x04, src1 := 0x08, ts := 3 })
       stands (p.1, torn) && legalFor (p.1, torn) && ((torn.env i).readErrs.any fun x => x.1.hard && x.2) &&
         !torn.mustWait (torn.env i) .normal && stands (p.1, leaf) && legalFor (p.1, leaf) &&
         (leaf.env i).readErrs == [] && (leaf.env i).leafErrs.any EccErr.hard) = true := by decide +kernel

/-- RoundedCodes: the largest finite code of E4M3 is finite; zero has no magnitude; F32's NaN is none. -/
theorem wit_RoundedCodes : Fmt.e4m3.value 0x7E = .fin false 14 5 ∧ Fmt.e4m3.isMx = false ∧
    Fmt.f32.isFloat = true ∧ Fmt.f32.value 0x7FC00000 = .nan := by decide +kernel

/-- StepKeepsMemory and StepKeepsBounds: the reset state with a command waiting meets the premises. -/
theorem wit_bounded : State.reset.bounded :=
  ⟨by decide +kernel, fun _ _ => ⟨⟨by decide +kernel, by decide +kernel⟩, fun r h => by cases h⟩⟩

theorem wit_canon : State.reset.canon = true := by decide +kernel

/-- StoredBundle: the store of the tests holds its bundle. -/
theorem wit_StoredBundle : ((List.range 8).all fun k =>
    (storeOf fullB).get 0 (8 * 0 + k) == fullB.encode.extractLsb' (32 * k) 32) = true := by decide +kernel

end Sys2Proof.Tests
end

section
/-!
SUPPORT. Register accesses over MMIO: which accesses a page ignores, refuses or takes, what a register write leaves, and
what a read returns with the capture of a register pair (R10, R12, R392, R397, R420, R422). Settles O53 and O48.
-/

namespace Sys2Proof.Machine

theorem State.canon_regs {s : State} (h : s.canon = true) : SMap.wf 0 s.regs = true := by
  simp only [State.canon, Bool.and_eq_true] at h
  tauto

@[simp] theorem settle_reg (s t : State) (p o : Nat) : (State.settle s t).reg p o = t.reg p o := by
  simp [State.reg]

/-! ### The commands of this family -/

theorem exec_registerWrite (s : State) (w : Writer) (page : BitVec 4) (off : BitVec 12) (size : AccSize) (v : Word) :
    exec (.registerWrite w page off size v) s = .next (s.settle (s.mmioWrite w page.toNat off.toNat size v)) := rfl

theorem exec_registerPairRead (s : State) (page : BitVec 4) (off : BitVec 12) (size : AccSize) :
    exec (.registerPairRead page ⟨off, size⟩) s = .next (s.settle (s.mmioRead page.toNat off.toNat size)) := rfl

theorem exec_pageLock (s : State) (w : Writer) (page : BitVec 4) (v : Word) :
    exec (.pageLock w page v) s = .next (s.settle (s.writeLock w page.toNat v)) := rfl

theorem exec_stageData_write (s : State) (w : Writer) (v : Word) :
    exec (.stageData (.write w v)) s = .next (s.settle (s.write w 14 fun s => s.writeStage v)) := rfl

/-! ### Writes -/

theorem State.takes_iff {s : State} {w : Writer} {p : Nat} :
    s.takes w p = true ↔ s.answers p = true ∧ s.admits w p = true := by
  simp [State.takes]

/-- A write that a page takes is made. -/
theorem State.write_of_takes {s : State} {w : Writer} {p : Nat} (h : s.takes w p = true) (f : State → State) :
    s.write w p f = f s := by
  obtain ⟨ha, hw⟩ := State.takes_iff.mp h
  simp [State.write, ha, hw]

/-- A page that does not answer ignores a write (R392, R397). -/
theorem State.write_of_silent {s : State} {p : Nat} (h : s.answers p = false) (w : Writer) (f : State → State) :
    s.write w p f = s := by
  simp [State.write, h]

/-- A writer that WRITER shuts out is refused (R422). -/
theorem State.write_of_refused {s : State} {w : Writer} {p : Nat} (ha : s.answers p = true) (hw : s.admits w p = false)
    (f : State → State) : s.write w p f = s.setPage p { s.page p with refused := true } := by
  simp [State.write, ha, hw]

/-- A page that does not answer ignores PAGE_LOCK. -/
theorem State.writeLock_of_silent {s : State} {p : Nat} (h : s.answers p = false) (w : Writer) (v : Word) :
    s.writeLock w p v = s := by
  simp [State.writeLock, h]

/-- Only the host writes PAGE_LOCK (R422). -/
theorem State.writeLock_of_ne_host (s : State) {w : Writer} (p : Nat) (v : Word) (h : w ≠ .host) :
    s.writeLock w p v = s := by
  simp [State.writeLock, h]

/-- The host's PAGE_LOCK clears REFUSED by writing 1 and takes WRITER but for its reserved value (R422). -/
theorem State.writeLock_host {s : State} {p : Nat} (h : s.answers p = true) (v : Word) :
    s.writeLock .host p v = s.setPage p { s.page p with
      refused := (s.page p).refused && !v.getLsbD 16
      writer := if bits v 1 0 = 3 then (s.page p).writer else v.truncate 2 } := by
  have e : BitVec.ofNat 2 (bits v 1 0) = v.truncate 2 := by
    apply BitVec.eq_of_toNat_eq
    simp [bits]
  simp [State.writeLock, h, e]

/-- A write of another size or at an odd place is none (R12). -/
theorem State.mmioWrite_of_misfit (s : State) (w : Writer) (p o : Nat) {size : AccSize} (v : Word)
    (h : size = .other ∨ o % 4 ≠ 0) : s.mmioWrite w p o size v = s := by
  simp [State.mmioWrite, h]

theorem State.mmioWrite_lock (s : State) (w : Writer) (p : Nat) (v : Word) :
    s.mmioWrite w p 0x01C .word v = s.writeLock w p v := by
  simp [State.mmioWrite]

theorem State.mmioWrite_word (s : State) (w : Writer) (p : Nat) {o : Nat} (v : Word) (h4 : o % 4 = 0) (hl : o ≠ 0x01C) :
    s.mmioWrite w p o .word v = s.write w p fun s => s.writeReg w p o v := by
  simp [State.mmioWrite, h4, hl]

/-- A page that does not answer ignores a write of any register. -/
theorem State.mmioWrite_of_silent {s : State} {p : Nat} (h : s.answers p = false) (w : Writer) (o : Nat)
    (size : AccSize) (v : Word) : s.mmioWrite w p o size v = s := by
  simp [State.mmioWrite, State.writeLock_of_silent h, State.write_of_silent h]

/-- An aligned word that its page takes is written to its register. -/
theorem State.mmioWrite_of_takes {s : State} {w : Writer} {p o : Nat} (h : s.takes w p = true) (v : Word)
    (h4 : o % 4 = 0) (hl : o ≠ 0x01C) : s.mmioWrite w p o .word v = s.writeReg w p o v := by
  rw [State.mmioWrite_word s w p v h4 hl, State.write_of_takes h]

theorem State.writeReg_sticky (s : State) (w : Writer) (p : Nat) (v : Word) :
    s.writeReg w p 0x010 v = s.setPage p { s.page p with sticky := (s.page p).sticky &&& ~~~ v } := rfl

theorem State.writeReg_enable (s : State) (w : Writer) (p : Nat) (v : Word) :
    s.writeReg w p 0x014 v = s.setPage p { s.page p with en := (v &&& stickyMask p) ||| forcedEn p } := rfl

/-- The common header ends below 0x040 (R420). -/
theorem State.writeHeader_of_le (s : State) (w : Writer) (p : Nat) {o : Nat} (v : Word) (h : 0x040 ≤ o) :
    s.writeHeader w p o v = none := by
  unfold State.writeHeader
  split
  iterate 4 · omega
  · exact if_neg (by omega)

/-- A plain register takes its assigned bits. -/
theorem State.writeReg_plain (s : State) (w : Writer) {p o : Nat} {m : Word} (v : Word) (ho : 0x040 ≤ o)
    (hm : plainMask p o = some m) : s.writeReg w p o v = s.setReg p o (v &&& m) := by
  simp [State.writeReg, State.writeHeader_of_le s w p v ho, hm]

/-! ### Reads -/

/-- A read of another size or at an odd place, or from a page that does not answer, returns zero (R12, R392, R397). -/
theorem State.mmioRead_of_misfit {s : State} {p o : Nat} {size : AccSize}
    (h : s.answers p = false ∨ size = .other ∨ o % 4 ≠ 0) : s.mmioRead p o size = { s with mmioOut := some 0 } := by
  unfold State.mmioRead
  rw [if_pos]
  simpa [or_assoc] using h

theorem State.mmioRead_word {s : State} {p o : Nat} (ha : s.answers p = true) (h4 : o % 4 = 0)
    (hh : s.readHeld p o = false) :
    s.mmioRead p o .word = { (s.readReg p o).2 with mmioOut := some (s.readReg p o).1 } := by
  simp [State.mmioRead, ha, h4, hh]

/-- The read of a captured high word returns it and ends the capture (R12). -/
theorem State.readReg_captured {s : State} {p o : Nat} {x : Word} (h : (s.page p).capture = some (o, x)) :
    s.readReg p o = (x, s.setPage p { s.page p with capture := none }) := by
  simp [State.readReg, h]

/-- No low word of a pair is a DATA register, a scale slot's or the darn log: its read changes nothing more. -/
theorem State.readEffect_of_isLow (s : State) {p o : Nat} (h : isLow p o = true) :
    s.readEffect p o = (s.peek p o, s) := by
  unfold State.readEffect
  split
  iterate 9 · exact absurd h Bool.false_ne_true
  · rfl

/-- The read of a low word captures the high word (R12). -/
theorem State.readReg_of_isLow {s : State} {p o : Nat} (hl : isLow p o = true)
    (h : (s.page p).capture.map (·.1) ≠ some o) :
    s.readReg p o = (s.peek p o, s.setPage p { s.page p with capture := some (o + 4, s.peek p (o + 4)) }) := by
  unfold State.readReg
  dsimp only
  rw [State.readEffect_of_isLow s hl, if_pos hl]
  split
  · next x v hc =>
    have hx : x ≠ o := by simpa [hc] using h
    exact if_neg hx
  · rfl

/-! ### The stage -/

/-- A field of TROUBLE that neither ENGINE_DOWN nor FIRST is: settling leaves it. -/
theorem settle_trouble_keeps {α : Type} (P : TroubleUnit → α)
    (hd : ∀ (u : TroubleUnit) (b : Bool), P { u with engineDown := b } = P u)
    (hf : ∀ (u : TroubleUnit) (x : Word) (y : BitVec 48), P { u with first := x, firstStep := y } = P u)
    (s t : State) : P (State.settle s t).trouble = P t.trouble := by
  have cap : P (State.settleCap s t).trouble = P t.trouble := by
    unfold State.settleCap
    split <;> rfl
  have down (u : State) : P (State.settleDown u).trouble = P u.trouble := by
    unfold State.settleDown State.refuseTriggers
    split
    · split <;> exact hd _ _
    · rfl
  have first (u : State) : P (State.settleFirst s u).trouble = P u.trouble := by
    unfold State.settleFirst
    split
    · rfl
    · split
      · rfl
      · exact hf _ _ _
  rw [settle_eq]
  split
  · rfl
  · rw [first, down, cap]

@[simp] theorem settle_stage (s t : State) : (State.settle s t).trouble.stage = t.trouble.stage :=
  settle_trouble_keeps TroubleUnit.stage (fun _ _ => rfl) (fun _ _ _ => rfl) s t

/-- Staged darning that runs, or is still to take effect, refuses a write of the stage (R338, R339). -/
theorem State.writeStage_of_staging {s : State} (h : s.staging = true) (v : Word) : s.writeStage v = s.mark 14 12 := by
  simp [State.writeStage, h]

theorem exec_stageData_of_staging {s : State} {w : Writer} (ht : s.takes w 14 = true) (hs : s.staging = true) (v : Word) :
    exec (.stageData (.write w v)) s = .next (s.settle (s.mark 14 12)) := by
  rw [exec_stageData_write, State.write_of_takes ht, State.writeStage_of_staging hs]

/-- Staged darning has ended under an aborted bundle: no activity runs, and its effect waits for the boundary after the
re-execution (R326). -/
def stagedUnderAbort : State :=
  (State.reset.setRetry (some ⟨.main, Bundle.decode 0, 1, false, .normal, [], false, State.reset.twCap, [], none, false⟩)).actEnds
    .staged

end Sys2Proof.Machine

open Sys2Proof Sys2Proof.Machine

/-- Settles O53: each clause by the rule for the way that the access takes. -/
theorem pageAccess : Obligations.PageAccess := by
  intro s w page off v hs p o h c keeps zero
  have ho : o < 4096 := off.isLt
  have hc : exec c s = .next (s.settle (s.mmioWrite w p o .word v)) := exec_registerWrite ..
  have ignored {size : AccSize} (e : s.mmioWrite w p o size v = s) : keeps (.registerWrite w page off size v) := by
    simp only [keeps, exec_registerWrite, p, o, e]
  have unanswered {size : AccSize} (e : s.answers p = false ∨ size = .other ∨ o % 4 ≠ 0) :
      zero (.registerPairRead page ⟨off, size⟩) := by
    simp only [zero, exec_registerPairRead, p, o, State.mmioRead_of_misfit e]
  refine ⟨⟨?_, ?_⟩, ?_, ?_, ?_, ?_, ?_, ?_, ?_⟩
  · exact ignored (State.mmioWrite_of_misfit s w p o v (.inl rfl))
  · exact unanswered (.inr (.inl rfl))
  · exact fun h4 => ⟨ignored (State.mmioWrite_of_misfit s w p o v (.inr h4)), unanswered (.inr (.inr h4))⟩
  · exact fun ha => ⟨ignored (State.mmioWrite_of_silent ha w o .word v), unanswered (.inl ha)⟩
  · intro ha hw h4 hl
    rw [hc, State.mmioWrite_word s w p v h4 hl, State.write_of_refused ha hw]
  · intro hw
    have hl := State.writeLock_of_ne_host s p v hw
    refine ⟨?_, fun h1c => ignored ?_⟩
    · simp only [keeps, exec_pageLock, p, hl]
    · rw [h1c, State.mmioWrite_lock, hl]
  · intro ha x hx
    rw [← State.writeLock_host ha]
    obtain rfl | ⟨rfl, h1c, rfl⟩ := hx
    · exact exec_pageLock ..
    · rw [hc, h1c, State.mmioWrite_lock]
  · intro ht
    refine ⟨fun h10 => ?_, fun h14 => ?_, fun m hm h4 h40 => ⟨_, hc, ?_⟩⟩
    · rw [hc, h10, State.mmioWrite_of_takes ht v rfl (by decide), State.writeReg_sticky]
    · rw [hc, h14, State.mmioWrite_of_takes ht v rfl (by decide), State.writeReg_enable]
    · have hr := State.canon_regs hs
      rw [State.mmioWrite_of_takes ht v h4 (by omega), State.writeReg_plain s w v h40 hm]
      simp only [settle_reg]
      exact ⟨State.reg_setReg_self s hr p o _, fun q x _ hx hne => State.reg_setReg_other s hr p o q x _ hx ho hne⟩
  · intro ha h4 hh
    rw [exec_registerPairRead, State.mmioRead_word ha h4 hh]
    refine ⟨fun x hx => ?_, fun hl hn => ?_⟩
    · rw [State.readReg_captured hx]
    · rw [State.readReg_of_isLow hl hn]

/-- Refutes O48: its clause on STAGE_DATA asks only that no staged darning runs, but the model refuses the write too while
one that has ended under an aborted bundle is still to take effect, so the word at index 0 stays 0. -/
theorem not_arrayAccess : ¬ Obligations.ArrayAccess := by
  intro h
  obtain ⟨-, -, -, -, -, -, -, -, -, -, -, hstage, -⟩ := h stagedUnderAbort rfl
  have ht : stagedUnderAbort.takes .host 14 = true := rfl
  have hs : stagedUnderAbort.staging = true := rfl
  have hidle : stagedUnderAbort.arb.running = none := rfl
  obtain ⟨t, he, -, hget⟩ := hstage .host 1 ht (by simp [hidle])
  rw [exec_stageData_of_staging ht hs] at he
  cases he
  have h0 := hget 0
  rw [settle_stage, State.mark_trouble] at h0
  exact absurd h0 (by decide +kernel)
end

section
/-!
SUPPORT. Sticky bits that stay set over a chain of updates, and what a command of this family answers.
-/

namespace Sys2Proof.Machine

/-- Every sticky bit set in `s` is set in `t`. -/
def StickyKept (s t : State) : Prop := ∀ q n, (s.sticky q).getLsbD n = true → (t.sticky q).getLsbD n = true

theorem StickyKept.refl (s : State) : StickyKept s s := fun _ _ h => h

theorem StickyKept.trans {s t u : State} (h : StickyKept s t) (k : StickyKept t u) : StickyKept s u :=
  fun q n x => k q n (h q n x)

/-- An update that leaves the pages leaves every sticky bit. -/
theorem StickyKept.of_pages {s t : State} (h : t.pages = s.pages) : StickyKept s t := fun q n x => by
  simpa only [State.sticky, State.page, h] using x

theorem StickyKept.mark (s : State) (p b : Nat) (hp : p < 16) : StickyKept s (s.mark p b) :=
  fun q n h => sticky_mark_keeps s p b q n hp h

theorem StickyKept.markIf (s : State) (c : Bool) (p b : Nat) (hp : p < 16) : StickyKept s (s.markIf c p b) := by
  cases c
  · exact .refl s
  · exact .mark s p b hp

theorem StickyKept.bump (s : State) (c : Ctr) (n : Nat) : StickyKept s (s.bump c n) := by
  unfold State.bump
  split
  · exact .refl s
  · exact fun q n h => StickyKept.markIf _ _ 14 16 (by decide) q n h

theorem StickyKept.settle (s t : State) : StickyKept t (State.settle s t) := fun q n h => sticky_settle s t q n h

theorem StickyKept.foldl {α : Type} {f : State → α → State} (h : ∀ s a, StickyKept s (f s a)) (l : List α) (s : State) :
    StickyKept s (l.foldl f s) := by
  induction l generalizing s with
  | nil => exact .refl s
  | cons a l ih => exact (h s a).trans (ih _)

/-- A bit that an update sets is set behind further ones. -/
theorem StickyKept.marked {s t : State} {p b : Nat} (h : StickyKept (s.mark p b) t) (hp : p < 16) (hb : b < 32) :
    (t.sticky p).getLsbD b = true := h p b (sticky_mark_self s p b hp hb)

end Sys2Proof.Machine
end

section
/-!
SUPPORT. Ends of waits, direction words and picots (R25, R108, R115 to R117). Settles O30.
-/

namespace Sys2Proof.Machine

/-! ### Whether the engine executes -/

theorem State.works_of_executes {s : State} (h : s.executes = true) : s.works = true := by
  simp only [State.executes, Bool.and_eq_true] at h
  exact h.1

/-- An engine that works is not at rest, so it is up. -/
theorem State.up_of_works {s : State} (h : s.works = true) : s.up = true := by
  simp only [State.works, Bool.and_eq_true, Option.isNone_iff_eq_none, beq_iff_eq] at h
  obtain ⟨⟨⟨hp, hr⟩, ht⟩, hrest⟩ := h
  simp [State.up, State.dark, hp, hr, ht, hrest]

theorem State.up_of_executes {s : State} (h : s.executes = true) : s.up = true :=
  State.up_of_works (State.works_of_executes h)

/-! ### What a stream waits for -/

@[simp] theorem settle_waitOf (s t : State) (st : Stream) : (State.settle s t).waitOf st = t.waitOf st := by
  cases st <;> simp [State.waitOf]

@[simp] theorem mark_waitOf (s : State) (p b : Nat) (st : Stream) : (s.mark p b).waitOf st = s.waitOf st := by
  cases st <;> rfl

@[simp] theorem setWait_none_waitOf (s : State) (st : Stream) : (s.setWait st none).waitOf st = none := by
  cases st with
  | main => rfl
  | edge => cases hr : s.edging.run <;> simp [State.setWait, State.modRun, State.waitOf, hr]

@[simp] theorem modCtx_waitOf (s : State) (st : Stream) (f : Ctx → Ctx) : (s.modCtx st f).waitOf st = s.waitOf st := by
  cases st with
  | main => rfl
  | edge => cases hr : s.edging.run <;> simp [State.modCtx, State.waitOf, hr]

@[simp] theorem passEnd_waitOf (s : State) (st : Stream) : (s.passEnd st).waitOf st = s.waitOf st := by
  cases st with
  | main => simp only [State.passEnd]; split <;> rfl
  | edge =>
    cases hr : s.edging.run with
    | none => simp [State.passEnd, State.modRun, State.waitOf, hr]
    | some r => simp only [State.passEnd, State.modRun, State.waitOf, hr, Option.map_some]; split <;> rfl

@[simp] theorem modCtx_pcOf (s : State) (st : Stream) (f : Ctx → Ctx) : (s.modCtx st f).pcOf st = s.pcOf st := by
  cases st with
  | main => rfl
  | edge => cases hr : s.edging.run <;> simp [State.modCtx, State.pcOf, hr]

@[simp] theorem setWait_pcOf (s : State) (st : Stream) (w : Option Wait) : (s.setWait st w).pcOf st = s.pcOf st := by
  cases st with
  | main => rfl
  | edge => cases hr : s.edging.run <;> simp [State.setWait, State.modRun, State.pcOf, hr]

/-- Only a run can wait on the edge. -/
theorem State.run_of_waitOf {s : State} {st : Stream} {w : Wait} (h : s.waitOf st = some w) :
    st = .edge → s.edging.run ≠ none := by
  rintro rfl hr
  simp [State.waitOf, hr] at h

theorem setWait_run {s : State} {st : Stream} (w : Option Wait) (h : st = .edge → s.edging.run ≠ none) :
    st = .edge → (s.setWait st w).edging.run ≠ none := by
  rintro rfl
  simpa [State.setWait, State.modRun] using h rfl

/-! ### A wait that ends -/

/-- From `s` to `t` the stream ends the wait `w`: it goes on at its position with `v` in the register named (R108,
R116). -/
def GoesOn (s t : State) (st : Stream) (w : Wait) (v : BitVec 64) : Prop :=
  t.waitOf st = none ∧ t.ctxOf st = (s.ctxOf st).setS w.sd v ∧ t.pcOf st = s.pcOf st

theorem GoesOn.mark {s t : State} {st : Stream} {w : Wait} {v : BitVec 64} (h : GoesOn s t st w v) (p b : Nat) :
    GoesOn s (t.mark p b) st w v := by
  simpa [GoesOn] using h

theorem GoesOn.settle {s t : State} {st : Stream} {w : Wait} {v : BitVec 64} (h : GoesOn s t st w v) (u : State) :
    GoesOn s (State.settle u t) st w v := by
  simpa [GoesOn] using h

theorem State.endWait_goesOn {s : State} {st : Stream} {w : Wait} (h : s.waitOf st = some w) (v : BitVec 64) :
    GoesOn s (s.endWait st v) st w v := by
  have e : s.endWait st v = ((s.setWait st none).modCtx st fun c => c.setS w.sd v).passEnd st := by
    simp [State.endWait, h]
  rw [e]
  refine ⟨by simp, ?_, by simp⟩
  rw [passEnd_ctxOf, ctxOf_modCtx _ _ _ (setWait_run none (State.run_of_waitOf h)), setWait_ctxOf]

/-- The condition of a WAIT by its kind (R108): a wait of kind 3 ends by its own count. -/
theorem State.waitMet_iff (s : State) (w : Wait) : s.waitMet w = true ↔
    w.kind = .fabric 0 ∨ w.kind = .cycles ∨ (w.kind = .bobbin ∧ s.queueTile = true) ∨
      ((∃ k, w.kind = .mark k) ∧ w.met = true) := by
  obtain ⟨kind, sd, met⟩ := w
  cases kind <;> simp [State.waitMet]

theorem State.waitEnd_of_met {s : State} {st : Stream} {w : Wait} (hx : s.executes = true) (h : s.waitOf st = some w)
    (hm : s.waitMet w = true) : s.waitEnd st = s.endWait st 0 := by
  simp [State.waitEnd, h, hx, hm]

/-- WAIT_LIMIT ends a WAIT whose condition is not met; a WAITDIR has a limit of its own. -/
theorem State.waitTimeout_of_not_met {s : State} {st : Stream} {w : Wait} (hx : s.executes = true)
    (h : s.waitOf st = some w) (hm : s.waitMet w = false) (hd : w.kind ≠ .dir) :
    s.waitTimeout st = (s.endWait st 1).mark 1 6 := by
  obtain ⟨kind, sd, met⟩ := w
  cases kind with
  | cycles => simp [State.waitMet] at hm
  | dir => exact absurd rfl hd
  | _ => simp [State.waitTimeout, h, hx, hm]

theorem State.dirTimeout_of_dir {s : State} {w : Wait} (hx : s.executes = true) (h : s.issue.wait = some w)
    (hd : w.kind = .dir) : s.dirTimeout = (s.endWait .main (BitVec.allOnes 64)).mark 1 7 := by
  simp [State.dirTimeout, h, hx, hd]

/-! ### Direction words -/

/-- A WAITDIR takes the word that arrives: it has it in its register and goes on at the entry point of its low bits
(R116). -/
theorem State.directionWord_of_dir {s : State} {w : Wait} (hu : s.up = true) (h : s.issue.wait = some w)
    (hd : w.kind = .dir) (word : Word) : (s.directionWord word).issue.wait = none ∧
      (s.directionWord word).ctx = s.ctx.setS w.sd (word.zeroExtend 64) ∧
      (s.directionWord word).issue.pc = s.entryPoint (word.toNat % 8) := by
  obtain ⟨kind, sd, met⟩ := w
  cases hd
  have e : s.directionWord word = (s.setWait .main none).takeDir sd word := by simp [State.directionWord, hu, h]
  have hb : bits word 2 0 = word.toNat % 8 := by simp [bits]
  rw [e, ← hb]
  exact ⟨rfl, rfl, rfl⟩

/-- With no WAITDIR waiting the word is latched (R117). -/
theorem State.directionWord_of_no_dir {s : State} (hu : s.up = true) (h : ∀ w, s.issue.wait = some w → w.kind ≠ .dir)
    (word : Word) : s.directionWord word =
      (s.markIf s.issue.dirLatch.isSome 1 8).modIssue fun i => { i with dirLatch := some word } := by
  unfold State.directionWord
  rw [if_neg (by simp [hu])]
  split
  · next sd met hw => exact absurd rfl (h _ hw)
  · rfl

/-! ### Picots -/

/-- The oldest picot finds room in the mailbox (R115). -/
theorem State.picotPost_of_room {s : State} {p : PicotPost} {ps : List PicotPost} (hu : s.up = true)
    (hp : s.issue.posts = p :: ps) (hr : s.issue.mailbox.length < 16) : s.picotPost =
      (s.modIssue fun i => { i with posts := ps, mailbox := i.mailbox ++ [⟨p.value, p.tag, p.index⟩] }).modCtx p.stream
        fun c => c.setS p.sd 0 := by
  have : ¬ s.issue.mailbox.length ≥ Config.mailbox := Nat.not_le.mpr hr
  simp [State.picotPost, hp, hu, State.modIssue, this]

/-- The mailbox is full (R115). -/
theorem State.picotPost_of_full {s : State} {p : PicotPost} {ps : List PicotPost} (hu : s.up = true)
    (hp : s.issue.posts = p :: ps) (hf : 16 ≤ s.issue.mailbox.length) :
    s.picotPost = (s.modIssue fun i => { i with posts := ps }).dropPicot p.stream p.sd := by
  have : s.issue.mailbox.length ≥ Config.mailbox := hf
  simp [State.picotPost, hp, hu, State.modIssue, this]

@[simp] theorem dropPicot_issue (s : State) (st : Stream) (sd : BitVec 5) : (s.dropPicot st sd).issue = s.issue := by
  cases st <;> simp [State.dropPicot]

theorem dropPicot_ctxOf (s : State) (st : Stream) (sd : BitVec 5) (h : st = .edge → s.edging.run ≠ none) :
    (s.dropPicot st sd).ctxOf st = (s.ctxOf st).setS sd 1 := by
  rw [State.dropPicot, ctxOf_of_offLane (State.bump_offLane _ _ _), mark_ctxOf, ctxOf_modCtx _ _ _ h]

/-! ### The commands of this family -/

theorem exec_waitEnd (s : State) (st : Stream) : exec (.waitEnd st) s = .next (s.settle (s.waitEnd st)) := rfl

theorem exec_waitTimeout (s : State) (st : Stream) : exec (.waitTimeout st) s = .next (s.settle (s.waitTimeout st)) := rfl

theorem exec_dirTimeout (s : State) : exec .dirTimeout s = .next (s.settle s.dirTimeout) := rfl

theorem exec_directionWord (s : State) (word : Word) :
    exec (.directionWord word) s = .next (s.settle (s.directionWord word)) := rfl

theorem exec_dirword (s : State) (w : Writer) (word : Word) (same : Bool) :
    exec (.dirword w word same) s = .next (s.settle (s.write w 1 fun s => s.dirWordWrite word same)) := rfl

theorem exec_picotPost (s : State) : exec .picotPost s = .next (s.settle s.picotPost) := rfl

/-- A word that nothing else overtakes in its cycle is a direction word (R25). -/
theorem exec_dirword_of_takes {s : State} {w : Writer} (h : s.takes w 1 = true) (word : Word) :
    exec (.dirword w word false) s = exec (.directionWord word) s := by
  rw [exec_dirword, exec_directionWord, State.write_of_takes h]
  rfl

/-- The word of the control port comes first in the same cycle (R25). -/
theorem exec_dirword_same {s : State} {w : Writer} (h : s.takes w 1 = true) (word : Word) :
    exec (.dirword w word true) s = .next (s.settle (s.mark 1 9)) := by
  rw [exec_dirword, State.write_of_takes h]
  rfl

end Sys2Proof.Machine

open Sys2Proof Sys2Proof.Machine

/-- Settles O30: each end of a wait by what `State.endWait` leaves, each word and picot by the way that it takes. -/
theorem waitsAndPicots : Obligations.WaitsAndPicots := by
  intro s hx
  have hu := State.up_of_executes hx
  refine ⟨?_, ?_, ?_, ?_, rfl⟩
  · intro st w hw met ends
    have ended {c : Instr} {v : BitVec 64} (u : State) (he : exec c s = .next (s.settle u))
        (hu : u = s.endWait st v) : ends c v none := by
      obtain ⟨h1, h2, h3⟩ := (State.endWait_goesOn hw v).settle s
      exact ⟨_, hu ▸ he, h1, h2, h3, fun n hn => nomatch hn⟩
    have timedOut {c : Instr} {v : BitVec 64} {b : Nat} (hb : b < 32) (u : State) (he : exec c s = .next (s.settle u))
        (hu : u = (s.endWait st v).mark 1 b) : ends c v (some b) := by
      obtain ⟨h1, h2, h3⟩ := ((State.endWait_goesOn hw v).mark 1 b).settle s
      refine ⟨_, hu ▸ he, h1, h2, h3, ?_⟩
      rintro n ⟨⟩
      exact (StickyKept.settle s _).marked (by decide) hb
    refine ⟨fun hm => ?_, fun hm hd => ?_, ?_⟩
    · exact ended _ (exec_waitEnd s st) (State.waitEnd_of_met hx hw ((s.waitMet_iff w).mpr hm))
    · have hn : s.waitMet w = false := by
        rw [← Bool.not_eq_true]
        exact fun h => hm ((s.waitMet_iff w).mp h)
      exact timedOut (by decide) _ (exec_waitTimeout s st) (State.waitTimeout_of_not_met hx hw hn hd)
    · rintro rfl hd
      refine ⟨timedOut (by decide) _ (exec_dirTimeout s) (State.dirTimeout_of_dir hx hw hd), fun word => ?_⟩
      obtain ⟨h1, h2, h3⟩ := State.directionWord_of_dir hu hw hd word
      exact ⟨_, exec_directionWord s word, by simp [h1], by simp [h2], by simp [h3]⟩
  · intro hw word c hc
    have latched : ∃ t, exec (.directionWord word) s = .next t ∧ t.issue = { s.issue with dirLatch := some word } ∧
        (s.issue.dirLatch ≠ none → (t.sticky 1).getLsbD 8 = true) := by
      refine ⟨_, exec_directionWord s word, ?_⟩
      rw [State.directionWord_of_no_dir hu hw]
      refine ⟨by simp, fun hl => ?_⟩
      rw [Option.isSome_iff_ne_none.mpr hl]
      have kept : StickyKept (s.mark 1 8) ((s.mark 1 8).modIssue fun i => { i with dirLatch := some word }) := .of_pages rfl
      exact (kept.trans (.settle s _)).marked (by decide) (by decide)
    obtain rfl | ⟨w, ht, rfl⟩ := hc
    · exact latched
    · rwa [exec_dirword_of_takes ht]
  · intro w word ht
    refine ⟨_, exec_dirword_same ht word, by simp, ?_⟩
    exact (StickyKept.settle s _).marked (by decide) (by decide)
  · intro p ps hp
    refine ⟨_, exec_picotPost s, ?_⟩
    by_cases hr : s.issue.mailbox.length < 16
    · rw [State.picotPost_of_room hu hp hr]
      refine ⟨by simp, by simp [hr], fun h => ?_, fun h => absurd hr (by omega)⟩
      rw [settle_ctxOf, ctxOf_modCtx _ _ _ ?_, modIssue_ctxOf, if_pos hr]
      exact fun he => h.resolve_left (by simp [he])
    · have hf : 16 ≤ s.issue.mailbox.length := by omega
      rw [State.picotPost_of_full hu hp hf]
      refine ⟨by simp, by simp [hr], fun h => ?_, fun _ => ⟨?_, ?_⟩⟩
      · rw [settle_ctxOf, dropPicot_ctxOf _ _ _ ?_, modIssue_ctxOf, if_neg hr]
        exact fun he => h.resolve_left (by simp [he])
      · exact ((StickyKept.bump _ _ _).trans (.settle s _)).marked (by decide) (by decide)
      · rw [settle_counter, State.dropPicot, State.counter_bump _ _ _ _ (by decide)]
        simp [Ctr.index, ctrMax, State.counter]
end

section
/-!
SUPPORT. What the events of partners change and what they leave: the ends of waits, the loss of a target or of a matrix
engine, the records discarded, the exchange plan, roll calls (R266 to R270, R273, R285, R286, R299 to R301).
-/

namespace Sys2Proof.Machine

/-! ### Updates that a wait's end and a dropped picot make -/

/-- A field that the end of a wait does not touch. -/
theorem State.endWait_keeps {α : Type} (P : State → α)
    (h : ∀ (t : State) (i : IssueUnit) (c : Ctx) (r : Option Run) (p : Vector PageHdr 16),
      P { t with issue := i, ctx := c, pages := p, edging := { t.edging with run := r } } = P t)
    (s : State) (st : Stream) (v : BitVec 64) : P (s.endWait st v) = P s := by
  unfold State.endWait
  split
  · rfl
  · cases st with
    | main =>
      dsimp only [State.passEnd, State.setWait, State.modCtx, State.modIssue, State.stopAt, State.mark, State.setPage]
      split
      · exact h s _ _ s.edging.run _
      · exact h s _ _ s.edging.run s.pages
    | edge =>
      dsimp only [State.passEnd, State.setWait, State.modCtx, State.modRun]
      exact h s s.issue s.ctx _ s.pages

/-- A field that a dropped picot does not touch. -/
theorem State.dropPicot_keeps {α : Type} (P : State → α)
    (h : ∀ (t : State) (c : Ctx) (r : Option Run) (u : TroubleUnit) (p : Vector PageHdr 16),
      P { t with ctx := c, trouble := u, pages := p, edging := { t.edging with run := r } } = P t)
    (s : State) (st : Stream) (sd : BitVec 5) : P (s.dropPicot st sd) = P s := by
  unfold State.dropPicot
  rw [State.bump_keeps P fun t u p => h t t.ctx t.edging.run u p]
  cases st with
  | main => exact h s _ s.edging.run s.trouble _
  | edge => exact h s s.ctx _ s.trouble _

/-- A field that discarded mirror records do not touch. -/
theorem State.mirrorDiscard_keeps {α : Type} (P : State → α)
    (h : ∀ (t : State) (q : Word) (g : Bool) (n : Word) (u : TroubleUnit) (p : Vector PageHdr 16),
      P { t with mirror := { t.mirror with mseq := q, gap := g }, net := { t.net with rcount := n }
                 trouble := u, pages := p } = P t)
    (s : State) (n : Nat) : P (s.mirrorDiscard n) = P s := by
  have hb (t : State) (c : Ctr) (k : Nat) : P (t.bump c k) = P t :=
    State.bump_keeps P (fun t u p => h t t.mirror.mseq t.mirror.gap t.net.rcount u p) t c k
  have hm (t : State) (p : Vector PageHdr 16) : P { t with pages := p } = P t :=
    h t t.mirror.mseq t.mirror.gap t.net.rcount t.trouble p
  have hi (t : State) (c : Bool) (p b : Nat) : P (t.markIf c p b) = P t := by
    cases c
    · rfl
    · exact hm t _
  unfold State.mirrorDiscard State.goneOnce
  dsimp only
  rw [hi, hb, hb, State.mark, State.setPage, hm]
  exact h s _ true _ s.trouble s.pages

/-- A field that the records discarded on their way to a package do not touch. -/
theorem State.discardTo_keeps {α : Type} (P : State → α)
    (h : ∀ (t : State) (m : MirrorUnit) (n : NetUnit) (u : TroubleUnit) (p : Vector PageHdr 16),
      P { t with mirror := m, net := n, trouble := u, pages := p } = P t)
    (s : State) (p : BitVec 15) : P (s.discardTo p) = P s := by
  have hb (t : State) (c : Ctr) (k : Nat) : P (t.bump c k) = P t :=
    State.bump_keeps P (fun t u p => h t t.mirror t.net u p) t c k
  have hn (t : State) (n : NetUnit) : P { t with net := n } = P t := h t t.mirror n t.trouble t.pages
  have hm (t : State) (m : MirrorUnit) : P { t with mirror := m } = P t := h t m t.net t.trouble t.pages
  have hg (t : State) : P t.goneOnce = P t := (hb _ _ _).trans (h t t.mirror t.net t.trouble _)
  have hd (t : State) (m : Bool) : P (t.discardOut m) = P t := by
    unfold State.discardOut
    dsimp only
    split
    · exact (hm _ _).trans (hb t _ _)
    · exact hb t _ _
  have hu (t : State) (o : OutRec) : P (t.dropUnacked o) = P t := by
    unfold State.dropUnacked
    split
    · exact hm t _
    · rfl
  unfold State.discardTo
  rw [foldl_keeps P _ fun t o => ((hu _ _).trans (hd _ _)).trans (hg t)]
  exact hn s _

/-! ### Waits for tiles -/

theorem State.endTileWaits_keeps {α : Type} (P : State → α)
    (h : ∀ (t : State) (i : IssueUnit) (c : Ctx) (r : Option Run) (p : Vector PageHdr 16),
      P { t with issue := i, ctx := c, pages := p, edging := { t.edging with run := r } } = P t)
    (s : State) : P s.endTileWaits = P s := by
  unfold State.endTileWaits
  split
  · rfl
  · refine foldl_keeps P _ (fun t st => ?_) _ s
    split
    · split
      · exact State.endWait_keeps P h t st 1
      · rfl
    · rfl

@[simp] theorem endTileWaits_partner (s : State) : s.endTileWaits.partner = s.partner :=
  State.endTileWaits_keeps State.partner (fun _ _ _ _ _ => rfl) s

@[simp] theorem endTileWaits_works (s : State) : s.endTileWaits.works = s.works :=
  State.endTileWaits_keeps State.works (fun _ _ _ _ _ => rfl) s

@[simp] theorem modPartner_works (s : State) (f : PartnerUnit → PartnerUnit) : (s.modPartner f).works = s.works := rfl

/-! ### A matrix engine that is lost -/

@[simp] theorem unbindMe_works (s : State) (lost : Byte → Bool) : (s.unbindMe lost).works = s.works := rfl

@[simp] theorem unbindMe_rollBusy (s : State) (lost : Byte → Bool) :
    (s.unbindMe lost).partner.rollBusy = s.partner.rollBusy := rfl

/-- A lost engine is bound no longer. -/
theorem unbindMe_meSrc (s : State) (lost : Byte → Bool) : (s.unbindMe lost).partner.coupling.meSrc =
    if lost s.partner.coupling.meSrc then 0xFF else s.partner.coupling.meSrc := by
  simp only [State.unbindMe, State.modPartner_partner]
  split <;> rfl

/-- A held change names no lost engine. -/
theorem unbindMe_held {s : State} {lost : Byte → Bool} {c : Coupling}
    (h : (s.unbindMe lost).partner.couplingHeld = some c) : c.meSrc = 0xFF ∨ lost c.meSrc = false := by
  obtain ⟨-, hm⟩ := Option.ite_none_left_eq_some.mp h
  obtain ⟨d, -, rfl⟩ := Option.map_eq_some_iff.mp hm
  by_cases hl : lost d.meSrc = true
  · exact .inl (by simp [hl])
  · exact .inr (by simp [hl])

@[simp] theorem meAbsent_partner (s : State) : s.meAbsent.partner =
    ((s.modPartner fun p => { p with me := false }).unbindMe
      fun m => m == (if s.ownMe then 0xFE#8 else s.partner.coupling.meSrc)).partner := endTileWaits_partner _

@[simp] theorem meAbsent_works (s : State) : s.meAbsent.works = s.works := endTileWaits_works _

/-! ### The control core that is lost -/

/-- A waiting WAITDIR ends as by its timeout (R116, R285). -/
def State.endDirWait (s : State) : State :=
  match s.issue.wait with
  | some w => if w.kind = .dir then (s.endWait .main (BitVec.allOnes 64)).mark 1 7 else s
  | none => s

/-- Every picot on its way is dropped (R115). -/
def State.dropPicots (s : State) : State :=
  (s.issue.posts.foldl (fun (t : State) p => t.dropPicot p.stream p.sd) s).modIssue fun x => { x with posts := [] }

theorem coreAbsent_eq (s : State) :
    s.coreAbsent = (s.modPartner fun p => { p with core := false }).endDirWait.dropPicots := rfl

/-- A field that the end of a WAITDIR does not touch. -/
theorem State.endDirWait_keeps {α : Type} (P : State → α)
    (h : ∀ (t : State) (i : IssueUnit) (c : Ctx) (r : Option Run) (p : Vector PageHdr 16),
      P { t with issue := i, ctx := c, pages := p, edging := { t.edging with run := r } } = P t)
    (s : State) : P s.endDirWait = P s := by
  have hm (t : State) (p b : Nat) : P (t.mark p b) = P t := h t t.issue t.ctx t.edging.run _
  unfold State.endDirWait
  split
  · split
    · exact (hm _ _ _).trans (State.endWait_keeps P h s _ _)
    · rfl
  · rfl

/-- A field that dropped picots do not touch. -/
theorem State.dropPicots_keeps {α : Type} (P : State → α)
    (h : ∀ (t : State) (i : IssueUnit) (c : Ctx) (r : Option Run) (u : TroubleUnit) (p : Vector PageHdr 16),
      P { t with issue := i, ctx := c, trouble := u, pages := p, edging := { t.edging with run := r } } = P t)
    (s : State) : P s.dropPicots = P s := by
  have hd (t : State) (p : PicotPost) : P (t.dropPicot p.stream p.sd) = P t :=
    State.dropPicot_keeps P (fun t c r u p => h t t.issue c r u p) t _ _
  have hi (t : State) (f : IssueUnit → IssueUnit) : P (t.modIssue f) = P t := h t _ t.ctx t.edging.run t.trouble t.pages
  unfold State.dropPicots
  rw [hi, foldl_keeps P _ hd]

/-- A field that the loss of the control core touches in its partner unit alone. -/
theorem State.coreAbsent_keeps {α : Type} (P : State → α)
    (h : ∀ (t : State) (i : IssueUnit) (c : Ctx) (r : Option Run) (u : TroubleUnit) (p : Vector PageHdr 16),
      P { t with issue := i, ctx := c, trouble := u, pages := p, edging := { t.edging with run := r } } = P t)
    (s : State) : P s.coreAbsent = P (s.modPartner fun p => { p with core := false }) := by
  rw [coreAbsent_eq, State.dropPicots_keeps P h,
    State.endDirWait_keeps P fun t i c r p => h t i c r t.trouble p]

@[simp] theorem coreAbsent_partner (s : State) : s.coreAbsent.partner = { s.partner with core := false } :=
  State.coreAbsent_keeps State.partner (fun _ _ _ _ _ _ => rfl) s

@[simp] theorem coreAbsent_works (s : State) : s.coreAbsent.works = s.works :=
  State.coreAbsent_keeps State.works (fun _ _ _ _ _ _ => rfl) s

/-- No picot is on its way to an absent core. -/
@[simp] theorem coreAbsent_posts (s : State) : s.coreAbsent.issue.posts = [] := rfl

theorem dropPicots_wait (s : State) : s.dropPicots.issue.wait = s.issue.wait :=
  foldl_keeps (fun t : State => t.issue.wait) _
    (fun (t : State) (p : PicotPost) => congrArg IssueUnit.wait (dropPicot_issue t p.stream p.sd)) _ s

theorem StickyKept.modCtx (s : State) (st : Stream) (f : Ctx → Ctx) : StickyKept s (s.modCtx st f) :=
  .of_pages (by cases st <;> rfl)

theorem StickyKept.modIssue (s : State) (f : IssueUnit → IssueUnit) : StickyKept s (s.modIssue f) := .of_pages rfl

theorem StickyKept.dropPicot (s : State) (st : Stream) (sd : BitVec 5) : StickyKept s (s.dropPicot st sd) := by
  unfold State.dropPicot
  exact ((StickyKept.modCtx s st _).trans (.mark _ 1 10 (by decide))).trans (.bump _ _ _)

theorem StickyKept.dropPicots (s : State) : StickyKept s s.dropPicots := by
  have fold : StickyKept s (s.issue.posts.foldl (fun (t : State) p => t.dropPicot p.stream p.sd) s) :=
    .foldl (fun (t : State) (p : PicotPost) => .dropPicot t p.stream p.sd) _ _
  exact fold.trans (.modIssue _ _)

/-- A WAITDIR that waits ends when the core is lost, as its timeout would end it (R285). -/
theorem coreAbsent_endsDir {s : State} {w : Wait} (h : s.issue.wait = some w) (hd : w.kind = .dir) :
    s.coreAbsent.issue.wait = none ∧ (s.coreAbsent.sticky 1).getLsbD 7 = true := by
  have e : (s.modPartner fun p => { p with core := false }).endDirWait =
      ((s.modPartner fun p => { p with core := false }).endWait .main (BitVec.allOnes 64)).mark 1 7 := by
    simp [State.endDirWait, h, hd]
  have hw : (s.modPartner fun p => { p with core := false }).waitOf .main = some w := h
  obtain ⟨hn, -, -⟩ := (State.endWait_goesOn hw (BitVec.allOnes 64)).mark 1 7
  rw [coreAbsent_eq, e]
  exact ⟨(dropPicots_wait _).trans hn, (StickyKept.dropPicots _).marked (by decide) (by decide)⟩

/-! ### A target that is lost under transfers -/

@[simp] theorem loseTarget_partner (s : State) (t : Target) : (s.loseTarget t).partner = s.partner := rfl

@[simp] theorem loseTarget_works (s : State) (t : Target) : (s.loseTarget t).works = s.works := rfl

/-- A transfer whose data has not arrived loses a target that is marked absent (R286). -/
theorem Xfer.lose_loses (x : Xfer) (t : Target) (n : Nat) :
    (x.lose t n).arrived = true ∨ ∃ y ∈ (x.lose t n).lost, y.target = t := by
  unfold Xfer.lose
  split
  · next h =>
    rcases Bool.or_eq_true .. |>.mp h with ha | hl
    · exact .inl ha
    · obtain ⟨y, hy, ht⟩ := List.any_eq_true.mp hl
      exact .inr ⟨y, hy, beq_iff_eq.mp ht⟩
  · exact .inr ⟨⟨t, some n⟩, by simp, rfl⟩

theorem loseTarget_loses (s : State) (t : Target) :
    ∀ x ∈ (s.loseTarget t).xfers, x.arrived = true ∨ ∃ y ∈ x.lost, y.target = t := by
  intro x hx
  obtain ⟨p, -, rfl⟩ := List.mem_map.mp hx
  exact Xfer.lose_loses p.1 t _

/-! ### The start of a roll call -/

/-- The direct port is closed, and a roll call runs on `t` or waits for its turn (R268, R270, R397). -/
def Rolls (s t : State) : Prop :=
  t.partner.coupling.accPortEn = false ∧ t.partner.rollBusy = (s.partner.rollBusy || s.works) ∧
    (s.partner.rollBusy = true ∨ s.works = false → t.partner.rollPending = true)

theorem Rolls.of_partner {s t u : State} (h : Rolls s t) (e : u.partner = t.partner) : Rolls s u := by
  unfold Rolls
  rw [e]
  exact h

@[simp] theorem clearAccPort_works (s : State) : s.clearAccPort.works = s.works := rfl

@[simp] theorem clearAccPort_meSrc (s : State) : s.clearAccPort.partner.coupling.meSrc = s.partner.coupling.meSrc := rfl

theorem clearAccPort_held {s : State} {c : Coupling} (h : s.clearAccPort.partner.couplingHeld = some c) :
    ∃ d, s.partner.couplingHeld = some d ∧ c.meSrc = d.meSrc := by
  obtain ⟨-, hm⟩ := Option.ite_none_left_eq_some.mp h
  obtain ⟨d, hd, rfl⟩ := Option.map_eq_some_iff.mp hm
  exact ⟨d, hd, rfl⟩

/-- A field that the start of a roll call does not touch. -/
theorem State.startRoll_keeps {α : Type} (P : State → α)
    (h : ∀ (t : State) (a b c : Bool) (k : Option Coupling) (l : List Probe),
      P { t with partner := { t.partner with
        coupling := { t.partner.coupling with accPortEn := a }, couplingHeld := k, rollBusy := b, rollPending := c
        probeAbsent := l } } = P t)
    (s : State) : P s.startRoll = P s := by
  have hc : P s.clearAccPort = P s :=
    h s false s.partner.rollBusy s.partner.rollPending _ s.partner.probeAbsent
  unfold State.startRoll
  dsimp only
  split
  · exact (h s.clearAccPort false s.partner.rollBusy true _ s.partner.probeAbsent).trans hc
  · exact (h s.clearAccPort false true s.partner.rollPending _ []).trans hc

theorem startRoll_held {s : State} {c : Coupling} (h : s.startRoll.partner.couplingHeld = some c) :
    ∃ d, s.partner.couplingHeld = some d ∧ c.meSrc = d.meSrc := by
  have e : s.startRoll.partner.couplingHeld = s.clearAccPort.partner.couplingHeld := by
    unfold State.startRoll
    dsimp only
    split <;> rfl
  exact clearAccPort_held (e ▸ h)

theorem startRoll_pages (s : State) : s.startRoll.pages = s.pages :=
  State.startRoll_keeps State.pages (fun _ _ _ _ _ _ => rfl) s

theorem startRoll_issue (s : State) : s.startRoll.issue = s.issue :=
  State.startRoll_keeps State.issue (fun _ _ _ _ _ _ => rfl) s

theorem startRoll_xfers (s : State) : s.startRoll.xfers = s.xfers :=
  State.startRoll_keeps State.xfers (fun _ _ _ _ _ _ => rfl) s

/-- The start of a roll call on a state whose unit neither stands otherwise nor works otherwise than `s`. -/
theorem State.startRoll_rolls {s t : State} (hb : t.partner.rollBusy = s.partner.rollBusy) (hw : t.works = s.works) :
    Rolls s t.startRoll := by
  have hb' : t.clearAccPort.partner.rollBusy = s.partner.rollBusy := hb
  have hw' : t.clearAccPort.works = s.works := hw
  unfold State.startRoll
  dsimp only
  rw [hb', hw']
  split
  · next h =>
    refine ⟨rfl, ?_, fun _ => rfl⟩
    show t.partner.rollBusy = _
    rw [hb]
    cases hr : s.partner.rollBusy <;> simp_all
  · next h =>
    refine ⟨rfl, ?_, ?_⟩
    · show true = _
      simp_all
    · rintro (hr | hr) <;> simp_all

/-! ### The exchange plan -/

/-- From `s` to `t` neither the partners nor the mirror changed, and no sticky bit was cleared. -/
structure PlanFrame (s t : State) : Prop where
  partner : t.partner = s.partner
  mirror : t.mirror = s.mirror
  sticky : StickyKept s t

theorem PlanFrame.refl (s : State) : PlanFrame s s := ⟨rfl, rfl, .refl s⟩

theorem PlanFrame.trans {s t u : State} (h : PlanFrame s t) (k : PlanFrame t u) : PlanFrame s u :=
  ⟨k.partner.trans h.partner, k.mirror.trans h.mirror, h.sticky.trans k.sticky⟩

theorem PlanFrame.modNet (s : State) (f : NetUnit → NetUnit) : PlanFrame s (s.modNet f) := ⟨rfl, rfl, .of_pages rfl⟩

theorem PlanFrame.mark (s : State) (p b : Nat) (hp : p < 16) : PlanFrame s (s.mark p b) := ⟨rfl, rfl, .mark s p b hp⟩

theorem PlanFrame.arrivalEvent (s : State) (a : BitVec 37) (tag : Word) : PlanFrame s (s.arrivalEvent a tag) := by
  unfold State.arrivalEvent
  split
  · exact .refl s
  · next b _ =>
    have event : PlanFrame s
        (if s.trouble.engineDown then s.mark 7 0 else s.addTrigger ⟨b, true, tag, a.zeroExtend 64⟩) := by
      split
      · exact .mark s 7 0 (by decide)
      · exact ⟨rfl, rfl, .of_pages rfl⟩
    dsimp only
    split
    · exact event.trans ⟨rfl, rfl, .of_pages rfl⟩
    · exact event

theorem PlanFrame.planStep (s : State) (n : Nat) : PlanFrame s (s.planStep n) := by
  unfold State.planStep
  dsimp only
  split
  · exact .modNet s _
  · split <;> exact .modNet s _

theorem PlanFrame.releaseNext {s t : State} (h : s.releaseNext = some t) : PlanFrame s t := by
  unfold State.releaseNext at h
  dsimp only at h
  split at h
  · next k x _ =>
    obtain ⟨-, h⟩ := Option.ite_none_left_eq_some.mp h
    cases h
    have released (y : Option Arrival) (a : BitVec 37) (w : Word) : PlanFrame s ((s.setArrival k y).arrivalEvent a w) :=
      (PlanFrame.modNet s _).trans (.arrivalEvent _ a w)
    split
    · exact (released _ _ _).trans (.planStep _ 1)
    · exact released _ _ _
  · obtain ⟨-, h⟩ := Option.ite_none_left_eq_some.mp h
    split at h
    · cases h
      have drawn : PlanFrame s { s with freeCount := s.freeCount + 1 } := ⟨rfl, rfl, .of_pages rfl⟩
      exact ((drawn.trans (.modNet _ _)).trans (.arrivalEvent _ _ _)).trans (.planStep _ 1)
    · cases h
      exact (PlanFrame.modNet s _).trans (.planStep _ _)

theorem PlanFrame.releaseLoop (n : Nat) (s : State) : PlanFrame s (State.releaseLoop n s) := by
  induction n generalizing s with
  | zero => exact .refl s
  | succ n ih =>
    unfold State.releaseLoop
    split
    · next t h => exact (PlanFrame.releaseNext h).trans (ih t)
    · exact .refl s

theorem PlanFrame.foldl {α : Type} {f : State → α → State} (h : ∀ s a, PlanFrame s (f s a)) (l : List α) (s : State) :
    PlanFrame s (l.foldl f s) := by
  induction l generalizing s with
  | nil => exact .refl s
  | cons a l ih => exact (h s a).trans (ih _)

theorem PlanFrame.markMissed (s : State) : PlanFrame s s.markMissed := by
  refine .foldl (fun t p => ?_) _ _
  dsimp only
  split
  · exact .refl t
  · exact (PlanFrame.modNet t _).trans (.mark _ 9 4 (by decide))

/-- What the plan's releases leave. -/
theorem State.runPlan_frame (s : State) : PlanFrame s s.runPlan :=
  (PlanFrame.releaseLoop 112 s).trans (.markMissed _)

end Sys2Proof.Machine
end

section
/-!
SUPPORT. Partner events, reachability notices and roll calls (R266 to R270, R285, R286, R442 to R444). Settles O39.
-/

namespace Sys2Proof.Machine

/-! ### The commands of this family -/

theorem exec_partnerChangeEvent (s : State) (p : Partner) :
    exec (.partnerChangeEvent p) s = .next (s.settle (s.partnerEvent p)) := rfl

theorem exec_reachabilityNotice (s : State) (p : BitVec 15) (on : Bool) :
    exec (.reachabilityNotice p on) s = .next (s.settle (s.reachNotice p on)) := rfl

theorem exec_probeTimeout (s : State) (p : Probe) :
    exec (.probeTimeout p) s = .next (s.settle (s.probeTimeout p)) := rfl

theorem exec_rollCallPublish (s : State) : exec .rollCallPublish s = .next (s.settle s.publish) := rfl

theorem exec_rollcall_of_takes {s : State} {w : Writer} (h : s.takes w 8 = true) :
    exec (.rollcall w) s = .next (s.settle s.rollRequest) := by
  show Host.Outcome.next (s.settle (s.write w 8 State.rollRequest)) = _
  rw [State.write_of_takes h]

/-! ### A partner of the package that is marked absent -/

theorem State.partnerEvent_of_up {s : State} (h : s.up = true) (p : Partner) :
    s.partnerEvent p = (s.markAbsent p).startRoll := by
  simp [State.partnerEvent, h]

theorem State.markAbsent_reported {s : State} {own : Bool} (h : own = s.ownMe) : s.markAbsent (.me own) = s.meAbsent :=
  if_pos h

theorem State.markAbsent_unreported {s : State} {own : Bool} (h : own ≠ s.ownMe) : s.markAbsent (.me own) =
    s.unbindMe fun m => if own then m == 0xFE#8 else m != 0xFE#8 && m != 0xFF#8 := if_neg h

@[simp] theorem markAbsent_works (s : State) (p : Partner) : (s.markAbsent p).works = s.works := by
  cases p with
  | me own =>
    by_cases h : own = s.ownMe
    · rw [State.markAbsent_reported h, meAbsent_works]
    · rw [State.markAbsent_unreported h, unbindMe_works]
  | core => exact coreAbsent_works s
  | sram d => rfl
  | dram => rfl

@[simp] theorem markAbsent_rollBusy (s : State) (p : Partner) :
    (s.markAbsent p).partner.rollBusy = s.partner.rollBusy := by
  cases p with
  | me own =>
    by_cases h : own = s.ownMe
    · rw [State.markAbsent_reported h, meAbsent_partner]; rfl
    · rw [State.markAbsent_unreported h, unbindMe_rollBusy]
  | core => exact (congrArg PartnerUnit.rollBusy (coreAbsent_partner s) :)
  | sram d => rfl
  | dram => rfl

/-- The matrix engine that STATES.ME reports reads absent. -/
theorem markAbsent_me {s : State} {own : Bool} (h : own = s.ownMe) : (s.markAbsent (.me own)).partner.me = false := by
  rw [State.markAbsent_reported h, meAbsent_partner]
  rfl

/-- The own matrix engine, when lost, is bound no longer. -/
theorem markAbsent_own (s : State) : (s.markAbsent (.me true)).partner.coupling.meSrc ≠ 0xFE := by
  have unbound (m : Byte) : (if (m == 0xFE#8) = true then 0xFF#8 else m) ≠ 0xFE#8 := by
    split
    · decide
    · next h => simpa using h
  by_cases h : true = s.ownMe
  · rw [State.markAbsent_reported h, meAbsent_partner, unbindMe_meSrc, ← h]
    exact unbound _
  · rw [State.markAbsent_unreported h, unbindMe_meSrc]
    exact unbound _

/-- A lost foreign matrix engine is named by no held change while the own one is reported (R443). -/
theorem markAbsent_foreign {s : State} (ho : s.ownMe = true) {c : Coupling}
    (h : (s.markAbsent (.me false)).partner.couplingHeld = some c) : c.meSrc = 0xFE ∨ c.meSrc = 0xFF := by
  rw [State.markAbsent_unreported (by simp [ho])] at h
  rcases unbindMe_held h with hc | hc
  · exact .inr hc
  · by_cases hf : c.meSrc = 0xFE#8
    · exact .inl hf
    · exact .inr (by simpa [hf] using hc)

/-! ### Reachability -/

/-- One bit of a map of words set to `on`, every other as before (R442). -/
theorem reachBit_set {m : SMap Word} (h : SMap.wf 0 m = true) (p q : Nat) (on : Bool) :
    let w := m.get 0 (p / 32)
    let bit := BitVec.ofNat 32 (2 ^ (p % 32))
    ((m.set 0 (p / 32) (if on then w ||| bit else w &&& ~~~ bit)).get 0 (q / 32)).getLsbD (q % 32) =
      if q = p then on else (m.get 0 (q / 32)).getLsbD (q % 32) := by
  intro w bit
  have hlt : q % 32 < 32 := Nat.mod_lt _ (by decide)
  have hbit : bit.getLsbD (q % 32) = decide (p % 32 = q % 32) := by
    rw [BitVec.getLsbD_ofNat, Nat.testBit_two_pow]
    simp [hlt]
  rw [SMap.get_set h]
  by_cases hw : q / 32 = p / 32
  · rw [if_pos hw]
    have hq : q = p ↔ p % 32 = q % 32 := by omega
    cases on with
    | true =>
      rw [if_pos rfl, BitVec.getLsbD_or, hbit]
      by_cases he : p % 32 = q % 32 <;> simp [hq, he, hw, w]
    | false =>
      rw [if_neg Bool.false_ne_true, BitVec.getLsbD_and, BitVec.getLsbD_not, hbit]
      by_cases he : p % 32 = q % 32 <;> simp [hq, he, hw, w, hlt]
  · have hq : ¬ q = p := fun e => hw (by rw [e])
    rw [if_neg hw, if_neg hq]

/-- The state with bit `p` of the map set to `on`. -/
def State.setReach (s : State) (p : BitVec 15) (on : Bool) : State :=
  let w := s.partner.reach.get 0 (p.toNat / 32)
  let bit := BitVec.ofNat 32 (2 ^ (p.toNat % 32))
  s.modPartner fun q => { q with reach := q.reach.set 0 (p.toNat / 32) (if on then w ||| bit else w &&& ~~~ bit) }

theorem State.setReach_bit {s : State} (h : SMap.wf 0 s.partner.reach = true) (p q : BitVec 15) (on : Bool) :
    ((s.setReach p on).partner.reach.get 0 (q.toNat / 32)).getLsbD (q.toNat % 32) =
      if q = p then on else (s.partner.reach.get 0 (q.toNat / 32)).getLsbD (q.toNat % 32) := by
  have e : q.toNat = p.toNat ↔ q = p := ⟨BitVec.eq_of_toNat_eq, congrArg _⟩
  have h' := reachBit_set h p.toNat q.toNat on
  simp only [e] at h'
  exact h'

theorem State.canon_reach {s : State} (h : s.canon = true) : SMap.wf 0 s.partner.reach = true := by
  simp only [State.canon, Bool.and_eq_true] at h
  tauto

/-- The package is marked and the records on their way to it go. -/
def State.dropPackage (s : State) (p : BitVec 15) : State :=
  (s.modPartner fun q => { q with marked := p :: q.marked.filter (· != p) }).discardTo p

theorem dropPackage_partner (s : State) (p : BitVec 15) :
    (s.dropPackage p).partner = { s.partner with marked := p :: s.partner.marked.filter (· != p) } :=
  State.discardTo_keeps State.partner (fun _ _ _ _ _ => rfl) _ p

theorem dropPackage_works (s : State) (p : BitVec 15) : (s.dropPackage p).works = s.works :=
  State.discardTo_keeps State.works (fun _ _ _ _ _ => rfl) _ p

theorem buddyAbsent_partner (s : State) :
    s.buddyAbsent.partner = { s.partner with buddy := none, buddyPresent := false } :=
  foldl_keeps State.partner _ (fun t _ => State.mirrorDiscard_keeps State.partner (fun _ _ _ _ _ _ => rfl) t 1) _ _

theorem buddyAbsent_works (s : State) : s.buddyAbsent.works = s.works :=
  foldl_keeps State.works _ (fun t _ => State.mirrorDiscard_keeps State.works (fun _ _ _ _ _ _ => rfl) t 1) _ _

/-- Nothing is queued for a lost buddy. -/
theorem buddyAbsent_queue (s : State) : s.buddyAbsent.mirror.queue = [] :=
  foldl_keeps (fun t : State => t.mirror.queue) _
    (fun t _ => State.mirrorDiscard_keeps (fun t : State => t.mirror.queue) (fun _ _ _ _ _ _ => rfl) t 1) _ _

/-- A notice, by what it leaves to do besides the map's bit: nothing, the plan alone, or an event (R267, R268). -/
theorem State.reachNotice_cases {s : State} (hu : s.up = true) {p : BitVec 15} (hp : p.toNat ≤ 20479) (hs : p ≠ s.package)
    (on : Bool) :
    s.reachNotice p on = s.setReach p on ∨ s.reachNotice p on = (s.setReach p on).runPlan ∨
      s.reachNotice p on = ((s.setReach p on).dropPackage p).startRoll.runPlan ∨
      s.reachNotice p on = ((s.setReach p on).dropPackage p).buddyAbsent.startRoll.runPlan := by
  have hg : ¬ ((!s.up || p.toNat > Config.maxPackage || p = s.package) = true) := by
    simpa [hu, hs, Config.maxPackage] using hp
  unfold State.reachNotice
  rw [if_neg hg]
  dsimp only
  split
  · exact .inl rfl
  · split
    · split
      · exact .inr (.inr (.inr rfl))
      · exact .inr (.inr (.inl rfl))
    · exact .inr (.inl rfl)

/-- The buddy is lost. -/
theorem State.reachNotice_buddy {s : State} (hu : s.up = true) {p : BitVec 15} (hp : p.toNat ≤ 20479) (hs : p ≠ s.package)
    (hb : s.partner.buddy = some p)
    (hw : (s.partner.reach.get 0 (p.toNat / 32)).getLsbD (p.toNat % 32) = true) :
    s.reachNotice p false = ((s.setReach p false).dropPackage p).buddyAbsent.startRoll.runPlan := by
  have hg : ¬ ((!s.up || p.toNat > Config.maxPackage || p = s.package) = true) := by
    simpa [hu, hs, Config.maxPackage] using hp
  unfold State.reachNotice
  rw [if_neg hg]
  dsimp only
  rw [hw, if_neg (by simp), if_pos (by simp [hb]), if_pos (by simp [hb])]
  rfl

theorem State.reachNotice_reach {s : State} (hu : s.up = true) {p : BitVec 15} (hp : p.toNat ≤ 20479) (hs : p ≠ s.package)
    (on : Bool) : (s.reachNotice p on).partner.reach = (s.setReach p on).partner.reach := by
  have roll (t : State) : t.startRoll.partner.reach = t.partner.reach :=
    State.startRoll_keeps (fun t : State => t.partner.reach) (fun _ _ _ _ _ _ => rfl) t
  rcases State.reachNotice_cases hu hp hs on with e | e | e | e
  · rw [e]
  · rw [e, (State.runPlan_frame _).partner]
  · rw [e, (State.runPlan_frame _).partner, roll, dropPackage_partner]
  · rw [e, (State.runPlan_frame _).partner, roll, buddyAbsent_partner, dropPackage_partner]

/-! ### Publication -/

/-- What a roll call publishes (R269, R442). -/
def PartnerUnit.report (p : PartnerUnit) : Word × Bool × Bool × Bool × Bool × Vector Bool 4 × Bool :=
  (p.rollGen, p.rollBusy, p.rollPending, p.me, p.core, p.sram, p.dram)

/-- Who answered its probes, entered in the unit; the pending roll call begins, or waits for the exit from rest. -/
def State.entered (s : State) : State :=
  let gone (p : Probe) : Bool := s.partner.probeAbsent.contains p
  s.modPartner fun q =>
    { q with
      me := !(gone .bobbin && (!s.ownMe || gone .accPort)), core := !gone .core, dram := !gone .dram
      sram := Vector.ofFn fun d : Fin 4 => !gone (.sram (BitVec.ofNat 2 d.val))
      marked := [], rollGen := q.rollGen + 1, rollBusy := q.rollPending && s.works
      rollPending := q.rollPending && !s.works, probeAbsent := [] }

/-- The targets and the port that did not answer are lost. -/
def State.published (s : State) : State :=
  let gone (p : Probe) : Bool := s.partner.probeAbsent.contains p
  let l := s.probeLost.foldl State.loseTarget s.entered
  let a := if gone .accPort && !gone .bobbin then l.clearAccPort else l
  let u := if s.entered.partner.me then a else a.meAbsent
  if gone .core then u.coreAbsent else u

/-- The buddy is present, lost or not bound. -/
def State.checkBuddy (s : State) : State :=
  match s.partner.buddy with
  | some b => if s.reachable b then s.modPartner fun q => { q with buddyPresent := true } else s.buddyAbsent
  | none => s.modPartner fun q => { q with buddyPresent := false }

theorem State.publish_of_busy {s : State} (hu : s.up = true) (hb : s.partner.rollBusy = true) :
    s.publish = (s.published.checkBuddy.mark 8 0).runPlan := by
  unfold State.publish
  rw [if_neg (by simp [hu, hb])]
  rfl

theorem checkBuddy_report (s : State) : s.checkBuddy.partner.report = s.partner.report := by
  unfold State.checkBuddy
  split
  · split
    · rfl
    · rw [buddyAbsent_partner]; rfl
  · rfl

/-- The figures that are entered stay: who is lost reads absent in them already. -/
theorem published_report (s : State) : s.published.partner.report = s.entered.partner.report := by
  have lost : (s.probeLost.foldl State.loseTarget s.entered).partner = s.entered.partner :=
    foldl_keeps State.partner _ loseTarget_partner _ _
  have me (t : State) (h : t.partner.report = s.entered.partner.report) :
      (if s.entered.partner.me then t else t.meAbsent).partner.report = s.entered.partner.report := by
    split
    · exact h
    · next hm =>
      rw [meAbsent_partner, ← h]
      have : t.partner.me = false := by
        rw [Bool.not_eq_true] at hm
        exact (congrArg (·.2.2.2.1) h).trans hm
      simp [PartnerUnit.report, State.unbindMe, State.modPartner, this]
  have core (t : State) (h : t.partner.report = s.entered.partner.report) :
      (if s.partner.probeAbsent.contains .core then t.coreAbsent else t).partner.report = s.entered.partner.report := by
    split
    · next hc =>
      have : t.partner.core = false := by
        refine (congrArg (·.2.2.2.2.1) h).trans ?_
        show (!s.partner.probeAbsent.contains .core) = false
        rw [hc]; rfl
      rw [coreAbsent_partner, ← h]
      simp [PartnerUnit.report, this]
    · exact h
  refine core _ (me _ ?_)
  split
  · rw [← lost]; rfl
  · rw [lost]

/-- A roll call publishes who answered (R268 to R270). -/
theorem publish_report {s : State} (hu : s.up = true) (hb : s.partner.rollBusy = true) :
    s.publish.partner.report = s.entered.partner.report := by
  rw [State.publish_of_busy hu hb, (State.runPlan_frame _).partner, State.mark_partner, checkBuddy_report,
    published_report]

/-! ### What the start of a roll call leaves -/

section

variable (s : State)

theorem startRoll_me : s.startRoll.partner.me = s.partner.me :=
  State.startRoll_keeps (fun t => t.partner.me) (fun _ _ _ _ _ _ => rfl) s

theorem startRoll_meSrc : s.startRoll.partner.coupling.meSrc = s.partner.coupling.meSrc :=
  State.startRoll_keeps (fun t => t.partner.coupling.meSrc) (fun _ _ _ _ _ _ => rfl) s

theorem startRoll_core : s.startRoll.partner.core = s.partner.core :=
  State.startRoll_keeps (fun t => t.partner.core) (fun _ _ _ _ _ _ => rfl) s

theorem startRoll_sram : s.startRoll.partner.sram = s.partner.sram :=
  State.startRoll_keeps (fun t => t.partner.sram) (fun _ _ _ _ _ _ => rfl) s

theorem startRoll_dram : s.startRoll.partner.dram = s.partner.dram :=
  State.startRoll_keeps (fun t => t.partner.dram) (fun _ _ _ _ _ _ => rfl) s

theorem startRoll_buddy : s.startRoll.partner.buddy = s.partner.buddy :=
  State.startRoll_keeps (fun t => t.partner.buddy) (fun _ _ _ _ _ _ => rfl) s

theorem startRoll_mirror : s.startRoll.mirror = s.mirror :=
  State.startRoll_keeps State.mirror (fun _ _ _ _ _ _ => rfl) s

end

/-! ### What an event and a notice leave -/

/-- The state that the event of a partner leaves: the partner marked absent, then a roll call (R269). -/
def State.afterEvent (s : State) (p : Partner) : State := s.settle (s.markAbsent p).startRoll

section

variable (s : State)

theorem afterEvent_rolls (p : Partner) : Rolls s (s.afterEvent p) :=
  (State.startRoll_rolls (markAbsent_rollBusy s p) (markAbsent_works s p)).of_partner (settle_partner s _)

theorem afterEvent_me (own : Bool) : (own = s.ownMe → (s.afterEvent (.me own)).partner.me = false) ∧
    (own = true → (s.afterEvent (.me own)).partner.coupling.meSrc ≠ 0xFE) ∧
    (own = false → s.ownMe = true → ∀ c, (s.afterEvent (.me own)).partner.couplingHeld = some c →
      c.meSrc = 0xFE ∨ c.meSrc = 0xFF) := by
  simp only [State.afterEvent, settle_partner, startRoll_me, startRoll_meSrc]
  refine ⟨markAbsent_me, ?_, ?_⟩
  · rintro rfl
    exact markAbsent_own s
  · rintro rfl ho c hc
    obtain ⟨d, hd, hcd⟩ := startRoll_held hc
    rw [hcd]
    exact markAbsent_foreign ho hd

theorem afterEvent_core : (s.afterEvent .core).partner.core = false ∧ (s.afterEvent .core).issue.posts = [] ∧
    ∀ w, s.issue.wait = some w → w.kind = .dir →
      (s.afterEvent .core).issue.wait = none ∧ ((s.afterEvent .core).sticky 1).getLsbD 7 = true := by
  have sticky : StickyKept s.coreAbsent (s.afterEvent .core) :=
    (StickyKept.of_pages (startRoll_pages _)).trans (.settle s _)
  have issue : (s.afterEvent .core).issue = s.coreAbsent.issue := (settle_issue s _).trans (startRoll_issue _)
  refine ⟨?_, ?_, fun w hw hd => ?_⟩
  · rw [State.afterEvent, settle_partner, startRoll_core]
    exact congrArg PartnerUnit.core (coreAbsent_partner s)
  · rw [issue]
    exact coreAbsent_posts s
  · obtain ⟨hn, h7⟩ := coreAbsent_endsDir hw hd
    exact ⟨by rw [issue, hn], sticky 1 7 h7⟩

theorem afterEvent_sram (d : BitVec 2) : (s.afterEvent (.sram d)).partner.sram[d.toNat]? = some false ∧
    ∀ x ∈ (s.afterEvent (.sram d)).xfers, x.arrived = true ∨ ∃ y ∈ x.lost, y.target = .sram d.toNat := by
  simp only [State.afterEvent, settle_partner, settle_xfers, startRoll_sram, startRoll_xfers]
  exact ⟨by simp [State.markAbsent, d.isLt], loseTarget_loses _ _⟩

theorem afterEvent_dram : (s.afterEvent .dram).partner.dram = false ∧
    ∀ x ∈ (s.afterEvent .dram).xfers, x.arrived = true ∨ ∃ y ∈ x.lost, y.target = .dram := by
  simp only [State.afterEvent, settle_partner, settle_xfers, startRoll_dram, startRoll_xfers]
  exact ⟨rfl, loseTarget_loses _ _⟩

/-- A buddy whose package is reported gone is unbound, its records go, and a roll call follows. -/
theorem reachNotice_unbinds {s : State} (hu : s.up = true) {p : BitVec 15} (hp : p.toNat ≤ 20479) (hs : p ≠ s.package)
    (hb : s.partner.buddy = some p) (hw : (s.partner.reach.get 0 (p.toNat / 32)).getLsbD (p.toNat % 32) = true) :
    (s.reachNotice p false).partner.buddy = none ∧ (s.reachNotice p false).mirror.queue = [] ∧
      Rolls s (s.reachNotice p false) := by
  rw [State.reachNotice_buddy hu hp hs hb hw]
  have plan := State.runPlan_frame ((s.setReach p false).dropPackage p).buddyAbsent.startRoll
  have rolls : Rolls s ((s.setReach p false).dropPackage p).buddyAbsent.startRoll := by
    refine State.startRoll_rolls ?_ ?_
    · rw [buddyAbsent_partner, dropPackage_partner]; rfl
    · rw [buddyAbsent_works, dropPackage_works]; rfl
  refine ⟨?_, ?_, rolls.of_partner plan.partner⟩
  · rw [plan.partner, startRoll_buddy, buddyAbsent_partner]
  · rw [plan.mirror, startRoll_mirror, buddyAbsent_queue]

end

/-- A publication sets its sticky bit. -/
theorem publish_sticky {s : State} (hu : s.up = true) (hb : s.partner.rollBusy = true) :
    (s.publish.sticky 8).getLsbD 0 = true := by
  rw [State.publish_of_busy hu hb]
  exact (State.runPlan_frame _).sticky.marked (by decide) (by decide)

end Sys2Proof.Machine

open Sys2Proof Sys2Proof.Machine

/-- Settles O39: an event by what marking its partner absent leaves, a notice by its cases, a publication by the report
that it enters. -/
theorem partnerEvents : Obligations.PartnerEvents := by
  intro s rolls
  refine ⟨fun hu p => ?_, fun hu hc p on hp hs => ?_, fun hu hb => ⟨fun p => ?_, ?_⟩, fun w ht hw => ?_⟩
  · have he := exec_partnerChangeEvent s p
    rw [State.partnerEvent_of_up hu] at he
    refine ⟨s.afterEvent p, he, afterEvent_rolls s p, ?_⟩
    cases p with
    | me own => exact afterEvent_me s own
    | core => exact afterEvent_core s
    | sram d => exact afterEvent_sram s d
    | dram => exact afterEvent_dram s
  · refine ⟨_, exec_reachabilityNotice s p on, fun q => ?_, ?_⟩
    · rw [settle_partner, State.reachNotice_reach hu hp hs]
      exact State.setReach_bit (State.canon_reach hc) p q on
    · rintro rfl hb hw
      obtain ⟨hn, hq, hr⟩ := reachNotice_unbinds hu hp hs hb hw
      exact ⟨by rw [settle_partner, hn], by rw [settle_mirror, hq], hr.of_partner (settle_partner s _)⟩
  · rw [exec_probeTimeout]
    simp [State.probeTimeout, hu, hb, State.modPartner]
  · have hr := publish_report hu hb
    simp only [PartnerUnit.report, Prod.mk.injEq] at hr
    obtain ⟨hgen, hbusy, hpend, hme, hcore, hsram, hdram⟩ := hr
    refine ⟨_, exec_rollCallPublish s, ?_⟩
    simp only [settle_partner, hgen, hbusy, hpend, hme, hcore, hsram, hdram]
    refine ⟨rfl, rfl, rfl, StickyKept.settle s _ 8 0 (publish_sticky hu hb), rfl, rfl, rfl, fun d => ?_⟩
    simp [State.entered, d.isLt]
  · have he := exec_rollcall_of_takes ht
    rw [State.rollRequest, if_pos hw] at he
    exact ⟨_, he, (State.startRoll_rolls rfl rfl).of_partner (settle_partner s _)⟩
end

section
/-!
SUPPORT. Lists of bytes and words as transfers write and read them: what later writes leave of earlier ones, the words of
a list of bytes, and a sparse image made from a list of words.
-/

namespace Sys2Proof.Machine

/-! ### Writes one after another -/

section

variable {β : Type} (on : β → Bool) (lo : β → Nat) (bs : β → List Byte)

/-- Writes of the elements that `on` names, one after another. -/
def writeAll (l : List β) (m : SMap Byte) : SMap Byte :=
  l.foldl (fun m p => if on p then setBytes m (lo p) (bs p) else m) m

/-- The element writes the byte at `a`. -/
def writesAt (a : Nat) (p : β) : Bool := on p && (lo p ≤ a && a < lo p + (bs p).length)

theorem writeAll_wf (l : List β) {m : SMap Byte} (h : SMap.wf 0 m = true) : SMap.wf 0 (writeAll on lo bs l m) = true := by
  induction l generalizing m with
  | nil => exact h
  | cons p l ih =>
    refine ih (m := if on p then setBytes m (lo p) (bs p) else m) ?_
    split
    · exact setBytes_wf _ _ h
    · exact h

/-- The last element that writes a byte leaves it. -/
theorem get_writeAll (l : List β) {m : SMap Byte} (h : SMap.wf 0 m = true) (a : Nat) :
    (writeAll on lo bs l m).get 0 a =
      ((l.reverse.find? (writesAt on lo bs a)).map fun p => (bs p).getD (a - lo p) 0).getD (m.get 0 a) := by
  induction l generalizing m with
  | nil => rfl
  | cons p l ih =>
    have hm : SMap.wf 0 (if on p then setBytes m (lo p) (bs p) else m) = true := by
      split
      · exact setBytes_wf _ _ h
      · exact h
    have step : (if on p then setBytes m (lo p) (bs p) else m).get 0 a =
        if writesAt on lo bs a p then (bs p).getD (a - lo p) 0 else m.get 0 a := by
      by_cases ho : on p = true
      · rw [if_pos ho, get_setBytes _ _ h]
        simp [writesAt, ho]
      · simp [writesAt, ho]
    refine (ih hm).trans ?_
    rw [step, List.reverse_cons, List.find?_append]
    cases l.reverse.find? (writesAt on lo bs a) with
    | some q => rfl
    | none => by_cases hw : writesAt on lo bs a p = true <;> simp [hw]

/-- A byte that no element writes stays. -/
theorem get_writeAll_none {l : List β} {m : SMap Byte} (h : SMap.wf 0 m = true) {a : Nat}
    (hn : ∀ p ∈ l, writesAt on lo bs a p = false) : (writeAll on lo bs l m).get 0 a = m.get 0 a := by
  rw [get_writeAll on lo bs l h, List.find?_eq_none.mpr]
  · rfl
  · intro p hp
    simp [hn p (List.mem_reverse.mp hp)]

/-- A byte that every element which writes it makes `v`, if some element does. -/
theorem get_writeAll_all {l : List β} {m : SMap Byte} (h : SMap.wf 0 m = true) {a : Nat} {v : Byte} {p : β} (hp : p ∈ l)
    (hw : writesAt on lo bs a p = true)
    (hv : ∀ q ∈ l, writesAt on lo bs a q = true → (bs q).getD (a - lo q) 0 = v) :
    (writeAll on lo bs l m).get 0 a = v := by
  rw [get_writeAll on lo bs l h]
  cases hf : l.reverse.find? (writesAt on lo bs a) with
  | none => exact absurd hw (List.find?_eq_none.mp hf p (List.mem_reverse.mpr hp))
  | some q => exact hv q (List.mem_reverse.mp (List.mem_of_find?_eq_some hf)) (List.find?_some hf)

end

/-! ### Words of bytes -/

theorem pieces_getElem? {α : Type} {n : Nat} (hn : 0 < n) : ∀ (fuel : Nat) (l : List α), l.length ≤ fuel → ∀ k,
    (pieces n fuel l)[k]? = if n * k < l.length then some ((l.drop (n * k)).take n) else none := by
  intro fuel
  induction fuel with
  | zero =>
    intro l hl k
    rw [List.length_eq_zero_iff.mp (Nat.le_zero.mp hl)]
    simp [pieces]
  | succ fuel ih =>
    intro l hl k
    cases l with
    | nil => simp [pieces]
    | cons x l =>
      cases k with
      | zero => simp [pieces]
      | succ k =>
        have hd : ((x :: l).drop n).length ≤ fuel := by
          simp only [List.length_drop, List.length_cons] at hl ⊢
          omega
        have hk : n * k < (x :: l).length - n ↔ n * (k + 1) < (x :: l).length := by
          rw [Nat.mul_succ]
          omega
        rw [pieces, List.getElem?_cons_succ, ih _ hd k, List.length_drop, List.drop_drop]
        · simp only [hk, Nat.mul_succ, Nat.add_comm]
        · simp

theorem cut_getElem? {α : Type} {n : Nat} (hn : 0 < n) (l : List α) (k : Nat) :
    (cut n l)[k]? = if n * k < l.length then some ((l.drop (n * k)).take n) else none :=
  pieces_getElem? hn l.length l (Nat.le_refl _) k

/-- Word `k` of bytes that are given one by one. -/
theorem bytesToWords_map_range (f : Nat → Byte) {n k : Nat} (hk : k < n) :
    (bytesToWords ((List.range (4 * n)).map f)).getD k 0 =
      BitVec.ofNat 32 (leNat ((List.range 4).map fun j => f (4 * k + j))) := by
  have hl : 4 * k < ((List.range (4 * n)).map f).length := by
    simp only [List.length_map, List.length_range]
    omega
  have hb : (((List.range (4 * n)).map f).drop (4 * k)).take 4 = (List.range 4).map fun j => f (4 * k + j) := by
    refine List.ext_getElem? fun j => ?_
    rw [List.getElem?_take, List.getElem?_drop]
    by_cases hj : j < 4
    · have : 4 * k + j < 4 * n := by omega
      simp [hj, this]
    · simp [hj]
  rw [bytesToWords, List.getD_eq_getElem?_getD, List.getElem?_map, cut_getElem? (by decide), if_pos hl, hb]
  rfl

/-! ### A sparse image of words -/

/-- The cells of a list of words from index `n`, zeros left out. -/
def wordCells (l : List (Word × Nat)) : SMap Word := l.foldr (fun p m => if p.1 = 0 then m else (p.2, p.1) :: m) []

theorem get_wordCells (ws : List Word) (n k : Nat) :
    (wordCells (ws.zipIdx n)).get 0 k = if n ≤ k then ws.getD (k - n) 0 else 0 := by
  induction ws generalizing n with
  | nil => simp [wordCells, SMap.get]
  | cons w ws ih =>
    have next : (wordCells (ws.zipIdx (n + 1))).get 0 k = if n + 1 ≤ k then ws.getD (k - (n + 1)) 0 else 0 := ih (n + 1)
    have cell : wordCells ((w :: ws).zipIdx n) =
        if w = 0 then wordCells (ws.zipIdx (n + 1)) else (n, w) :: wordCells (ws.zipIdx (n + 1)) := rfl
    have read : (wordCells ((w :: ws).zipIdx n)).get 0 k = if n = k then w else (wordCells (ws.zipIdx (n + 1))).get 0 k := by
      rw [cell]
      split
      · next hw =>
        split
        · next hk => rw [next, if_neg (by omega), hw]
        · rfl
      · simp only [SMap.get]
        split
        · rfl
        · split
          · rw [next, if_neg (by omega)]
          · rfl
    rw [read, next]
    by_cases hk : n = k
    · simp [hk]
    · rw [if_neg hk]
      by_cases hle : n ≤ k
      · rw [if_pos (by omega), if_pos hle, show k - n = (k - (n + 1)) + 1 by omega, List.getD_cons_succ]
      · rw [if_neg (by omega), if_neg hle]

/-! ### Addresses modulo 2^48 -/

theorem wrap48_add_inj {a i j : Nat} (hi : i < 2 ^ 48) (hj : j < 2 ^ 48) (h : wrap48 (a + i) = wrap48 (a + j)) : i = j := by
  unfold wrap48 at h
  omega

theorem wordsToBytes_length (ws : List Word) : (wordsToBytes ws).length = 4 * ws.length := by
  induction ws with
  | nil => rfl
  | cons w ws ih =>
    have : (wordsToBytes (w :: ws)).length = 4 + (wordsToBytes ws).length := by simp [wordsToBytes]
    rw [this, ih, List.length_cons]
    omega

end Sys2Proof.Machine
end

section
/-!
SUPPORT. What a fabric transfer leaves when it completes: the outstanding transfers, the sticky bits, and for each kind
the bytes, words and slots that it moves (R17, R60, R187, R188, R262, R263, R277 to R279, R285, R286).
-/

namespace Sys2Proof.Machine

/-! ### What the parts of a completion leave -/

/-- From `s` to `t` no transfer left, no byte of fabric memory changed and no sticky bit was cleared. -/
structure XferFrame (s t : State) : Prop where
  xfers : t.xfers = s.xfers
  fabric : t.fabric = s.fabric
  sticky : StickyKept s t

theorem XferFrame.refl (s : State) : XferFrame s s := ⟨rfl, rfl, .refl s⟩

theorem XferFrame.trans {s t u : State} (h : XferFrame s t) (k : XferFrame t u) : XferFrame s u :=
  ⟨k.xfers.trans h.xfers, k.fabric.trans h.fabric, h.sticky.trans k.sticky⟩

theorem XferFrame.foldl {α : Type} {f : State → α → State} (h : ∀ s a, XferFrame s (f s a)) (l : List α) (s : State) :
    XferFrame s (l.foldl f s) := by
  induction l generalizing s with
  | nil => exact .refl s
  | cons a l ih => exact (h s a).trans (ih _)

theorem XferFrame.mark (s : State) (p b : Nat) (hp : p < 16) : XferFrame s (s.mark p b) := ⟨rfl, rfl, .mark s p b hp⟩

theorem XferFrame.markIf (s : State) (c : Bool) (p b : Nat) (hp : p < 16) : XferFrame s (s.markIf c p b) := by
  cases c
  · exact .refl s
  · exact .mark s p b hp

theorem XferFrame.bump (s : State) (c : Ctr) (n : Nat) : XferFrame s (s.bump c n) := ⟨by simp, by simp, .bump s c n⟩

theorem XferFrame.goneOnce (s : State) : XferFrame s s.goneOnce := (XferFrame.mark s 8 1 (by decide)).trans (.bump _ _ _)

theorem XferFrame.noteFabric (s : State) (range gone : Bool) : XferFrame s (s.noteFabric range gone) := by
  have hm := XferFrame.markIf s range 14 1 (by decide)
  unfold State.noteFabric
  dsimp only
  split
  · exact hm.trans (.goneOnce _)
  · exact hm

theorem XferFrame.logDarn (s : State) (k c u : Nat) : XferFrame s (s.logDarn k c u) := by
  unfold State.logDarn
  split
  · exact (XferFrame.mark s 14 11 (by decide)).trans (.bump _ _ _)
  · have logged : XferFrame s { s with trouble := { s.trouble with
        darnLog := s.trouble.darnLog ++ [darnEntry k c u] } } := ⟨rfl, rfl, .of_pages rfl⟩
    exact logged.trans (.mark _ 14 14 (by decide))

theorem XferFrame.settleCap (s t : State) : XferFrame t (State.settleCap s t) := by
  unfold State.settleCap
  split
  · exact .refl t
  · have counted : XferFrame t { t with capGen := t.capGen + 1 } := ⟨rfl, rfl, .of_pages rfl⟩
    exact counted.trans (.mark _ 0 0 (by decide))

theorem XferFrame.setSlot (s : State) (i : Nat) (x : ScaleSlot) : XferFrame s (s.setSlot i x) := ⟨rfl, rfl, .of_pages rfl⟩

theorem XferFrame.slotErr (s : State) (e : EccErr) : XferFrame s (s.slotErr e) := by
  have found : XferFrame s { s with ecc := s.ecc.filter (· != e) } := ⟨rfl, rfl, .of_pages rfl⟩
  unfold State.slotErr
  dsimp only
  split
  · exact found
  · split
    · exact (found.trans (.setSlot _ _ _)).trans (.mark _ 5 4 (by decide))
    · split
      · have spared (t : State) (i : Nat) : XferFrame t (t.spareSlot i) := ⟨rfl, rfl, .of_pages rfl⟩
        exact (((found.trans (spared _ _)).trans (.mark _ 5 4 (by decide))).trans (.logDarn _ _ _ _)).trans (.settleCap _ _)
      · exact (found.trans (.setSlot _ _ _)).trans (.mark _ 5 5 (by decide))

theorem XferFrame.slotErrs (s : State) : XferFrame s s.slotErrs := .foldl .slotErr _ _

theorem XferFrame.dupCheck (s : State) (i : Nat) : XferFrame s (s.dupCheck i) := by
  unfold State.dupCheck
  dsimp only
  split
  · exact .refl s
  · next ps _ =>
    have named (n : BitVec 11) : XferFrame s { s with scale := { s.scale with dupSlot := n } } := ⟨rfl, rfl, .of_pages rfl⟩
    exact (named _).trans (.mark _ 5 1 (by decide))

theorem XferFrame.loadScale (s : State) (ws : List Word) : XferFrame s (s.loadScale ws) := by
  unfold State.loadScale
  split
  · split
    · exact .mark s 5 3 (by decide)
    · refine (XferFrame.foldl (fun t p => ?_) _ s).trans (.foldl (fun t i => .dupCheck t i) _ _)
      split
      · exact .setSlot _ _ _
      · exact .refl t
  · exact .mark s 5 3 (by decide)

theorem XferFrame.setEntry (s : State) (i : Nat) (x : LedgerEntry) : XferFrame s (s.setEntry i x) :=
  ⟨rfl, rfl, .of_pages rfl⟩

theorem XferFrame.setBank (s : State) (k : Nat) (x : Bank) : XferFrame s (s.setBank k x) := ⟨rfl, rfl, .of_pages rfl⟩

theorem XferFrame.mergeRecord (s : State) (first : Nat) (ws : List Word) : XferFrame s (s.mergeRecord first ws) := by
  unfold State.mergeRecord
  dsimp only
  split
  · exact .mark s 7 10 (by decide)
  · split
    · exact (XferFrame.foldl (fun t p => .setEntry t _ _) _ s).trans (.setBank _ _ _)
    · split
      · exact .mark s 7 10 (by decide)
      · split
        · refine ((XferFrame.foldl (fun t p => ?_) _ s).trans (.setBank _ _ _)).trans (.mark _ 7 4 (by decide))
          split
          · exact .setEntry t _ _
          · exact .refl t
        · refine (XferFrame.foldl (fun t p => ?_) _ s).trans (.setBank _ _ _)
          exact (XferFrame.setEntry t _ _).trans (.markIf _ _ 7 4 (by decide))

theorem XferFrame.finishLoad (s : State) (els : List LoadEl) (zeros : List Nat) (range : Bool) (both : List Nat)
    (lost : List LostTarget) (got : Option Nat) : XferFrame s (s.finishLoad els zeros range both lost got) := by
  have moved (m : SMap Byte) (e : List EccErr) (n : Nat) : XferFrame s { s with hoops := m, ecc := e, freeCount := n } :=
    ⟨rfl, rfl, .of_pages rfl⟩
  exact (moved _ _ _).trans (.noteFabric _ _ _)

theorem noteFabric_range (s : State) (gone : Bool) : ((s.noteFabric true gone).sticky 14).getLsbD 1 = true := by
  have marked : StickyKept (s.mark 14 1) (s.noteFabric true gone) := by
    cases gone
    · exact .refl _
    · exact (XferFrame.goneOnce _).sticky
  exact marked.marked (by decide) (by decide)

theorem noteFabric_gone (s : State) (range : Bool) : ((s.noteFabric range true).sticky 8).getLsbD 1 = true :=
  (StickyKept.bump ((s.markIf range 14 1).mark 8 1) .gone 1).marked (by decide) (by decide)

/-- A field that FABRIC_RANGE and GONE do not touch. -/
theorem State.noteFabric_keeps {α : Type} (P : State → α)
    (h : ∀ (t : State) (u : TroubleUnit) (p : Vector PageHdr 16), P { t with trouble := u, pages := p } = P t)
    (s : State) (range gone : Bool) : P (s.noteFabric range gone) = P s := by
  have hm : P (s.markIf range 14 1) = P s := by
    cases range
    · rfl
    · exact h s s.trouble _
  unfold State.noteFabric State.goneOnce
  dsimp only
  split
  · rw [State.bump_keeps P h]
    exact (h (s.markIf range 14 1) (s.markIf range 14 1).trouble _).trans hm
  · exact hm

/-- Popping the oldest transfer counts down the waits of kind 0; the rest stays. -/
theorem State.popXfer_keeps {α : Type} (P : State → α)
    (h : ∀ (t : State) (x : List Xfer) (i : IssueUnit) (r : Option Run),
      P { t with xfers := x, issue := i, edging := { t.edging with run := r } } = P t)
    (s : State) : P s.popXfer = P s := h s _ _ _

/-! ### Stores and loads -/

/-- The elements that a transfer delivers: all of them, or under a time limit those that `got` names (R278). -/
def madeOf (got : Option Nat) (i : Nat) : Bool := (got.map (·.testBit i)).getD true

/-- A completed store leaves what `State.storedByte` says (R60, R285, R286). -/
theorem finishStore_fabric (s : State) (els : List StoreEl) (range : Bool) (lost : List LostTarget) (got : Option Nat)
    (h : SMap.wf 0 s.fabric = true) (a : Nat) : (s.finishStore els range lost got).fabric.get 0 a =
      (s.storedByte els lost (madeOf got) a).getD (s.fabric.get 0 a) := by
  have written : (s.finishStore els range lost got).fabric =
      writeAll (fun p : StoreEl × Nat => s.present lost p.2 p.1.addr p.1.bytes.length && madeOf got p.2)
        (fun p => p.1.addr) (fun p => p.1.bytes) els.zipIdx s.fabric := by
    refine (State.noteFabric_keeps State.fabric (fun _ _ _ => rfl) _ _ _).trans ?_
    cases got <;> rfl
  have same : writesAt (fun p : StoreEl × Nat => s.present lost p.2 p.1.addr p.1.bytes.length && madeOf got p.2)
        (fun p => p.1.addr) (fun p => p.1.bytes) a =
      fun p => p.1.addr ≤ a && a < p.1.addr + p.1.bytes.length && s.present lost p.2 p.1.addr p.1.bytes.length &&
        madeOf got p.2 := by
    funext p
    simp only [writesAt]
    ac_rfl
  rw [written, get_writeAll _ _ _ _ h, same, State.storedByte]
  cases hf : els.zipIdx.reverse.find? _ with
  | none => rfl
  | some p =>
    have hp := List.find?_some hf
    simp only [Bool.and_eq_true, decide_eq_true_eq] at hp
    obtain ⟨⟨⟨hlo, hhi⟩, -⟩, -⟩ := hp
    have hlt : a - p.1.addr < p.1.bytes.length := by omega
    simp [hlt]

@[simp] theorem finishStore_hoops (s : State) (els : List StoreEl) (range : Bool) (lost : List LostTarget)
    (got : Option Nat) : (s.finishStore els range lost got).hoops = s.hoops :=
  State.noteFabric_keeps State.hoops (fun _ _ _ => rfl) _ _ _

@[simp] theorem finishStore_xfers (s : State) (els : List StoreEl) (range : Bool) (lost : List LostTarget)
    (got : Option Nat) : (s.finishStore els range lost got).xfers = s.xfers :=
  State.noteFabric_keeps State.xfers (fun _ _ _ => rfl) _ _ _

theorem StickyKept.finishStore (s : State) (els : List StoreEl) (range : Bool) (lost : List LostTarget)
    (got : Option Nat) : StickyKept s (s.finishStore els range lost got) := by
  have stored (m : SMap Byte) : StickyKept s { s with fabric := m } := .of_pages rfl
  exact (stored _).trans (XferFrame.noteFabric _ _ _).sticky

theorem loadBytes_length (s : State) (x : LoadEl) : (s.loadBytes x).length = (x.bits + 7) / 8 := leBytes_length _ _

/-- What an element of a load brings: its bytes, or zeros where it did not arrive. -/
def State.broughtBytes (s : State) (lost : List LostTarget) (made : Nat → Bool) (p : LoadEl × Nat) : List Byte :=
  if s.loadReach lost p.2 p.1 && made p.2 then s.loadBytes p.1 else List.replicate ((p.1.bits + 7) / 8) 0

theorem broughtBytes_length (s : State) (lost : List LostTarget) (made : Nat → Bool) (p : LoadEl × Nat) :
    (s.broughtBytes lost made p).length = (p.1.bits + 7) / 8 := by
  unfold State.broughtBytes
  split
  · exact loadBytes_length s p.1
  · exact List.length_replicate

/-- The hoops after a load: its elements, then the zeros, then the bytes that two writes name (R137, R279). -/
theorem finishLoad_hoops_eq (s : State) (els : List LoadEl) (zeros : List Nat) (range : Bool) (both : List Nat)
    (lost : List LostTarget) (got : Option Nat) : (s.finishLoad els zeros range both lost got).hoops =
      writeAll (fun _ => true) (fun p : Nat × Nat => s.nameKey p.1) (fun p => [Config.freeClash s.freeCount p.2]) both.zipIdx
        (writeAll (fun _ => true) s.nameKey (fun _ => [0#8]) zeros
          (writeAll (fun _ => true) (fun p : LoadEl × Nat => s.nameKey p.1.dst) (s.broughtBytes lost (madeOf got)) els.zipIdx
            s.hoops)) := by
  refine (State.noteFabric_keeps State.hoops (fun _ _ _ => rfl) _ _ _).trans ?_
  simp only [List.foldl_append, List.foldl_map]
  cases got <;> rfl

/-- A write of one byte reaches its own address alone. -/
theorem writesAt_byte {β : Type} (lo : β → Nat) (b : β → Byte) (a : Nat) (p : β) :
    writesAt (fun _ => true) lo (fun p => [b p]) a p = decide (a = lo p) := by
  simp only [writesAt, Bool.true_and, List.length_singleton, ← Bool.decide_and]
  congr 1
  exact propext (by omega)

/-- A completed load leaves what `State.loadedByte` says, zeros where it names them, and free values alone where two of
its writes meet (R278, R279, R285, R286). -/
theorem finishLoad_hoops (s : State) (els : List LoadEl) (zeros : List Nat) (range : Bool) (both : List Nat)
    (lost : List LostTarget) (got : Option Nat) (h : SMap.wf 0 s.hoops = true) (a : Nat)
    (hb : ∀ d ∈ both, a ≠ s.nameKey d) : (s.finishLoad els zeros range both lost got).hoops.get 0 a =
      if ∃ d ∈ zeros, a = s.nameKey d then 0 else (s.loadedByte els lost (madeOf got) a).getD (s.hoops.get 0 a) := by
  have h1 := writeAll_wf (fun _ => true) (fun p : LoadEl × Nat => s.nameKey p.1.dst)
    (s.broughtBytes lost (madeOf got)) els.zipIdx h
  have h2 := writeAll_wf (fun _ => true) s.nameKey (fun _ => [0#8]) zeros h1
  rw [finishLoad_hoops_eq, get_writeAll_none _ _ _ h2]
  · split
    · next hz =>
      obtain ⟨d, hd, rfl⟩ := hz
      refine get_writeAll_all _ _ _ h1 hd ?_ fun q _ hq => ?_
      · rw [writesAt_byte]
        exact decide_eq_true rfl
      · rw [writesAt_byte] at hq
        simp [of_decide_eq_true hq]
    · next hz =>
      rw [get_writeAll_none _ _ _ h1, get_writeAll _ _ _ _ h]
      · have same : writesAt (fun _ => true) (fun p : LoadEl × Nat => s.nameKey p.1.dst) (s.broughtBytes lost (madeOf got)) a =
            fun p => s.nameKey p.1.dst ≤ a && a < s.nameKey p.1.dst + (p.1.bits + 7) / 8 := by
          funext p
          simp [writesAt, broughtBytes_length]
        rw [same, State.loadedByte]
        congr 2
        funext p
        unfold State.broughtBytes
        split
        · rfl
        · simp [List.getD_eq_getElem?_getD, List.getElem?_replicate]
          split <;> rfl
      · intro d hd
        rw [writesAt_byte]
        exact decide_eq_false fun e => hz ⟨d, hd, e⟩
  · intro p hp
    rw [writesAt_byte]
    exact decide_eq_false (hb p.1 (List.fst_mem_of_mem_zipIdx hp))

end Sys2Proof.Machine
end

section
/-!
SUPPORT. Table images, scale images and ledger records that cross the fabric, and the completion of the oldest transfer
(R114, R187, R188, R211, R262, R263, R278, R279, R285, R286, R373). Settles O33.
-/

namespace Sys2Proof.Machine

/-! ### Bytes of the fabric -/

/-- Byte `j` of a range as a read from `a` gets it: zero where it is not delivered. -/
def State.fabricByte (s : State) (a : Nat) (lost : List LostTarget) (made : Nat → Bool) (j : Nat) : Byte :=
  if s.reach lost (j / 4) (wrap48 (a + j)) = .ok ∧ made (j / 4) = true then s.fabric.get 0 (wrap48 (a + j)) else 0

theorem readFabric_bytes (s : State) (a n : Nat) (lost : List LostTarget) (got : Option Nat) :
    (s.readFabric a n lost got).1 = (List.range n).map (s.fabricByte a lost (madeOf got)) := by
  refine List.map_congr_left fun j _ => ?_
  unfold State.fabricByte
  congr 1
  rw [Bool.and_eq_true, decide_eq_true_eq]
  cases got <;> rfl

/-- A word read from the fabric. -/
theorem readFabric_word (s : State) (a : Nat) (lost : List LostTarget) (got : Option Nat) {n k : Nat} (hk : k < n) :
    (bytesToWords (s.readFabric a (4 * n) lost got).1).getD k 0 =
      BitVec.ofNat 32 (leNat ((List.range 4).map fun j => s.fabricByte a lost (madeOf got) (4 * k + j))) := by
  rw [readFabric_bytes, bytesToWords_map_range _ hk]

/-- A byte written to the fabric lies there where its target takes it: no two bytes of the range share an address. -/
theorem writeFabric_get (s : State) (a : Nat) (bs : List Byte) (lost : List LostTarget) (got : Option Nat)
    (h : SMap.wf 0 s.fabric = true) (hl : bs.length ≤ 2 ^ 48) {j : Nat} (hj : j < bs.length)
    (hr : s.reach lost (j / 4) (wrap48 (a + j)) = .ok) (hm : madeOf got (j / 4) = true) :
    (s.writeFabric a bs lost got).1.fabric.get 0 (wrap48 (a + j)) = bs.getD j 0 := by
  have written : (s.writeFabric a bs lost got).1.fabric =
      writeAll (fun p : Byte × Nat => decide (s.reach lost (p.2 / 4) (wrap48 (a + p.2)) = .ok) && madeOf got (p.2 / 4))
        (fun p => wrap48 (a + p.2)) (fun p => [p.1]) bs.zipIdx s.fabric := by
    cases got <;> rfl
  have hp : (bs[j], j) ∈ bs.zipIdx := by
    rw [List.mem_zipIdx_iff_getElem?]
    exact List.getElem?_eq_getElem hj
  rw [written]
  refine get_writeAll_all _ _ _ h hp ?_ fun q hq hw => ?_
  · simp [writesAt, hr, hm]
  · have hqj := List.mem_zipIdx_iff_getElem?.mp hq
    have hql : q.2 < bs.length := (List.getElem?_eq_some_iff.mp hqj).1
    simp only [writesAt, Bool.and_eq_true, decide_eq_true_eq, List.length_singleton] at hw
    obtain ⟨-, hlo, hhi⟩ := hw
    have e : q.2 = j := wrap48_add_inj (by omega) (by omega) (a := a) (by omega)
    rw [e] at hqj hlo ⊢
    simp [List.getD_eq_getElem?_getD, hqj]

/-! ### Table images -/

theorem XferFrame.takeImage (s : State) (i : Nat) (b : Bool) (ws : List Word) : XferFrame s (s.takeImage i b ws) := by
  unfold State.takeImage
  dsimp only
  split
  · exact .refl s
  · exact ⟨rfl, rfl, .of_pages rfl⟩

theorem MotifSlot.leaf_setLeaf (x : MotifSlot) (b : Bool) (l : Leaf) : (x.setLeaf b l).leaf b = l := by
  cases b <;> rfl

/-- A LOADING leaf takes the words of the image. -/
theorem takeImage_word {s : State} {i : Nat} {b : Bool} (hi : i < 16) (hn : (s.mslot i).isNoLeaf = false)
    (hs : ((s.mslot i).leaf b).state = .loading) (ws : List Word) (k : Nat) :
    (((s.takeImage i b ws).mslot i).leaf b).word k = ws.getD k 0 := by
  unfold State.takeImage
  dsimp only
  rw [if_neg (by simp [hn, hs]), State.mslot_setMslot _ _ _ _ hi, if_pos rfl, MotifSlot.leaf_setLeaf]
  refine (get_wordCells ws 0 k).trans ?_
  simp

/-! ### Scale images and ledger records -/

/-- States that agree in what a fold's steps read agree in it after the fold. -/
theorem foldl_agree {σ α β : Type} (P : σ → β) (f : σ → α → σ) (h : ∀ s t a, P s = P t → P (f s a) = P (f t a)) :
    ∀ (l : List α) (s t : σ), P s = P t → P (l.foldl f s) = P (l.foldl f t)
  | [], _, _, e => e
  | a :: l, s, t, e => foldl_agree P f h l _ _ (h s t a e)

theorem setSlot_scale {s t : State} (h : s.scale = t.scale) (i : Nat) (x : ScaleSlot) :
    (s.setSlot i x).scale = (t.setSlot i x).scale := by
  simp only [State.setSlot, h]

theorem slot_of_scale {s t : State} (h : s.scale = t.scale) (i : Nat) : s.slot i = t.slot i := by
  simp only [State.slot, h]

theorem settleCap_scale (s t : State) : (State.settleCap s t).scale = t.scale := by
  unfold State.settleCap
  split <;> rfl

theorem logDarn_scale (s : State) (k c u : Nat) : (s.logDarn k c u).scale = s.scale := by
  unfold State.logDarn
  split
  · simp
  · rfl

/-- The scale unit after an error of one of its words is found (R189). -/
def ScaleUnit.afterErr (u : ScaleUnit) (e : EccErr) : ScaleUnit :=
  let i := e.word / 2
  let x := u.slots.get ScaleSlot.reset i
  let put (v : ScaleUnit) (y : ScaleSlot) : ScaleUnit := { v with slots := v.slots.set ScaleSlot.reset i y }
  if !e.hard then u
  else if e.word % 2 = 0 then put u { ScaleSlot.reset with pinned := x.pinned }
  else if u.spareFree > 0 then
    put { u with spareFree := u.spareFree - 1
                 spared := if u.spared.contains i then u.spared else u.spared ++ [i] } x.coldKeep
  else put u { x.coldKeep with pinned := true }

theorem slotErr_scale (s : State) (e : EccErr) : (s.slotErr e).scale = s.scale.afterErr e := by
  unfold State.slotErr ScaleUnit.afterErr
  dsimp only
  split
  · rfl
  · split
    · rfl
    · split
      · rw [settleCap_scale, logDarn_scale]
        rfl
      · rfl

theorem slotErrs_scale {s t : State} (h : s.scale = t.scale) (he : s.ecc = t.ecc) :
    s.slotErrs.scale = t.slotErrs.scale := by
  unfold State.slotErrs
  rw [he]
  exact foldl_agree State.scale _ (fun u v e h => by rw [slotErr_scale, slotErr_scale, h]) _ _ _ h

theorem dupCheck_scale {s t : State} (h : s.scale = t.scale) (i : Nat) : (s.dupCheck i).scale = (t.dupCheck i).scale := by
  unfold State.dupCheck
  dsimp only
  rw [h, slot_of_scale h]
  split
  · exact h
  · rfl

/-- What a load of a scale image leaves of the scale unit depends on that unit alone. -/
theorem loadScale_scale {s t : State} (h : s.scale = t.scale) (ws : List Word) :
    (s.loadScale ws).scale = (t.loadScale ws).scale := by
  unfold State.loadScale
  dsimp only
  generalize List.range Config.scaleSlots = slots
  split
  · split
    · exact h
    · refine foldl_agree State.scale _ (fun _ _ i h => dupCheck_scale h i) slots _ _
        (foldl_agree State.scale _ (fun u v p h => ?_) _ _ _ h)
      split
      · rw [slot_of_scale h]
        exact setSlot_scale h _ _
      · exact h
  · exact h

/-- The row ledger: its entries and its banks. -/
def State.ledger (s : State) : SMap LedgerEntry × Vector Bank 2 := (s.edging.entries, s.edging.banks)

@[simp] theorem mark_ledger (s : State) (p b : Nat) : (s.mark p b).ledger = s.ledger := rfl

@[simp] theorem markIf_ledger (s : State) (c : Bool) (p b : Nat) : (s.markIf c p b).ledger = s.ledger := by
  cases c <;> rfl

theorem entry_of_ledger {s t : State} (h : s.ledger = t.ledger) (i : Nat) : s.entry i = t.entry i :=
  congrArg (fun l : SMap LedgerEntry × Vector Bank 2 => l.1.get LedgerEntry.reset i) h

theorem bank_of_ledger {s t : State} (h : s.ledger = t.ledger) (k : Nat) : s.bank k = t.bank k :=
  congrArg (fun l : SMap LedgerEntry × Vector Bank 2 => l.2[k]?.getD Bank.reset) h

theorem setEntry_ledger {s t : State} (h : s.ledger = t.ledger) (i : Nat) (x : LedgerEntry) :
    (s.setEntry i x).ledger = (t.setEntry i x).ledger :=
  congrArg (fun l : SMap LedgerEntry × Vector Bank 2 => (l.1.set LedgerEntry.reset i x, l.2)) h

theorem setBank_ledger {s t : State} (h : s.ledger = t.ledger) (k : Nat) (x : Bank) :
    (s.setBank k x).ledger = (t.setBank k x).ledger :=
  congrArg (fun l : SMap LedgerEntry × Vector Bank 2 => (l.1, l.2.setIfInBounds k x)) h

/-- What a load of a record leaves of the ledger depends on the ledger alone. -/
theorem mergeRecord_ledger {s t : State} (h : s.ledger = t.ledger) (first : Nat) (ws : List Word) :
    (s.mergeRecord first ws).ledger = (t.mergeRecord first ws).ledger := by
  unfold State.mergeRecord
  dsimp only
  rw [bank_of_ledger h]
  split
  · exact h
  · split
    · exact setBank_ledger (foldl_agree State.ledger _
        (fun _ _ (p : Nat × LedgerEntry) h => setEntry_ledger h (first + p.1) p.2) _ _ _ h) _ _
    · split
      · exact h
      · split
        · refine setBank_ledger (foldl_agree State.ledger _ (fun u v p h => ?_) _ _ _ h) _ _
          split
          · rw [entry_of_ledger h]
            exact setEntry_ledger h _ _
          · exact h
        · refine setBank_ledger (foldl_agree State.ledger _ (fun u v p h => ?_) _ _ _ h) _ _
          rw [markIf_ledger, markIf_ledger, entry_of_ledger h]
          exact setEntry_ledger h _ _

theorem scaleImage_of_scale {s t : State} (h : s.scale = t.scale) : s.scaleImage = t.scaleImage := by
  simp only [State.scaleImage, State.slot, h]

theorem scaleImage_length (s : State) : s.scaleImage.length = 4112 := by
  have e : s.scaleImage.length = 16 + Config.scaleSlots * 4 := by
    simp only [State.scaleImage, List.length_append, List.length_flatMap, List.length_cons, List.length_nil,
      List.length_replicate, List.map_const', List.sum_replicate_nat, List.length_range]
  exact e

theorem ledgerRecord_length (s : State) (first : Nat) : (s.ledgerRecord first).length ≤ 528 := by
  simp [State.ledgerRecord, LedgerEntry.words]
  omega

end Sys2Proof.Machine
end

section
/-!
SUPPORT. The completion of the oldest fabric transfer, by its kind (R114, R279, R285, R286, R373). Settles O33.
-/

namespace Sys2Proof.Machine

/-! ### The oldest transfer completes -/

/-- Bytes written to the fabric, with what the transfer reports of them (R17, R285). -/
def State.putFabric (s : State) (a : Nat) (bs : List Byte) (lost : List LostTarget) (got : Option Nat) : State :=
  let r := s.writeFabric a bs lost got
  r.1.noteFabric r.2.1 r.2.2

theorem putFabric_frame (s : State) (a : Nat) (bs : List Byte) (lost : List LostTarget) (got : Option Nat) :
    (s.putFabric a bs lost got).xfers = s.xfers ∧ StickyKept s (s.putFabric a bs lost got) := by
  have hn := XferFrame.noteFabric (s.writeFabric a bs lost got).1 (s.writeFabric a bs lost got).2.1
    (s.writeFabric a bs lost got).2.2
  exact ⟨hn.xfers, fun q n h => hn.sticky q n h⟩

theorem putFabric_fabric (s : State) (a : Nat) (bs : List Byte) (lost : List LostTarget) (got : Option Nat) :
    (s.putFabric a bs lost got).fabric = (s.writeFabric a bs lost got).1.fabric :=
  State.noteFabric_keeps State.fabric (fun _ _ _ => rfl) _ _ _

theorem perform_scst (s : State) (a : Nat) (lost : List LostTarget) (got : Option Nat) :
    s.perform (.scst a) lost got = s.slotErrs.putFabric a (wordsToBytes s.slotErrs.scaleImage) lost got := rfl

theorem perform_lgst (s : State) (n a : Nat) (lost : List LostTarget) (got : Option Nat) :
    s.perform (.lgst n a) lost got = s.putFabric a (wordsToBytes (s.ledgerRecord n)) lost got := rfl

theorem perform_scld (s : State) (a : Nat) (lost : List LostTarget) (got : Option Nat) :
    s.perform (.scld a) lost got =
      (s.slotErrs.noteFabric (s.readFabric a imageBytes lost got).2.1 (s.readFabric a imageBytes lost got).2.2).loadScale
        (bytesToWords (s.readFabric a imageBytes lost got).1) := rfl

theorem perform_lgld (s : State) (n a : Nat) (lost : List LostTarget) (got : Option Nat) :
    s.perform (.lgld n a) lost got =
      (s.noteFabric (s.readFabric a (recordBytes n) lost got).2.1 (s.readFabric a (recordBytes n) lost got).2.2).mergeRecord n
        (bytesToWords (s.readFabric a (recordBytes n) lost got).1) := rfl

/-- A transfer performed leaves the outstanding ones and every sticky bit. -/
theorem perform_frame (s : State) (op : XferOp) (lost : List LostTarget) (got : Option Nat) :
    (s.perform op lost got).xfers = s.xfers ∧ StickyKept s (s.perform op lost got) := by
  cases op with
  | load els zeros range both =>
    have h := XferFrame.finishLoad s els zeros range both lost got
    exact ⟨h.xfers, h.sticky⟩
  | store els range => exact ⟨finishStore_xfers s els range lost got, .finishStore s els range lost got⟩
  | tbld i b a => exact ⟨rfl, .refl s⟩
  | scld a =>
    rw [perform_scld]
    generalize s.readFabric a imageBytes lost got = r
    have h := ((XferFrame.slotErrs s).trans (.noteFabric _ r.2.1 r.2.2)).trans (.loadScale _ (bytesToWords r.1))
    exact ⟨h.xfers, h.sticky⟩
  | scst a =>
    have h := XferFrame.slotErrs s
    obtain ⟨hx, hk⟩ := putFabric_frame s.slotErrs a (wordsToBytes s.slotErrs.scaleImage) lost got
    exact ⟨hx.trans h.xfers, h.sticky.trans hk⟩
  | lgst n a => exact putFabric_frame s a (wordsToBytes (s.ledgerRecord n)) lost got
  | lgld n a =>
    rw [perform_lgld]
    generalize s.readFabric a (recordBytes n) lost got = r
    have h := (XferFrame.noteFabric s r.2.1 r.2.2).trans (.mergeRecord _ n (bytesToWords r.1))
    exact ⟨h.xfers, h.sticky⟩

/-- The oldest transfer may complete: it is not held, and has not arrived already. -/
structure MayComplete (s : State) (x : Xfer) (xs : List Xfer) : Prop where
  head : s.xfers = x :: xs
  fresh : x.arrived = false
  free : s.heldByRetry x = false
  open_ : ∀ i b a, x.op = .tbld i b a → s.darningNow = false

/-- The state that the completion works on: a time limit sets its bit. -/
def State.limited (s : State) (got : Option Nat) : State := s.markIf got.isSome 14 3

theorem State.transferDone_tbld {s : State} {x : Xfer} {xs : List Xfer} (h : MayComplete s x xs) {i : Nat} {b : Bool} {a : Nat}
    (ho : x.op = .tbld i b a) (got : Option Nat) :
    let t := s.limited got
    let r := t.readFabric a (4 * Config.leafWords) x.lost got
    s.transferDone got =
      { (t.noteFabric r.2.1 r.2.2).takeImage i b (bytesToWords r.1) with xfers := { x with arrived := true } :: xs } := by
  unfold State.transferDone
  simp [h.head, ho, h.free, h.fresh, h.open_ i b a ho, State.limited]

theorem State.transferDone_other {s : State} {x : Xfer} {xs : List Xfer} (h : MayComplete s x xs)
    (ho : ∀ i b a, x.op ≠ .tbld i b a) (got : Option Nat) :
    s.transferDone got = ((s.limited got).perform x.op x.lost got).popXfer := by
  obtain ⟨hh, ha, hf, -⟩ := h
  obtain ⟨stream, index, count, op, slabs, arrived, lost⟩ := x
  unfold State.transferDone
  cases op with
  | tbld i b a => exact absurd rfl (ho i b a)
  | _ => simp_all [State.limited]

/-- The oldest transfer leaves, or as a table image awaits its check; the bit of a time limit stays. -/
theorem transferDone_frame {s : State} {x : Xfer} {xs : List Xfer} (h : MayComplete s x xs) (got : Option Nat) :
    StickyKept (s.limited got) (s.transferDone got) ∧
      match x.op with
      | .tbld .. => (s.transferDone got).xfers = { x with arrived := true } :: xs
      | _ => (s.transferDone got).xfers = xs := by
  have hl : (s.limited got).xfers = x :: xs := (XferFrame.markIf s got.isSome 14 3 (by decide)).xfers.trans h.head
  have other (ho : ∀ i b a, x.op ≠ .tbld i b a) :
      StickyKept (s.limited got) (s.transferDone got) ∧ (s.transferDone got).xfers = xs := by
    obtain ⟨hx, hk⟩ := perform_frame (s.limited got) x.op x.lost got
    rw [State.transferDone_other h ho]
    refine ⟨hk.trans (.of_pages rfl), ?_⟩
    show ((s.limited got).perform x.op x.lost got).xfers.tail = xs
    rw [hx, hl]
    rfl
  cases hop : x.op with
  | tbld i b a =>
    rw [State.transferDone_tbld h hop]
    generalize (s.limited got).readFabric a (4 * Config.leafWords) x.lost got = r
    have hk := (XferFrame.noteFabric (s.limited got) r.2.1 r.2.2).trans (.takeImage _ i b (bytesToWords r.1))
    exact ⟨hk.sticky.trans (.of_pages rfl), by simp only [← hop]⟩
  | _ => exact other (by simp [hop])

/-! ### The mark of a time limit changes nothing that a transfer reads or moves -/

section

variable (s : State) (got : Option Nat)

@[simp] theorem limited_hoops : (s.limited got).hoops = s.hoops := by cases got <;> rfl

@[simp] theorem limited_fabric : (s.limited got).fabric = s.fabric := by cases got <;> rfl

@[simp] theorem limited_mslot : (s.limited got).mslot = s.mslot := by cases got <;> rfl

@[simp] theorem limited_nameKey : (s.limited got).nameKey = s.nameKey := by cases got <;> rfl

@[simp] theorem limited_reach : (s.limited got).reach = s.reach := by cases got <;> rfl

@[simp] theorem limited_present : (s.limited got).present = s.present := by cases got <;> rfl

@[simp] theorem limited_loadReach : (s.limited got).loadReach = s.loadReach := by cases got <;> rfl

@[simp] theorem limited_storedByte : (s.limited got).storedByte = s.storedByte := by cases got <;> rfl

@[simp] theorem limited_loadedByte : (s.limited got).loadedByte = s.loadedByte := by cases got <;> rfl

@[simp] theorem limited_readFabric : (s.limited got).readFabric = s.readFabric := by cases got <;> rfl

@[simp] theorem limited_ledgerRecord : (s.limited got).ledgerRecord = s.ledgerRecord := by cases got <;> rfl

@[simp] theorem limited_ledger : (s.limited got).ledger = s.ledger := by cases got <;> rfl

theorem limited_slotErrs_scale : (s.limited got).slotErrs.scale = s.slotErrs.scale :=
  slotErrs_scale (by cases got <;> rfl) (by cases got <;> rfl)

end

theorem slotErrs_reach (s : State) : s.slotErrs.reach = s.reach := by
  have hp : s.slotErrs.partner = s.partner :=
    (congrArg State.partner (State.slotErrs_offLane s) : s.slotErrs.offLane.partner = s.offLane.partner)
  funext lost i a
  simp only [State.reach, State.delivers, State.targetPresent, hp]
  rfl

end Sys2Proof.Machine
end

section
/-!
SUPPORT. What each kind of transfer leaves when it completes (R17, R60, R114, R278, R279, R285, R286, R373).
Settles O33.
-/

namespace Sys2Proof.Machine

/-! ### The sticky bits of loads and stores -/

theorem noteFabric_sticky (s : State) (range gone : Bool) :
    (range = true → ((s.noteFabric range gone).sticky 14).getLsbD 1 = true) ∧
      (gone = true → ((s.noteFabric range gone).sticky 8).getLsbD 1 = true) :=
  ⟨fun hr => hr ▸ noteFabric_range s gone, fun hg => hg ▸ noteFabric_gone s range⟩

theorem finishStore_sticky (s : State) (els : List StoreEl) (range : Bool) (lost : List LostTarget) (got : Option Nat) :
    (range = true → ((s.finishStore els range lost got).sticky 14).getLsbD 1 = true) ∧
      ((∃ p ∈ els.zipIdx, s.present lost p.2 p.1.addr p.1.bytes.length = false) →
        ((s.finishStore els range lost got).sticky 8).getLsbD 1 = true) :=
  (noteFabric_sticky _ _ _).imp_right fun k hg => k (by simpa using hg)

theorem finishLoad_sticky (s : State) (els : List LoadEl) (zeros : List Nat) (range : Bool) (both : List Nat)
    (lost : List LostTarget) (got : Option Nat) :
    (range = true → ((s.finishLoad els zeros range both lost got).sticky 14).getLsbD 1 = true) ∧
      ((∃ p ∈ els.zipIdx, s.loadReach lost p.2 p.1 = false) →
        ((s.finishLoad els zeros range both lost got).sticky 8).getLsbD 1 = true) :=
  (noteFabric_sticky _ _ _).imp_right fun k hg => k (by simpa using hg)

/-! ### What a completed transfer leaves, by its kind -/


section

variable {s : State} {x : Xfer} {xs : List Xfer} (h : MayComplete s x xs) (got : Option Nat)

include h

theorem transferDone_store {els : List StoreEl} {range : Bool} (ho : x.op = .store els range)
    (hw : SMap.wf 0 s.fabric = true) :
    (s.transferDone got).hoops = s.hoops ∧
      (∀ a, (s.transferDone got).fabric.get 0 a = (s.storedByte els x.lost (madeOf got) a).getD (s.fabric.get 0 a)) ∧
      (range = true → ((s.transferDone got).sticky 14).getLsbD 1 = true) ∧
      ((∃ p ∈ els.zipIdx, s.present x.lost p.2 p.1.addr p.1.bytes.length = false) →
        ((s.transferDone got).sticky 8).getLsbD 1 = true) := by
  have done : s.transferDone got = ((s.limited got).finishStore els range x.lost got).popXfer := by
    rw [State.transferDone_other h (by simp [ho]), ho]
    rfl
  have hf := finishStore_fabric (s.limited got) els range x.lost got (by simpa using hw)
  have hs := finishStore_sticky (s.limited got) els range x.lost got
  have hh := finishStore_hoops (s.limited got) els range x.lost got
  simp only [limited_fabric, limited_storedByte, limited_present, limited_hoops] at hf hs hh
  rw [done]
  exact ⟨hh, hf, hs⟩

theorem transferDone_load {els : List LoadEl} {zeros : List Nat} {range : Bool} {both : List Nat}
    (ho : x.op = .load els zeros range both) (hw : SMap.wf 0 s.hoops = true) :
    (s.transferDone got).fabric = s.fabric ∧
      (∀ a, (∀ d ∈ both, a ≠ s.nameKey d) → (s.transferDone got).hoops.get 0 a =
        if ∃ d ∈ zeros, a = s.nameKey d then 0
        else (s.loadedByte els x.lost (madeOf got) a).getD (s.hoops.get 0 a)) ∧
      (range = true → ((s.transferDone got).sticky 14).getLsbD 1 = true) ∧
      ((∃ p ∈ els.zipIdx, s.loadReach x.lost p.2 p.1 = false) →
        ((s.transferDone got).sticky 8).getLsbD 1 = true) := by
  have done : s.transferDone got = ((s.limited got).finishLoad els zeros range both x.lost got).popXfer := by
    rw [State.transferDone_other h (by simp [ho]), ho]
    rfl
  have hf := (XferFrame.finishLoad (s.limited got) els zeros range both x.lost got).fabric
  have hs := finishLoad_sticky (s.limited got) els zeros range both x.lost got
  have hh := finishLoad_hoops (s.limited got) els zeros range both x.lost got (by simpa using hw)
  simp only [limited_fabric, limited_loadedByte, limited_loadReach, limited_hoops, limited_nameKey] at hf hs hh
  rw [done]
  exact ⟨hf, hh, hs⟩

/-- Bytes written by a transfer that writes a whole image: each lies where its target takes it. -/
theorem transferDone_image {t : State} {a : Nat} {bs : List Byte} (ho : ∀ i b a, x.op ≠ .tbld i b a)
    (hp : (s.limited got).perform x.op x.lost got = t.putFabric a bs x.lost got) (hr : t.reach = s.reach)
    (hw : SMap.wf 0 t.fabric = true) (hl : bs.length ≤ 2 ^ 48) {j : Nat} (hj : j < bs.length)
    (hok : s.reach x.lost (j / 4) (wrap48 (a + j)) = .ok) (hm : madeOf got (j / 4) = true) :
    (s.transferDone got).fabric.get 0 (wrap48 (a + j)) = bs.getD j 0 := by
  rw [State.transferDone_other h ho, hp]
  refine (congrArg (fun m : SMap Byte => m.get 0 (wrap48 (a + j))) (putFabric_fabric t a bs x.lost got)).trans ?_
  exact writeFabric_get t a bs x.lost got hw hl hj (by rw [hr]; exact hok) hm

theorem transferDone_scst {a : Nat} (ho : x.op = .scst a) (hw : SMap.wf 0 s.fabric = true) {j : Nat}
    (hj : j < (wordsToBytes s.slotErrs.scaleImage).length)
    (hok : s.reach x.lost (j / 4) (wrap48 (a + j)) = .ok) (hm : madeOf got (j / 4) = true) :
    (s.transferDone got).fabric.get 0 (wrap48 (a + j)) = (wordsToBytes s.slotErrs.scaleImage).getD j 0 := by
  have same := scaleImage_of_scale (limited_slotErrs_scale s got)
  have len := wordsToBytes_length s.slotErrs.scaleImage
  rw [scaleImage_length] at len
  refine transferDone_image h got (t := (s.limited got).slotErrs) (by simp [ho]) ?_ ?_ ?_ (by omega) hj hok hm
  · rw [ho, perform_scst, same]
  · rw [slotErrs_reach, limited_reach]
  · rw [(XferFrame.slotErrs _).fabric, limited_fabric]
    exact hw

theorem transferDone_lgst {n a : Nat} (ho : x.op = .lgst n a) (hw : SMap.wf 0 s.fabric = true) {j : Nat}
    (hj : j < (wordsToBytes (s.ledgerRecord n)).length)
    (hok : s.reach x.lost (j / 4) (wrap48 (a + j)) = .ok) (hm : madeOf got (j / 4) = true) :
    (s.transferDone got).fabric.get 0 (wrap48 (a + j)) = (wordsToBytes (s.ledgerRecord n)).getD j 0 := by
  have len := wordsToBytes_length (s.ledgerRecord n)
  have bound := ledgerRecord_length s n
  refine transferDone_image h got (t := s.limited got) (by simp [ho]) ?_ ?_ ?_ (by omega) hj hok hm
  · rw [ho, perform_lgst, limited_ledgerRecord]
  · exact limited_reach s got
  · rw [limited_fabric]
    exact hw

theorem transferDone_scld {a : Nat} (ho : x.op = .scld a) :
    (s.transferDone got).scale =
        (s.slotErrs.loadScale (bytesToWords (s.readFabric a imageBytes x.lost got).1)).scale ∧
      (s.transferDone got).fabric = s.fabric := by
  rw [State.transferDone_other h (by simp [ho]), ho, perform_scld, limited_readFabric]
  generalize s.readFabric a imageBytes x.lost got = r
  constructor
  · refine (State.popXfer_keeps State.scale (fun _ _ _ _ => rfl) _).trans (loadScale_scale ?_ _)
    rw [State.noteFabric_keeps State.scale fun _ _ _ => rfl]
    exact limited_slotErrs_scale s got
  · have hf := (((XferFrame.slotErrs (s.limited got)).trans (.noteFabric _ r.2.1 r.2.2)).trans
      (.loadScale _ (bytesToWords r.1))).fabric
    exact (State.popXfer_keeps State.fabric (fun _ _ _ _ => rfl) _).trans (hf.trans (limited_fabric s got))

theorem transferDone_lgld {n a : Nat} (ho : x.op = .lgld n a) :
    (s.transferDone got).ledger =
        (s.mergeRecord n (bytesToWords (s.readFabric a (recordBytes n) x.lost got).1)).ledger ∧
      (s.transferDone got).fabric = s.fabric := by
  rw [State.transferDone_other h (by simp [ho]), ho, perform_lgld, limited_readFabric]
  generalize s.readFabric a (recordBytes n) x.lost got = r
  constructor
  · refine (State.popXfer_keeps State.ledger (fun _ _ _ _ => rfl) _).trans (mergeRecord_ledger ?_ n _)
    rw [State.noteFabric_keeps State.ledger fun _ _ _ => rfl, limited_ledger]
  · have hf := ((XferFrame.noteFabric (s.limited got) r.2.1 r.2.2).trans (.mergeRecord _ n (bytesToWords r.1))).fabric
    exact (State.popXfer_keeps State.fabric (fun _ _ _ _ => rfl) _).trans (hf.trans (limited_fabric s got))

theorem transferDone_word {i : Nat} {b : Bool} {a : Nat} (ho : x.op = .tbld i b a) (hi : i < 16)
    (hn : (s.mslot i).isNoLeaf = false) (hs : ((s.mslot i).leaf b).state = .loading) {k : Nat} (hk : k < 2192) :
    (((s.transferDone got).mslot i).leaf b).word k = BitVec.ofNat 32 (leNat ((List.range 4).map fun j =>
      s.fabricByte a x.lost (madeOf got) (4 * k + j))) := by
  rw [State.transferDone_tbld h ho, limited_readFabric]
  have read := readFabric_word s a x.lost got (n := Config.leafWords) (k := k) hk
  generalize s.readFabric a (4 * Config.leafWords) x.lost got = r at read ⊢
  have slot : ((s.limited got).noteFabric r.2.1 r.2.2).mslot = s.mslot :=
    (State.noteFabric_keeps State.mslot (fun _ _ _ => rfl) _ _ _).trans (limited_mslot s got)
  rw [← read, ← takeImage_word hi (by rw [slot]; exact hn) (by rw [slot]; exact hs) _ k]
  rfl

end

/-- A byte of word `k` of a range, as a read gets it. -/
theorem fabricByte_word (s : State) (a : Nat) (lost : List LostTarget) (made : Nat → Bool) (k : Nat) {j : Nat} (hj : j < 4) :
    s.fabricByte a lost made (4 * k + j) =
      if s.reach lost k (wrap48 (a + (4 * k + j))) = .ok ∧ made k = true then
        s.fabric.get 0 (wrap48 (a + (4 * k + j))) else 0 := by
  have hk : (4 * k + j) / 4 = k := by omega
  simp only [State.fabricByte, hk, Nat.cast_add, Nat.cast_mul, Nat.cast_ofNat]

end Sys2Proof.Machine

open Sys2Proof Sys2Proof.Machine

/-- Settles O33. Every kind of transfer has its own lemma of what it leaves; the sticky bit of the time limit is set
before and kept by all that follows. -/
theorem transferDone : Obligations.TransferDone := by
  intro s x xs c got hcanon hx ha hr hd hc made image
  have hexec : exec c s = .next (s.settle (s.transferDone got)) := by
    obtain ⟨rfl, rfl⟩ | ⟨n, rfl, rfl⟩ := hc <;> rfl
  have h : MayComplete s x xs := ⟨hx, ha, hr, hd⟩
  have hwf : SMap.wf 0 s.hoops = true ∧ SMap.wf 0 s.fabric = true := by
    simp only [State.canon, Bool.and_eq_true] at hcanon
    tauto
  obtain ⟨hwh, hwm⟩ := hwf
  obtain ⟨hk, hfr⟩ := transferDone_frame h got
  have hset := StickyKept.settle s (s.transferDone got)
  refine ⟨_, hexec, fun hg => ?_, ?_, ?_⟩
  · obtain ⟨n, rfl⟩ := Option.ne_none_iff_exists'.mp hg
    exact (hk.trans hset).marked (by decide) (by decide)
  · rw [settle_xfers]
    exact hfr
  · cases ho : x.op with
    | store els range =>
      obtain ⟨h1, h2, h3, h4⟩ := transferDone_store h got ho hwm
      rw [settle_hoops, settle_fabric]
      exact ⟨h1, h2, fun hr => hset _ _ (h3 hr), fun hg => hset _ _ (h4 hg)⟩
    | load els zeros range both =>
      obtain ⟨h1, h2, h3, h4⟩ := transferDone_load h got ho hwh
      rw [settle_hoops, settle_fabric]
      exact ⟨h1, h2, fun hr => hset _ _ (h3 hr), fun hg => hset _ _ (h4 hg)⟩
    | tbld i b a =>
      intro hi hn hs k hk
      have word := transferDone_word h got ho hi hn hs hk
      simp only [State.mslot, settle_motif] at word ⊢
      rw [word]
      congr 2
      exact List.map_congr_left fun j hj => fabricByte_word s a x.lost made k (List.mem_range.mp hj)
    | scst a =>
      intro j hj hok hm
      rw [settle_fabric]
      exact transferDone_scst h got ho hwm hj hok hm
    | lgst n a =>
      intro j hj hok hm
      rw [settle_fabric]
      exact transferDone_lgst h got ho hwm hj hok hm
    | scld a =>
      obtain ⟨hsc, hf⟩ := transferDone_scld h got ho
      exact ⟨by rw [settle_scale, hsc], by rw [settle_fabric, hf]⟩
    | lgld n a =>
      obtain ⟨hl, hf⟩ := transferDone_lgld h got ho
      rw [settle_edging_entries, settle_edging_banks, settle_fabric]
      exact ⟨congrArg Prod.fst hl, congrArg Prod.snd hl, hf⟩
end

section
/-!
SUPPORT. What the vector slots leave of the network port, the mirror and the count of discarded records: everything,
but for the mirror records of an UPD, which RCOUNT and MSEQ count alike (R285, R296, R310). Settles O18.
-/

namespace Sys2Proof.Machine

/-- The network port, the mirror and SEND_DISCARD. -/
def State.outgoing (s : State) : NetUnit × MirrorUnit × Nat := (s.net, s.mirror, s.counter .sendDiscard)

/-! ### Operations on the state -/

@[simp] theorem mark_outgoing (s : State) (p b : Nat) : (s.mark p b).outgoing = s.outgoing := rfl

@[simp] theorem markIf_outgoing (s : State) (c : Bool) (p b : Nat) : (s.markIf c p b).outgoing = s.outgoing := by
  cases c <;> rfl

theorem bump_outgoing (s : State) {c : Ctr} (n : Nat) (h : c.index < 19) : (s.bump c n).outgoing = s.outgoing := by
  have hc : (s.bump c n).counter .sendDiscard = s.counter .sendDiscard := by
    rw [State.counter_bump _ _ _ _ (by omega), if_neg fun e => (show c.index ≠ 19 by omega) e.1]
  simp only [State.outgoing, hc, State.bump_net, State.bump_mirror]

@[simp] theorem guardRaise_outgoing (s : State) : s.guardRaise.outgoing = s.outgoing := by
  unfold State.guardRaise
  split
  · rfl
  · split <;> rfl

theorem raise_outgoing_of_lt (s : State) {k : Nat} (r : Raises) (h : k < 4) : (s.raise k r).outgoing = s.outgoing := by
  unfold State.raise
  dsimp only
  have counted (t : State) (m n : Nat) : ((t.bump (.sat k) m).bump (.vanish k) n).outgoing = t.outgoing := by
    rw [bump_outgoing, bump_outgoing] <;> simp only [Ctr.index] <;> omega
  split
  · rw [guardRaise_outgoing, counted]
    rfl
  · rw [counted]
    rfl

/-- Every rounding class is one of four. -/
@[simp] theorem raise_outgoing (s : State) (k : BitVec 2) (r : Raises) : (s.raise k.toNat r).outgoing = s.outgoing :=
  raise_outgoing_of_lt s r k.isLt

@[simp] theorem setMask_outgoing (s : State) (k : Nat) (m : BitVec 4096) : (s.setMask k m).outgoing = s.outgoing := by
  unfold State.setMask
  split <;> rfl

@[simp] theorem writeTo_outgoing (s t : State) (st : Stream) (f : BitVec 8) (w : Nat) (vals : List (Option Nat)) :
    (writeTo s t st f w vals).outgoing = t.outgoing := by
  unfold writeTo
  dsimp only
  split
  · rfl
  · refine foldl_keeps State.outgoing _ (fun u p => ?_) _ _
    split <;> rfl

@[simp] theorem setSlot_outgoing (s : State) (i : Nat) (x : ScaleSlot) : (s.setSlot i x).outgoing = s.outgoing := rfl

theorem logDarn_outgoing (s : State) (k c u : Nat) : (s.logDarn k c u).outgoing = s.outgoing := by
  unfold State.logDarn
  split
  · rw [bump_outgoing _ _ (by decide), mark_outgoing]
  · rfl

theorem settleCap_outgoing (s t : State) : (State.settleCap s t).outgoing = t.outgoing := by
  unfold State.settleCap
  split <;> rfl

theorem slotErr_outgoing (s : State) (e : EccErr) : (s.slotErr e).outgoing = s.outgoing := by
  unfold State.slotErr
  dsimp only
  split
  · rfl
  · split
    · rfl
    · split
      · rw [settleCap_outgoing, logDarn_outgoing]
        rfl
      · rfl

@[simp] theorem slotErrs_outgoing (s : State) : s.slotErrs.outgoing = s.outgoing :=
  foldl_keeps State.outgoing _ slotErr_outgoing _ _

@[simp] theorem putSlab_outgoing (e : Env) (t : State) (f : BitVec 8) (bs : List Byte) :
    (e.putSlab t f bs).outgoing = t.outgoing := by
  unfold Env.putSlab
  dsimp only
  split <;> rfl

@[simp] theorem putResiduals_outgoing (e : Env) (t : State) (l : List (Option Nat)) :
    (e.putResiduals t l).outgoing = t.outgoing := by
  unfold Env.putResiduals
  dsimp only
  split
  · exact writeTo_outgoing _ _ _ _ _ _
  · simp

/-! ### The vector slots but UPD -/

@[simp] theorem chainEffect_outgoing (e : Env) (t : State) : (chainEffect e t).outgoing = t.outgoing := by
  unfold chainEffect
  dsimp only
  repeat' split
  all_goals simp

@[simp] theorem emptySlot_outgoing (e : Env) (t : State) (a : List Bool) (g : List (Res Nat)) :
    (emptySlot e t a g).outgoing = t.outgoing := by simp [emptySlot]

@[simp] theorem finishFunc_outgoing (e : Env) (t : State) (a : List Bool) (o g : List (Res Nat)) :
    (finishFunc e t a o g).outgoing = t.outgoing := by
  unfold finishFunc
  dsimp only
  split <;> simp

@[simp] theorem funcEffect_outgoing (e : Env) (t : State) : (funcEffect e t).outgoing = t.outgoing := by
  unfold funcEffect
  dsimp only
  repeat' split
  all_goals simp

@[simp] theorem gactEffect_outgoing (e : Env) (t : State) : (gactEffect e t).outgoing = t.outgoing := by
  unfold gactEffect
  dsimp only
  repeat' split
  all_goals simp

@[simp] theorem scaleExp_outgoing (e : Env) (t : State) : (e.scaleExp t).2.outgoing = t.outgoing := by
  unfold Env.scaleExp
  dsimp only
  repeat' split
  all_goals simp
  all_goals rfl

@[simp] theorem cvtPlain_outgoing (e : Env) (t : State) : (cvtPlain e t).outgoing = t.outgoing := by
  unfold cvtPlain
  dsimp only
  repeat' split
  all_goals simp

@[simp] theorem cvtToMx_outgoing (e : Env) (t : State) (mt : MxElt) : (cvtToMx e t mt).outgoing = t.outgoing := by
  unfold cvtToMx
  dsimp only
  split
  · simp only [raise_outgoing, writeTo_outgoing]
    exact writeTo_outgoing _ _ _ _ _ _
  · simp

@[simp] theorem cvtEffect_outgoing (e : Env) (t : State) : (cvtEffect e t).outgoing = t.outgoing := by
  unfold cvtEffect
  repeat' split
  all_goals simp

@[simp] theorem redEffect_outgoing (e : Env) (t : State) : (redEffect e t).outgoing = t.outgoing := by
  unfold redEffect
  dsimp only
  repeat' split
  all_goals simp

@[simp] theorem scanFinish_outgoing (e : Env) (t : State) (cf : CF) (op : Nat) (a : List Bool) (r : Raises)
    (y : Res (List (Option Lane) × Option Lane)) : (scanFinish e t cf op a r y).outgoing = t.outgoing := by
  unfold scanFinish
  dsimp only
  rw [raise_outgoing]
  exact writeTo_outgoing _ _ _ _ _ _

@[simp] theorem scanEffect_outgoing (e : Env) (t : State) : (scanEffect e t).outgoing = t.outgoing := by
  unfold scanEffect
  dsimp only
  split <;> simp

@[simp] theorem lscanEffect_outgoing (e : Env) (t : State) : (lscanEffect e t).outgoing = t.outgoing := by
  unfold lscanEffect
  dsimp only
  split <;> simp

@[simp] theorem moveBy_outgoing (e : Env) (t : State) (l : List Nat) : (moveBy e t l).outgoing = t.outgoing := by
  unfold moveBy
  dsimp only
  rw [raise_outgoing, bump_outgoing (c := .perm) _ _ (by decide), markIf_outgoing, writeTo_outgoing]

@[simp] theorem permEffect_outgoing (e : Env) (t : State) : (permEffect e t).outgoing = t.outgoing := by
  unfold permEffect
  split <;> simp

@[simp] theorem xposeEffect_outgoing (e : Env) (t : State) : (xposeEffect e t).outgoing = t.outgoing := by
  unfold xposeEffect
  dsimp only
  split <;> simp

@[simp] theorem cprsEffect_outgoing (e : Env) (t : State) : (cprsEffect e t).outgoing = t.outgoing := by
  unfold cprsEffect
  dsimp only
  split <;> simp

@[simp] theorem expdEffect_outgoing (e : Env) (t : State) : (expdEffect e t).outgoing = t.outgoing := by
  unfold expdEffect
  dsimp only
  split <;> simp

@[simp] theorem tselEffect_outgoing (e : Env) (t : State) : (tselEffect e t).outgoing = t.outgoing := by
  unfold tselEffect
  dsimp only
  split <;> simp

@[simp] theorem gcmpEffect_outgoing (e : Env) (t : State) : (gcmpEffect e t).outgoing = t.outgoing := by
  have counted (u : State) (n : Nat) : (u.bump .gcmpOvf n).outgoing = u.outgoing := bump_outgoing u n (by decide)
  unfold gcmpEffect gcmpTopk gcmpSign
  dsimp only
  repeat' split
  all_goals simp only [counted, raise_outgoing, markIf_outgoing, setMask_outgoing, putResiduals_outgoing,
    putSlab_outgoing]

@[simp] theorem gdecEffect_outgoing (e : Env) (t : State) : (gdecEffect e t).outgoing = t.outgoing := by
  unfold gdecEffect State.raiseNv
  dsimp only
  repeat' split
  all_goals simp

theorem v1Effect_outgoing {e : Env} (t : State) (h : e.b.v1.major ≠ 14) : (v1Effect e t).outgoing = t.outgoing := by
  have hn : e.b.v1.major.toNat ≠ 14 := fun k => h (BitVec.eq_of_toNat_eq k)
  unfold v1Effect
  split
  case h_14 hk => exact absurd hk hn
  all_goals simp

/-! ### UPD -/

/-- RCOUNT counts the mirror records that are discarded, as MSEQ does (R296). -/
def State.unmirrored (s : State) : Word := s.net.rcount - s.mirror.mseq

theorem unmirrored_of_outgoing {s t : State} (h : s.outgoing = t.outgoing) : s.unmirrored = t.unmirrored :=
  congrArg (fun o : NetUnit × MirrorUnit × Nat => o.1.rcount - o.2.1.mseq) h

theorem mirrorDiscard_unmirrored (s : State) (n : Nat) : (s.mirrorDiscard n).unmirrored = s.unmirrored := by
  unfold State.mirrorDiscard
  dsimp only
  rw [unmirrored_of_outgoing (markIf_outgoing _ _ _ _)]
  simp only [State.unmirrored, State.bump_net, State.bump_mirror, State.goneOnce, State.mark, State.setPage]
  exact add_sub_add_right_eq_sub _ _ _

theorem mirrorPush_unmirrored (s : State) (l : List MirrorRec) : (s.mirrorPush l).unmirrored = s.unmirrored := by
  unfold State.mirrorPush
  split
  · rfl
  · exact mirrorDiscard_unmirrored s _

theorem pushDesc_unmirrored (s : State) (d : List Word) : (s.pushDesc d).unmirrored = s.unmirrored := by
  unfold State.pushDesc State.sendDesc
  dsimp only
  split
  · split
    · rfl
    · rw [mirrorPush_unmirrored]
      rfl
  · rfl

theorem updMirror_unmirrored (e : Env) (t : State) (l : List Word) : (updMirror e t l).unmirrored = t.unmirrored := by
  unfold updMirror
  dsimp only
  rw [pushDesc_unmirrored]
  exact mirrorPush_unmirrored t _

theorem updEffect_unmirrored (e : Env) (t : State) : (updEffect e t).unmirrored = t.unmirrored := by
  unfold updEffect updRun
  dsimp only
  split
  · rfl
  · split
    · rw [updMirror_unmirrored]
      refine unmirrored_of_outgoing ?_
      rw [raise_outgoing_of_lt _ _ (by decide), markIf_outgoing, bump_outgoing (c := .updNan) _ _ (by decide)]
      split <;> simp
    · exact unmirrored_of_outgoing ((mark_outgoing _ _ _).trans (bump_outgoing _ _ (by decide)))
    · exact unmirrored_of_outgoing ((mark_outgoing _ _ _).trans (bump_outgoing _ _ (by decide)))

/-- Every vector slot counts in RCOUNT the mirror records that it discards, and no other. -/
theorem v1Effect_unmirrored (e : Env) (t : State) : (v1Effect e t).unmirrored = t.unmirrored := by
  by_cases h : e.b.v1.major = 14
  · unfold v1Effect
    rw [h]
    exact updEffect_unmirrored e t
  · exact unmirrored_of_outgoing (v1Effect_outgoing t h)

end Sys2Proof.Machine
end

section
/-!
SUPPORT. What the S slot leaves of the network port, the mirror, the count of discarded records and the sticky bits, and
the execution of a bundle whose M slot is NSEND. Settles O18.
-/

namespace Sys2Proof.Machine

/-! ### The S slot -/

/-- From `s` to `t` the port, the mirror and SEND_DISCARD stay, and no sticky bit was cleared. -/
structure OutgoingKept (s t : State) : Prop where
  outgoing : t.outgoing = s.outgoing
  sticky : StickyKept s t

theorem OutgoingKept.trans {s t u : State} (h : OutgoingKept s t) (k : OutgoingKept t u) : OutgoingKept s u :=
  ⟨k.outgoing.trans h.outgoing, h.sticky.trans k.sticky⟩

section

variable (s : State)

theorem OutgoingKept.refl : OutgoingKept s s := ⟨rfl, .refl s⟩

theorem OutgoingKept.mark (p b : Nat) (hp : p < 16) : OutgoingKept s (s.mark p b) := ⟨rfl, .mark s p b hp⟩

theorem OutgoingKept.markIf (c : Bool) (p b : Nat) (hp : p < 16) : OutgoingKept s (s.markIf c p b) :=
  ⟨markIf_outgoing s c p b, .markIf s c p b hp⟩

theorem OutgoingKept.modIssue (f : IssueUnit → IssueUnit) : OutgoingKept s (s.modIssue f) := ⟨rfl, .of_pages rfl⟩

theorem OutgoingKept.modRun (f : Run → Run) : OutgoingKept s (s.modRun f) := ⟨rfl, .of_pages rfl⟩

theorem OutgoingKept.modCtx (st : Stream) (f : Ctx → Ctx) : OutgoingKept s (s.modCtx st f) :=
  ⟨by cases st <;> rfl, .modCtx s st f⟩

theorem OutgoingKept.setPc (st : Stream) (n : Nat) : OutgoingKept s (s.setPc st n) := by
  cases st <;> exact ⟨rfl, .of_pages rfl⟩

theorem OutgoingKept.setWait (st : Stream) (w : Option Wait) : OutgoingKept s (s.setWait st w) := by
  cases st <;> exact ⟨rfl, .of_pages rfl⟩

theorem OutgoingKept.passEnd (st : Stream) : OutgoingKept s (s.passEnd st) := by
  cases st with
  | main =>
    unfold State.passEnd
    dsimp only
    split
    · exact (OutgoingKept.modIssue s _).trans (.mark _ 1 5 (by decide))
    · exact .refl s
  | edge => exact .modRun s _

theorem OutgoingKept.goTo (st : Stream) (n : Nat) : OutgoingKept s (s.goTo st n) :=
  (OutgoingKept.setPc s st n).trans (.passEnd _ st)

theorem OutgoingKept.guardRaise : OutgoingKept s s.guardRaise := by
  refine ⟨guardRaise_outgoing s, ?_⟩
  unfold State.guardRaise
  split
  · exact .mark s 14 9 (by decide)
  · split
    · exact .refl s
    · exact fun q n h => sticky_mark_keeps _ 14 6 q n (by decide) h

theorem OutgoingKept.raise {k : Nat} (r : Raises) (h : k < 4) : OutgoingKept s (s.raise k r) := by
  refine ⟨raise_outgoing_of_lt s r h, ?_⟩
  have flagged (f : BitVec 16) : StickyKept s { s with trouble := { s.trouble with flags := f } } := .of_pages rfl
  unfold State.raise
  dsimp only
  split
  · exact (((flagged _).trans (.bump _ _ _)).trans (.bump _ _ _)).trans (OutgoingKept.guardRaise _).sticky
  · exact ((flagged _).trans (.bump _ _ _)).trans (.bump _ _ _)

theorem OutgoingKept.dropPicot (st : Stream) (sd : BitVec 5) : OutgoingKept s (s.dropPicot st sd) :=
  ⟨(bump_outgoing _ _ (by decide)).trans (OutgoingKept.modCtx s st _).outgoing, .dropPicot s st sd⟩

end

theorem OutgoingKept.setvlEffect (e : Env) (t : State) (a : BitVec 64) : OutgoingKept t (setvlEffect e t a) :=
  ((OutgoingKept.modCtx t e.st _).trans (.markIf _ _ 2 0 (by decide))).trans (.markIf _ _ 2 1 (by decide))

theorem OutgoingKept.setrowEffect (e : Env) (t : State) (a : BitVec 64) : OutgoingKept t (setrowEffect e t a) :=
  (OutgoingKept.modCtx t e.st _).trans (.markIf _ _ 2 1 (by decide))

theorem OutgoingKept.waitEffect (e : Env) (t : State) (a : BitVec 64) : OutgoingKept t (waitEffect e t a) := by
  have go (x : BitVec 64) : OutgoingKept t ((t.modCtx e.st fun c => c.setS e.b.s.sd x).passEnd e.st) :=
    (OutgoingKept.modCtx t e.st _).trans (.passEnd _ e.st)
  unfold Machine.waitEffect
  dsimp only
  split
  · exact .setWait t e.st _
  · split
    · exact .setWait t e.st _
    · exact go 1
  · exact .setWait t e.st _
  · split
    · exact .setWait t e.st _
    · exact go 0

/-- The S slot sends nothing, counts no discarded record and clears no sticky bit. -/
theorem OutgoingKept.sEffect (e : Env) (t : State) : OutgoingKept t (sEffect e t) := by
  have on {u : State} (h : OutgoingKept t u) : OutgoingKept t (u.goTo e.st (e.s.pcOf e.st + 1)) := h.trans (.goTo _ _ _)
  unfold Machine.sEffect
  dsimp only
  split
  · exact on ((OutgoingKept.modCtx t e.st _).trans (.raise _ _ (by decide)))
  · split
    · exact on (.setvlEffect e t _)
    · exact on (.setrowEffect e t _)
    · exact on (.modCtx t e.st _)
    · exact on (.modCtx t e.st _)
    · exact on (.modCtx t e.st _)
    · exact on (.modCtx t e.st _)
    · exact .goTo t _ _
    · split
      · exact on (.refl t)
      · split
        · exact on (.modCtx t e.st _)
        · exact (OutgoingKept.modCtx t e.st _).trans (.goTo _ _ _)
    · exact (OutgoingKept.setPc t e.st _).trans (.waitEffect e _ _)
    · split
      · exact on (.modIssue t _)
      · exact on (.dropPicot t e.st _)
    · split
      · exact ((OutgoingKept.modIssue t _).trans (.modCtx _ .main _)).trans (.setPc _ .main _)
      · split
        · exact (OutgoingKept.setPc t e.st _).trans (.setWait _ e.st _)
        · exact on ((OutgoingKept.modCtx t e.st _).trans (.mark _ 1 7 (by decide)))
    · exact on ⟨rfl, .of_pages rfl⟩
    · exact .modIssue t _
    · exact on (.refl t)

end Sys2Proof.Machine
end

section
/-!
SUPPORT. A bundle of which `Clear` holds executes (R110, R111), and what an NSEND does with its record (R24, R282, R283,
R285, R296, R377). Settles O18.
-/

namespace Sys2Proof.Machine

/-! ### A clear bundle executes -/

@[simp] theorem dropEcc_nil (s : State) : s.dropEcc [] = s := by simp [State.dropEcc]

theorem standing_of_clear {s : State} {i : Issue} {o : MOut} (h : Clear s i o) :
    s.standing i.stream i.bundle s.twCap = .pass s := by
  have present : (s.namedHoops i).any (fun k => !s.hoopPresent k) = false := by
    simpa using h.present
  have lent : (i.stream == .main && (s.namedHoops i).any s.lentHoop) = false := by
    by_cases hm : i.stream = .main
    · simpa [hm] using fun k hk => (h.kept hm k hk).1
    · simp [hm]
  have net : (i.stream == .main && s.net.rxEn && (s.namedHoops i).contains s.net.rxHoop.toNat) = false := by
    by_cases hm : i.stream = .main ∧ s.net.rxEn = true
    · obtain ⟨hm, hx⟩ := hm
      simpa [hm, hx] using fun hk => (h.kept hm _ hk).2 hx rfl
    · simp only [not_and] at hm
      by_cases hs : i.stream = .main <;> simp_all
  unfold State.standing
  rw [h.sound]
  have bumped : s.bump .corrErr 0 = s := rfl
  simp only [dropEcc_nil, List.length_nil, bumped, List.any_nil, h.legal]
  unfold State.namedHoops at present lent net
  simp only [Env.ctx, present, lent, net]
  rfl

theorem goneGate_of_clear {s : State} {i : Issue} {o : MOut} (h : Clear s i o) : goneGate (s.env i) s = .pass s := by
  unfold goneGate
  split
  next hst hm =>
    rw [if_pos (h.tile hst (BitVec.eq_of_toNat_eq hm))]
  next hst hm =>
    obtain ⟨hgone, harr⟩ := h.arrival hst (BitVec.eq_of_toNat_eq hm)
    rw [hgone]
    cases hn : s.nextArrival (s.env i).netAddr with
    | some p =>
      rw [hn] at harr
      simp [show p.2.goneRelease = false from harr]
    | none =>
      rw [hn] at harr
      simp [show s.reachable (addrPackage (s.env i).netAddr) = true from harr]
  next => rfl

theorem readGate_of_clear {s : State} {i : Issue} {o : MOut} (h : Clear s i o) : readGate (s.env i) = .pass s := by
  unfold readGate
  rw [h.reads, h.table]
  simp only [List.any_nil, List.foldl_nil, List.filter_nil, List.find?_nil, State.markIf, dropEcc_nil, Bool.false_eq_true,
    if_false]
  rfl

theorem gate_of_clear {s : State} {i : Issue} {o : MOut} (h : Clear s i o) :
    s.gate i.stream i.bundle s.twCap o = .pass s := by
  have hw : s.mustWait ⟨s, i.stream, i.bundle, s.twCap⟩ o = false := h.ready
  have hg : goneGate ⟨s, i.stream, i.bundle, s.twCap⟩ s = .pass s := goneGate_of_clear h
  unfold State.gate
  rw [standing_of_clear h]
  dsimp only
  rw [hw, hg]
  exact readGate_of_clear h

/-- A bundle of which `Clear` holds executes. -/
theorem issueBundle_of_clear {s : State} {i : Issue} {o : MOut} (h : Clear s i o) :
    s.issueBundle i o none = execBundle (s.env i) o false := by
  have hinj : Env.injected ⟨s, i.stream, i.bundle, s.twCap⟩ = none := h.lanes
  unfold State.issueBundle
  rw [h.offered, h.atPc, gate_of_clear h]
  simp [Env.faults, hinj, State.env]

theorem exec_nsend_of_clear {s : State} {i : Issue} (h : Clear s i) (hm : i.bundle.m.major = 7) :
    exec (.nsend i) s = .next (s.settle (s.executed i)) := by
  have row : s.issueRow (.m 7) i = s.issueBundle i .normal none := by
    simp [State.issueRow, Bundle.carries, hm]
  have run : exec (.nsend i) s = .next (s.settle (s.issueRow (.m 7) i)) := rfl
  rw [run, row, issueBundle_of_clear h]
  rfl

end Sys2Proof.Machine
end

section
/-!
SUPPORT. What an NSEND does with its record (R24, R282, R283, R285, R296, R377). Settles O18.
-/

namespace Sys2Proof.Machine

/-! ### The header -/

theorem hdrMirror_headerWords (src dst : BitVec 37) (tag : Word) (step : BitVec 48) (n : Word) (l : List Word) :
    hdrMirror (headerWords 0 src dst tag step n l) = false := by
  have word : hdr (headerWords 0 src dst tag step n l) 0 = BitVec.ofNat 32 (2 ^ 24 + 0 * 2 ^ 20) := rfl
  rw [hdrMirror, word]
  decide

theorem hdrDst_headerWords (kind : Nat) (src dst : BitVec 37) (tag : Word) (step : BitVec 48) (n : Word) (l : List Word) :
    hdrDst (headerWords kind src dst tag step n l) = dst := by
  have words : hdrDst (headerWords kind src dst tag step n l) =
    BitVec.ofNat 5 (bits ((dst >>> 32).truncate 32) 4 0) ++ (dst.truncate 32 : Word) := rfl
  have lt : dst.toNat < 2 ^ 37 := dst.isLt
  rw [words]
  apply BitVec.eq_of_toNat_eq
  rw [BitVec.toNat_append, ← Nat.shiftLeft_add_eq_or_of_lt (BitVec.isLt _)]
  simp only [bits, BitVec.truncate_eq_setWidth, BitVec.toNat_ofNat, BitVec.toNat_setWidth, BitVec.toNat_ushiftRight,
    Nat.shiftRight_eq_div_pow, Nat.shiftLeft_eq]
  omega

/-! ### A record that is sealed -/

theorem sealKey_net (s : State) (p : Nat) : (s.sealKey p).2.net = s.net := by
  unfold State.sealKey
  split
  · rfl
  · split <;> rfl
  · rfl

theorem sealKey_mirror (s : State) (p : Nat) : (s.sealKey p).2.mirror = s.mirror := by
  unfold State.sealKey
  split
  · rfl
  · split <;> rfl
  · rfl

theorem sealKey_of_live {s : State} {p : Nat} (h : (s.key p).state = .live) : s.sealKey p = (some (s.key p).key, s) := by
  unfold State.sealKey
  rw [h]

theorem exchanged_net (s : State) (p : BitVec 15) : (s.exchanged p).net = s.net := by
  unfold State.exchanged
  split <;> rfl

theorem exchanged_mirror (s : State) (p : BitVec 15) : (s.exchanged p).mirror = s.mirror := by
  unfold State.exchanged
  split <;> rfl

section

variable {s t : State} {h : List Word} (hk : hdrMirror h = false) (body : List Byte) (st : Stream) (index : Nat)

include hk

theorem sendRecord_unsealed (hs : s.sealKey 0 = (none, t)) : s.sendRecord h body st index = t.bump .sendDiscard 1 := by
  unfold State.sendRecord
  simp only [hk, Bool.false_eq_true, if_false, hs]
  rfl

theorem sendRecord_sealed {k : BitVec 256} (hs : s.sealKey 0 = (some k, t)) :
    let u := t.setKey 0 { t.key 0 with lastStep := some (hdrStep h) }
    s.sendRecord h body st index = State.exchanged
      { u with net := { u.net with outQ := u.net.outQ ++
        [⟨false, addrPackage (hdrDst h), hdr h 8, sealRec k h body, st, index⟩] } } (addrPackage (hdrDst h)) := by
  unfold State.sendRecord
  simp only [hk, Bool.false_eq_true, if_false, hs]

variable (s)

/-- A record of an NSEND changes of the mirror nothing, and of the port at most the queue. -/
theorem sendRecord_net : (s.sendRecord h body st index).mirror = s.mirror ∧
    ∃ q, (s.sendRecord h body st index).net = { s.net with outQ := q } := by
  have hn := sealKey_net s 0
  have hm := sealKey_mirror s 0
  rcases hs : s.sealKey 0 with ⟨_ | k, t⟩
  · rw [hs] at hn hm
    rw [sendRecord_unsealed hk body st index hs, State.bump_mirror, State.bump_net]
    exact ⟨hm, s.net.outQ, hn⟩
  · rw [hs] at hn hm
    rw [sendRecord_sealed hk body st index hs, exchanged_mirror, exchanged_net]
    refine ⟨hm, t.net.outQ ++ [⟨false, addrPackage (hdrDst h), hdr h 8, sealRec k h body, st, index⟩], ?_⟩
    rw [← show t.net = s.net from hn]
    rfl

theorem sendRecord_outQ (hl : (s.key 0).state = .live) : (s.sendRecord h body st index).net.outQ = s.net.outQ ++
    [⟨false, addrPackage (hdrDst h), hdr h 8, sealRec (s.key 0).key h body, st, index⟩] := by
  rw [sendRecord_sealed hk body st index (sealKey_of_live hl), exchanged_net]
  rfl

end

/-! ### NSEND -/

/-- RCOUNT of the record and of those before it. -/
def State.countSent (s : State) : State := { s with net := { s.net with rcount := s.net.rcount + 1 } }

/-- The header of an NSEND's record. -/
def Env.sendHeader (e : Env) (t : State) : List Word :=
  let tag : Word :=
    match e.st, e.s.edging.run with
    | .edge, some r => r.tag
    | _, _ => BitVec.ofNat 32 (e.s.net.rcount.toNat % 2 ^ 16)
  headerWords 0 (t.self (addrStream e.netAddr)) e.netAddr tag e.cap.step e.s.net.rcount (List.replicate 6 0)

/-- One credit of a package taken. -/
def State.takeCredit (s : State) (p : BitVec 15) : State :=
  { s with net := { s.net with credit := s.net.credit.set 0 p.toNat (s.net.credit.get 0 p.toNat - 1) } }

theorem nsendEffect_far {e : Env} (t : State) (h : Config.maxPackage < (addrPackage e.netAddr).toNat) :
    nsendEffect e t false = (t.mark 14 2).bump .sendDiscard 1 := if_pos h

theorem nsendEffect_gone {e : Env} {t : State} (h : (addrPackage e.netAddr).toNat ≤ Config.maxPackage)
    (hr : t.reachable (addrPackage e.netAddr) = false) :
    nsendEffect e t false = (t.goneOnce.bump .sendDiscard 1).countSent := by
  have discard : t.goneOnce.discardOut false = t.goneOnce.bump .sendDiscard 1 := rfl
  unfold nsendEffect
  dsimp only
  rw [if_neg (Nat.not_lt.mpr h), hr, discard]
  simp only [Bool.false_eq_true, if_false, Bool.not_false, if_true]
  rfl

theorem nsendEffect_sent {e : Env} {t : State} (h : (addrPackage e.netAddr).toNat ≤ Config.maxPackage)
    (hr : t.reachable (addrPackage e.netAddr) = true) :
    nsendEffect e t false = ((t.takeCredit (addrPackage e.netAddr)).sendRecord (e.sendHeader t) (e.hsBytes 4096) e.st
      (e.s.pcOf e.st)).countSent := by
  have low : bits e.s.net.rcount 15 0 = e.s.net.rcount.toNat % 2 ^ 16 := by simp [bits]
  unfold nsendEffect
  dsimp only
  rw [if_neg (Nat.not_lt.mpr h), hr, low]
  simp only [Bool.false_eq_true, if_false, Bool.not_true]
  unfold State.countSent State.takeCredit Env.sendHeader
  rfl

/-! ### A bundle with an NSEND -/

/-- The state after the vector slots of the bundle of an issue. -/
def State.vectored (s : State) (i : Issue) : State := v1Effect (s.env i) (chainEffect (s.env i) s)

theorem vectored_offLane (s : State) (i : Issue) : (s.vectored i).offLane = s.offLane := by
  simp [State.vectored]

theorem vectored_counter {s : State} {i : Issue} (h : i.bundle.v1.major ≠ 14) :
    (s.vectored i).counter .sendDiscard = s.counter .sendDiscard :=
  congrArg (fun o : NetUnit × MirrorUnit × Nat => o.2.2)
    ((v1Effect_outgoing (e := s.env i) (chainEffect (s.env i) s) h).trans (chainEffect_outgoing (s.env i) s))

/-- The vector slots leave the port, but for the mirror records discarded, which RCOUNT counts (R296). -/
theorem vectored_net (s : State) (i : Issue) : (s.vectored i).net =
    { s.net with rcount := s.net.rcount + ((s.vectored i).mirror.mseq - s.mirror.mseq) } := by
  have hk : (s.vectored i).unmirrored = s.unmirrored :=
    (v1Effect_unmirrored _ _).trans (unmirrored_of_outgoing (chainEffect_outgoing _ _))
  have hr : (s.vectored i).net.rcount = s.net.rcount + ((s.vectored i).mirror.mseq - s.mirror.mseq) := by
    unfold State.unmirrored at hk
    rw [eq_add_of_sub_eq hk]
    abel
  have hn : ({ (s.vectored i).net with rcount := 0 } : NetUnit) = { s.net with rcount := 0 } :=
    congrArg State.net (vectored_offLane s i)
  rw [← hr]
  exact congrArg (fun n : NetUnit => { n with rcount := (s.vectored i).net.rcount }) hn

theorem vectored_key (s : State) (i : Issue) (k : Nat) : (s.vectored i).key k = s.key k :=
  (congrArg (fun t : State => t.key k) (vectored_offLane s i) :
    (s.vectored i).offLane.key k = s.offLane.key k)

theorem vectored_reachable (s : State) (i : Issue) (p : BitVec 15) : (s.vectored i).reachable p = s.reachable p :=
  (congrArg (fun t : State => t.reachable p) (vectored_offLane s i) :
    (s.vectored i).offLane.reachable p = s.offLane.reachable p)

theorem vectored_self (s : State) (i : Issue) (st : BitVec 15) : (s.vectored i).self st = s.self st :=
  (congrArg (fun t : State => t.self st) (vectored_offLane s i) :
    (s.vectored i).offLane.self st = s.offLane.self st)

/-- Behind the NSEND the port, the mirror and SEND_DISCARD stay as it left them, and its sticky bits stay set. -/
theorem executed_nsend (s : State) {i : Issue} (hm : i.bundle.m.major = 7) :
    OutgoingKept (nsendEffect (s.env i) (s.vectored i) false) (s.executed i) := by
  have before : OutgoingKept (nsendEffect (s.env i) (s.vectored i) false) (s.beforeS i) := by
    have hand : mHand (s.env i) .normal (s.vectored i) = nsendEffect (s.env i) (s.vectored i) false := by
      unfold mHand
      dsimp only [State.env]
      rw [hm]
      rfl
    have load (t : State) : t.beginLoad i.bundle.m = t := by
      simp [State.beginLoad, hm]
    have rest (t : State) : OutgoingKept t (mRest (s.env i) .normal t) := by
      unfold mRest
      dsimp only [State.env]
      rw [hm]
      split
      · exact .modCtx t _ _
      · exact .refl t
    have e : s.beforeS i =
      mRest (s.env i) .normal ((mHand (s.env i) .normal (s.vectored i)).beginLoad i.bundle.m) := rfl
    rw [e, load, hand]
    exact rest _
  have slot := before.trans (.sEffect (s.env i) (s.beforeS i))
  rw [executed_eq]
  split
  · exact slot.trans (.modIssue _ _)
  · exact slot

end Sys2Proof.Machine
end

section
/-!
SUPPORT. The three outcomes of an NSEND (R24, R285, R296). Settles O18.
-/

namespace Sys2Proof.Machine

/-! ### The outcomes of an NSEND -/

theorem mirror_of_outgoing {s t : State} (h : s.outgoing = t.outgoing) : s.mirror = t.mirror :=
  congrArg (fun o : NetUnit × MirrorUnit × Nat => o.2.1) h

theorem net_of_outgoing {s t : State} (h : s.outgoing = t.outgoing) : s.net = t.net :=
  congrArg Prod.fst h

theorem discards_of_outgoing {s t : State} (h : s.outgoing = t.outgoing) :
    s.counter .sendDiscard = t.counter .sendDiscard :=
  congrArg (fun o : NetUnit × MirrorUnit × Nat => o.2.2) h

theorem counter_discard (s : State) :
    (s.bump .sendDiscard 1).counter .sendDiscard = min (s.counter .sendDiscard + 1) (2 ^ 32 - 1) :=
  State.counter_bump s .sendDiscard .sendDiscard 1 (by decide)

theorem StickyKept.countSent (s : State) : StickyKept s s.countSent := .of_pages rfl

theorem countSent_counter (s : State) (c : Ctr) : s.countSent.counter c = s.counter c := rfl

theorem countSent_mirror (s : State) : s.countSent.mirror = s.mirror := rfl

theorem countSent_net (s : State) : s.countSent.net = { s.net with rcount := s.net.rcount + 1 } := rfl

theorem goneOnce_outgoing (s : State) : s.goneOnce.outgoing = s.outgoing := bump_outgoing (s.mark 8 1) 1 (by decide)

section

variable {s : State} {i : Issue} (hm : i.bundle.m.major = 7)

include hm

/-- An NSEND to a package that does not exist. -/
theorem executed_far (h : Config.maxPackage < (addrPackage (s.env i).netAddr).toNat) :
    let t := s.executed i
    t.net = { s.net with rcount := s.net.rcount + (t.mirror.mseq - s.mirror.mseq) } ∧ (t.sticky 14).getLsbD 2 = true ∧
      (i.bundle.v1.major ≠ 14 → t.counter .sendDiscard = min (s.counter .sendDiscard + 1) (2 ^ 32 - 1)) := by
  have k := executed_nsend s hm
  rw [nsendEffect_far _ h] at k
  obtain ⟨ho, hs⟩ := k
  refine ⟨?_, ((StickyKept.bump _ _ _).trans hs).marked (by decide) (by decide), fun hu => ?_⟩
  · rw [net_of_outgoing ho, mirror_of_outgoing ho, State.bump_net, State.bump_mirror]
    exact vectored_net s i
  · rw [discards_of_outgoing ho, counter_discard, State.mark_counter, vectored_counter hu]

/-- An NSEND to a package that is not reachable. -/
theorem executed_gone (h : (addrPackage (s.env i).netAddr).toNat ≤ Config.maxPackage)
    (hr : s.reachable (addrPackage (s.env i).netAddr) = false) :
    let t := s.executed i
    t.net = { s.net with rcount := s.net.rcount + (t.mirror.mseq - s.mirror.mseq) + 1 } ∧
      (t.sticky 8).getLsbD 1 = true ∧
      (i.bundle.v1.major ≠ 14 → t.counter .sendDiscard = min (s.counter .sendDiscard + 1) (2 ^ 32 - 1)) := by
  have k := executed_nsend s hm
  rw [nsendEffect_gone h ((vectored_reachable s i _).trans hr)] at k
  obtain ⟨ho, hs⟩ := k
  have lost := goneOnce_outgoing (s.vectored i)
  have gone : StickyKept ((s.vectored i).mark 8 1) (s.executed i) :=
    (((StickyKept.bump _ .gone 1).trans (.bump _ .sendDiscard 1)).trans (.countSent _)).trans hs
  refine ⟨?_, gone.marked (by decide) (by decide), fun hu => ?_⟩
  · rw [net_of_outgoing ho, mirror_of_outgoing ho, countSent_net, countSent_mirror, State.bump_net, State.bump_mirror,
      net_of_outgoing lost, mirror_of_outgoing lost, vectored_net]
  · rw [discards_of_outgoing ho, countSent_counter, counter_discard, discards_of_outgoing lost, vectored_counter hu]

/-- An NSEND whose record is sent. -/
theorem executed_sent (h : (addrPackage (s.env i).netAddr).toNat ≤ Config.maxPackage)
    (hr : s.reachable (addrPackage (s.env i).netAddr) = true) :
    let t := s.executed i
    let p := addrPackage (s.env i).netAddr
    t.net.rcount = s.net.rcount + (t.mirror.mseq - s.mirror.mseq) + 1 ∧
      t.net.credit = s.net.credit.set 0 p.toNat (s.net.credit.get 0 p.toNat - 1) ∧
      ((s.key 0).state = .live → t.net.outQ = s.net.outQ ++ [⟨false, p, s.net.rcount,
        sealRec (s.key 0).key ((s.env i).sendHeader s) ((s.env i).hsBytes 4096), i.stream, s.pcOf i.stream⟩]) := by
  have header : (s.env i).sendHeader (s.vectored i) = (s.env i).sendHeader s := by
    unfold Env.sendHeader
    rw [vectored_self]
  have ho := (executed_nsend s hm).outgoing
  rw [nsendEffect_sent h ((vectored_reachable s i _).trans hr), header] at ho
  have hk : hdrMirror ((s.env i).sendHeader s) = false := hdrMirror_headerWords _ _ _ _ _ _
  have hv := vectored_net s i
  obtain ⟨hq, q, hn⟩ := sendRecord_net ((s.vectored i).takeCredit (addrPackage (s.env i).netAddr)) hk
    ((s.env i).hsBytes 4096) i.stream (s.pcOf i.stream)
  have mirror : (s.executed i).mirror = (s.vectored i).mirror := (mirror_of_outgoing ho).trans hq
  have net : (s.executed i).net = _ :=
    (net_of_outgoing ho).trans (congrArg (fun n : NetUnit => { n with rcount := n.rcount + 1 }) hn)
  refine ⟨?_, ?_, fun hl => ?_⟩
  · rw [net, mirror]
    exact congrArg (fun n : NetUnit => n.rcount + 1) hv
  · have credit : (s.vectored i).net.credit = s.net.credit := by rw [hv]
    rw [net, ← credit]
    rfl
  · have sent := sendRecord_outQ ((s.vectored i).takeCredit (addrPackage (s.env i).netAddr)) hk
      ((s.env i).hsBytes 4096) i.stream (s.pcOf i.stream) ((congrArg KeySlot.state (vectored_key s i 0)).trans hl)
    have key : ((s.vectored i).takeCredit (addrPackage (s.env i).netAddr)).key 0 = s.key 0 := vectored_key s i 0
    have queue : ((s.vectored i).takeCredit (addrPackage (s.env i).netAddr)).net.outQ = s.net.outQ := by
      have kept : (s.vectored i).net.outQ = s.net.outQ := by rw [hv]
      exact kept
    have package : hdrDst ((s.env i).sendHeader s) = (s.env i).netAddr := hdrDst_headerWords _ _ _ _ _ _ _
    rw [key, queue, package] at sent
    exact (congrArg NetUnit.outQ (net_of_outgoing ho)).trans sent

end

end Sys2Proof.Machine

open Sys2Proof Sys2Proof.Machine

/-- Settles O18. A clear bundle executes; the vector slots before the NSEND leave the port, but for RCOUNT, which counts
what MSEQ counts, and the S slot behind it leaves what it did. -/
theorem sendsRecord : Obligations.SendsRecord := by
  intro i s hc hm e dst pk tag h
  refine ⟨_, exec_nsend_of_clear hc hm, ?_⟩
  have sticky := StickyKept.settle s (s.executed i)
  simp only [settle_net, settle_mirror, settle_counter]
  refine ⟨fun hf => ?_, fun hp hr => ?_, fun hp hr => ?_⟩
  · obtain ⟨hn, hs, hk⟩ := executed_far hm hf
    exact ⟨hn, sticky _ _ hs, hk⟩
  · obtain ⟨hn, hs, hk⟩ := executed_gone hm hp hr
    exact ⟨hn, sticky _ _ hs, hk⟩
  · have header : e.sendHeader s = h := rfl
    rw [← header]
    exact executed_sent hm hp hr
end

section
/-!
SUPPORT. What settling makes of the figures and of the down state (R34, R45, R247). Settles O2 and O4.
-/

namespace Sys2Proof.Machine

theorem refuseTriggers_trig (s : State) : s.refuseTriggers.edging.trig = [] := by
  unfold State.refuseTriggers
  split
  · assumption
  · rfl

/-- The engine has no active panel or no present hoop (R45). -/
theorem settleDown_of_down {s : State} (h : s.active = 0 ∨ ∀ k, s.hoopPresent k = false) :
    s.settleDown = ({ s with trouble := { s.trouble with engineDown := true } } : State).refuseTriggers := by
  unfold State.settleDown
  rw [if_pos]
  rcases h with h | h
  · simp [h]
  · have none : s.hoopMeta.present.toList.any id = false := by
      rw [List.any_eq_false]
      intro x hx
      obtain ⟨k, hk⟩ := List.mem_iff_getElem?.mp hx
      have := h k
      rw [State.hoopPresent, ← Vector.getElem?_toList, hk] at this
      simpa using this
    simp [none]

theorem refuseTriggers_engineDown (s : State) : s.refuseTriggers.trouble.engineDown = s.trouble.engineDown := by
  unfold State.refuseTriggers
  split
  · rfl
  · simp only [State.mark_trouble]

theorem settleFirst_engineDown (s t : State) : (State.settleFirst s t).trouble.engineDown = t.trouble.engineDown := by
  unfold State.settleFirst
  cases t.trouble.first.getLsbD 31
  · cases State.firstNew s t <;> simp
  · simp

theorem settleFirst_edging (s t : State) : (State.settleFirst s t).edging = t.edging := by
  unfold State.settleFirst
  split
  · rfl
  · split <;> rfl

theorem settle_of_live (s : State) {t : State} (h : t.live = true) :
    State.settle s t = State.settleFirst s (State.settleDown (State.settleCap s t)) := by
  rw [settle_eq, if_neg]
  simp only [State.live, Bool.and_eq_true] at h
  simp [h.1, Option.isNone_iff_eq_none.mp h.2]

theorem settleCap_hoopMeta (s t : State) : (State.settleCap s t).hoopMeta = t.hoopMeta := by
  unfold State.settleCap; split <;> rfl

theorem settleCap_panelMap (s t : State) : (State.settleCap s t).panelMap = t.panelMap := by
  unfold State.settleCap; split <;> rfl

/-- A figure that has changed is marked, by an event before or by the settling (R34). -/
theorem settleCap_marks {s t : State} (h : t.figures ≠ s.figures) :
    ((State.settleCap s t).sticky 0).getLsbD 0 = true := by
  unfold State.settleCap
  split
  · next k => exact (k.resolve_left h).2
  · exact sticky_mark_self _ 0 0 (by decide) (by decide)

end Sys2Proof.Machine

open Sys2Proof Sys2Proof.Machine

/-- Settles O2: settling sets ENGINE_DOWN and refuses the triggers where no panel or no hoop is left. -/
theorem downAfterEveryCommand : Obligations.DownAfterEveryCommand := by
  intro c s t hx hl hd
  obtain ⟨u, hu⟩ := exec_settles c s
  obtain rfl : State.settle s u = t := Host.Outcome.next.inj (hu.symm.trans hx)
  rw [settle_live] at hl
  have down : (State.settleCap s u).active = 0 ∨ ∀ k, (State.settleCap s u).hoopPresent k = false := by
    simpa [State.active, State.hoopPresent, settleCap_panelMap, settleCap_hoopMeta] using hd
  rw [settle_of_live s hl, settleFirst_engineDown, settleFirst_edging, settleDown_of_down down]
  exact ⟨refuseTriggers_engineDown _, refuseTriggers_trig _⟩

/-- Settles O4: settling compares the figures before and after the command. -/
theorem capChangeMarked : Obligations.CapChangeMarked := by
  intro c s t hx hl hf
  obtain ⟨u, hu⟩ := exec_settles c s
  obtain rfl : State.settle s u = t := Host.Outcome.next.inj (hu.symm.trans hx)
  rw [settle_live] at hl
  rw [settle_figures] at hf
  rw [settle_of_live s hl, State.sticky, State.page, settleFirst_pages]
  exact sticky_settleDown _ 0 0 (settleCap_marks hf)
end

section
/-!
SUPPORT. The active panels, the reset, the aborted bundle and the lengths of both streams as one value (`State.bounds`), and
the functions of the model that leave it.
-/

namespace Sys2Proof.Machine

/-- The figures of a context that VLMAX bounds (R52, R56). -/
def Ctx.shape (c : Ctx) : Nat × EW × Nat := (c.vl, c.ew, c.rowshape)

/-- What `State.bounded` speaks of: the active panels, whether a reset runs or an aborted bundle waits, and the lengths
of both streams. -/
def State.bounds (s : State) : Nat × Option ResetKind × Bool × (Nat × EW × Nat) × Option (Nat × EW × Nat) :=
  (s.active, s.resetting, s.issue.retry.isNone, s.ctx.shape, s.edging.run.map fun r => r.ctx.shape)

/-- An update of other fields leaves the bounds; one of the contexts, of issue or of the run where it keeps the lengths,
the aborted bundle and the run's lengths. -/
@[simp] theorem bounds_update (s : State) {pending wz package powered resetHeld lastReset rest transit restRefused
    capGen hoops fabric pstore estore regs ecc masks carries xfers panels hoopMeta arb motif scale twist partner net mirror clock keys
    trouble freeCount testEnable testLocal pages mmioOut maskOut outbox} {ctx : Ctx} {issue : IssueUnit}
    {edging : Edging} (hc : ctx.shape = s.ctx.shape) (hi : issue.retry.isNone = s.issue.retry.isNone)
    (he : (edging.run.map fun r => r.ctx.shape) = s.edging.run.map fun r => r.ctx.shape) :
    State.bounds ⟨pending, wz, package, powered, s.resetting, resetHeld, lastReset, rest, transit, restRefused, capGen,
      hoops, fabric, pstore, estore, regs, ecc, ctx, masks, carries, issue, xfers, s.panelMap, panels, hoopMeta, arb,
      motif, scale, twist, edging, partner, net, mirror, clock, keys, trouble, freeCount, testEnable, testLocal, pages,
      mmioOut, maskOut, outbox⟩ = s.bounds := by
  simp only [State.bounds, State.active, hc, hi, he]

theorem bounds_of_offLane {s t : State} (h : s.offLane = t.offLane) : s.bounds = t.bounds :=
  (congrArg State.bounds h : s.offLane.bounds = t.offLane.bounds)

theorem bounds_of_offPort {s t : State} (h : s.offPort = t.offPort) (k : s.streams = t.streams) : s.bounds = t.bounds := by
  have active : s.active = t.active := (congrArg State.active h : s.offPort.active = t.offPort.active)
  have reset : s.resetting = t.resetting := (congrArg State.resetting h : s.offPort.resetting = t.offPort.resetting)
  simp only [State.streams, Prod.mk.injEq] at k
  simp only [State.bounds, active, reset, issue_of_offPort h, k.1, k.2]

@[simp] theorem setPage_bounds (s : State) (p : Nat) (h : PageHdr) : (s.setPage p h).bounds = s.bounds := rfl

@[simp] theorem mark_bounds (s : State) (p b : Nat) : (s.mark p b).bounds = s.bounds := rfl

@[simp] theorem markIf_bounds (s : State) (c : Bool) (p b : Nat) : (s.markIf c p b).bounds = s.bounds := by
  cases c <;> rfl

@[simp] theorem setReg_bounds (s : State) (p off : Nat) (v : Word) : (s.setReg p off v).bounds = s.bounds := rfl

@[simp] theorem settleCap_bounds (s t : State) : (State.settleCap s t).bounds = t.bounds :=
  bounds_of_offLane (State.settleCap_offLane s t)

theorem foldl_bounds {α : Type} {f : State → α → State} (h : ∀ s a, (f s a).bounds = s.bounds) (l : List α) (s : State) :
    (l.foldl f s).bounds = s.bounds := foldl_keeps State.bounds f h l s

@[simp] theorem setS_shape (c : Ctx) (k : BitVec 5) (v : BitVec 64) : (c.setS k v).shape = c.shape := by
  unfold Ctx.setS; split <;> rfl

@[simp] theorem setEs_shape (c : Ctx) (k : Nat) (v : Word) : (c.setEs k v).shape = c.shape := by
  unfold Ctx.setEs; split <;> rfl

@[simp] theorem setDesc_shape (c : Ctx) (k : Nat) (d : Desc) : (c.setDesc k d).shape = c.shape := rfl

@[simp] theorem storeBusy_bounds (s : State) (p : Nat) : (s.storeBusy p).bounds = s.bounds := by
  unfold State.storeBusy
  split <;> simp

@[simp] theorem bump_bounds (s : State) (c : Ctr) (n : Nat) : (s.bump c n).bounds = s.bounds := by
  simp [State.bump, apply_ite State.bounds]

@[simp] theorem guardRaise_bounds (s : State) : s.guardRaise.bounds = s.bounds := by
  unfold State.guardRaise
  split <;> simp [apply_ite State.bounds]

@[simp] theorem raise_bounds (s : State) (cls : Nat) (r : Raises) : (s.raise cls r).bounds = s.bounds := by
  simp [State.raise, apply_ite State.bounds]

@[simp] theorem raiseNv_bounds (s : State) (cls : Nat) : (s.raiseNv cls).bounds = s.bounds := by
  simp [State.raiseNv]

@[simp] theorem modCtx_bounds (s : State) (st : Stream) {f : Ctx → Ctx} (h : ∀ c, (f c).shape = c.shape) :
    (s.modCtx st f).bounds = s.bounds := by
  cases st <;> simp [State.modCtx, Function.comp_def, h]

@[simp] theorem setMask_bounds (s : State) (k : Nat) (m : BitVec 4096) : (s.setMask k m).bounds = s.bounds := by
  simp [State.setMask, apply_ite State.bounds]

@[simp] theorem writeSlab_bounds (s : State) (h k : Nat) (bs : List Byte) :
    (s.writeSlab h k bs).bounds = s.bounds := rfl

@[simp] theorem soundHalf_bounds (s : State) (t : EccTarget) (i : Nat) : (s.soundHalf t i).bounds = s.bounds := rfl

@[simp] theorem mergeSlab_bounds (s : State) (h k : Nat) (bs : List Byte) (on : Nat → Bool) :
    (s.mergeSlab h k bs on).bounds = s.bounds := rfl

@[simp] theorem logDarn_bounds (s : State) (kind cause unit : Nat) : (s.logDarn kind cause unit).bounds = s.bounds := by
  simp [State.logDarn, apply_ite State.bounds]

@[simp] theorem arbNext_bounds (s : State) : s.arbNext.bounds = s.bounds := by
  unfold State.arbNext
  dsimp only
  repeat' split
  all_goals simp

@[simp] theorem startStruct_bounds (s : State) (x : Start) : (s.startStruct x).bounds = s.bounds := by
  unfold State.startStruct
  split <;> simp [apply_ite State.bounds]

@[simp] theorem endStruct_bounds (s : State) : s.endStruct.bounds = s.bounds := by
  simp [State.endStruct]

@[simp] theorem freeRecords_bounds (s : State) : s.freeRecords.bounds = s.bounds := by
  unfold State.freeRecords
  split
  · next r hr =>
    split <;> simp [hr]
  · simp

@[simp] theorem retireHoop_bounds (s : State) (h cause : Nat) (log : Bool) :
    (s.retireHoop h cause log).bounds = s.bounds := by
  simp [State.retireHoop, apply_ite State.bounds]

@[simp] theorem needSpareIn_bounds (s : State) (h k cause : Nat) : (s.needSpareIn h k cause).bounds = s.bounds := by
  unfold State.needSpareIn
  split
  · rfl
  · split <;> simp [apply_ite State.bounds]

@[simp] theorem hoopErr_bounds (s : State) (e : EccErr) : (s.hoopErr e).bounds = s.bounds := by
  simp [State.hoopErr, apply_ite State.bounds]

@[simp] theorem loseTarget_bounds (s : State) (t : Target) : (s.loseTarget t).bounds = s.bounds := rfl

@[simp] theorem goneOnce_bounds (s : State) : s.goneOnce.bounds = s.bounds := by
  simp [State.goneOnce]

@[simp] theorem exchanged_bounds (s : State) (p : BitVec 15) : (s.exchanged p).bounds = s.bounds := by
  simp [State.exchanged, apply_ite State.bounds]

@[simp] theorem writeTo_bounds (s t : State) (st : Stream) (f : BitVec 8) (w : Nat) (vals : List (Option Nat)) :
    (writeTo s t st f w vals).bounds = t.bounds := bounds_of_offLane (writeTo_offLane s t st f w vals)

@[simp] theorem setMslot_bounds (s : State) (i : Nat) (x : MotifSlot) : (s.setMslot i x).bounds = s.bounds := rfl

@[simp] theorem decideSwap_bounds (s : State) (i : Nat) : (s.decideSwap i).bounds = s.bounds := by
  simp [State.decideSwap, apply_ite State.bounds]

@[simp] theorem requestSwap_bounds (s : State) (i : Nat) : (s.requestSwap i).bounds = s.bounds := by
  simp [State.requestSwap, apply_ite State.bounds]

@[simp] theorem leafVerdict_bounds (s : State) (i : Nat) (b good : Bool) (reason : BitVec 4) :
    (s.leafVerdict i b good reason).bounds = s.bounds := by
  simp [State.leafVerdict, apply_ite State.bounds]

@[simp] theorem doSwap_bounds (s : State) (i : Nat) : (s.doSwap i).bounds = s.bounds := by
  simp [State.doSwap, apply_ite State.bounds]

@[simp] theorem startLoad_bounds (s : State) (i : Nat) : (s.startLoad i).bounds = s.bounds := by
  simp [State.startLoad, apply_ite State.bounds]

@[simp] theorem mirrorDiscard_bounds (s : State) (n : Nat) : (s.mirrorDiscard n).bounds = s.bounds := by
  simp [State.mirrorDiscard]

@[simp] theorem mirrorPush_bounds (s : State) (rs : List MirrorRec) : (s.mirrorPush rs).bounds = s.bounds := by
  simp [State.mirrorPush, apply_ite State.bounds]

@[simp] theorem sendDesc_bounds (s : State) : s.sendDesc.bounds = s.bounds := by
  unfold State.sendDesc
  split <;> simp

@[simp] theorem pushDesc_bounds (s : State) (d : List Word) : (s.pushDesc d).bounds = s.bounds := by
  simp [State.pushDesc, apply_ite State.bounds]

@[simp] theorem setKey_bounds (s : State) (k : Nat) (x : KeySlot) : (s.setKey k x).bounds = s.bounds := rfl

@[simp] theorem setInbound_bounds (s : State) (p : Nat) (l : List (BitVec 22)) :
    (s.setInbound p l).bounds = s.bounds := rfl

@[simp] theorem useInbound_bounds (s : State) (p : Nat) (a : BitVec 22) : (s.useInbound p a).bounds = s.bounds := rfl

@[simp] theorem promote_bounds (s : State) (p : Nat) : (s.promote p).bounds = s.bounds := by
  simp [State.promote]

@[simp] theorem spend_bounds (s : State) (p : Nat) : (s.spend p).bounds = s.bounds := by
  simp [State.spend, apply_ite State.bounds]

@[simp] theorem discardOut_bounds (s : State) (mirror : Bool) : (s.discardOut mirror).bounds = s.bounds := by
  simp [State.discardOut, apply_ite State.bounds]

@[simp] theorem sendRecord_bounds (s : State) (h : List Word) (body : List Byte) (st : Stream) (index : Nat) :
    (s.sendRecord h body st index).bounds = s.bounds :=
  bounds_of_offPort (sendRecord_offPort s h body st index) (sendRecord_streams s h body st index)

@[simp] theorem measNext_bounds (s : State) : s.measNext.bounds = s.bounds := by
  unfold State.measNext
  split <;> simp

@[simp] theorem measRequest_bounds (s : State) (t : MeasTarget) : (s.measRequest t).bounds = s.bounds := by
  simp [State.measRequest, apply_ite State.bounds]

@[simp] theorem measCancel_bounds (s : State) (t : MeasTarget) : (s.measCancel t).bounds = s.bounds := by
  simp [State.measCancel]

@[simp] theorem setBank_bounds (s : State) (k : Nat) (x : Bank) : (s.setBank k x).bounds = s.bounds := rfl

@[simp] theorem setEntry_bounds (s : State) (i : Nat) (x : LedgerEntry) : (s.setEntry i x).bounds = s.bounds := rfl

@[simp] theorem dropGone_bounds (s : State) (a : BitVec 37) : (s.dropGone a).bounds = s.bounds := rfl

@[simp] theorem freeSlot_bounds (s : State) (k : Nat) : (s.freeSlot k).bounds = s.bounds := rfl

@[simp] theorem releaseTile_bounds (s : State) : s.releaseTile.bounds = s.bounds := by
  unfold State.releaseTile
  split <;> simp

@[simp] theorem beginLoad_bounds (s : State) (m : MSlot) : (s.beginLoad m).bounds = s.bounds := by
  simp [State.beginLoad, apply_ite State.bounds]

@[simp] theorem modIssue_bounds (s : State) {f : IssueUnit → IssueUnit}
    (h : (f s.issue).retry.isNone = s.issue.retry.isNone) : (s.modIssue f).bounds = s.bounds := by
  simp [State.modIssue, h]

@[simp] theorem modRun_bounds (s : State) {f : Run → Run} (h : ∀ r, (f r).ctx.shape = r.ctx.shape) :
    (s.modRun f).bounds = s.bounds := by
  simp [State.modRun, Function.comp_def, h]

@[simp] theorem setPc_bounds (s : State) (st : Stream) (n : Nat) : (s.setPc st n).bounds = s.bounds := by
  unfold State.setPc
  split <;> simp

@[simp] theorem stopAt_bounds (s : State) (why : StopReason) (at_ : Nat) : (s.stopAt why at_).bounds = s.bounds := rfl

@[simp] theorem abortRun_bounds (s : State) (why : RunStatus) : (s.abortRun why).bounds = s.bounds :=
  modRun_bounds s fun r => by split <;> rfl

@[simp] theorem passEnd_bounds (s : State) (st : Stream) : (s.passEnd st).bounds = s.bounds := by
  cases st
  · simp [State.passEnd, apply_ite State.bounds]
  · exact modRun_bounds s fun r => by split <;> rfl

@[simp] theorem goTo_bounds (s : State) (st : Stream) (n : Nat) : (s.goTo st n).bounds = s.bounds := by
  simp [State.goTo]

@[simp] theorem setWait_bounds (s : State) (st : Stream) (w : Option Wait) : (s.setWait st w).bounds = s.bounds := by
  unfold State.setWait
  split <;> simp

@[simp] theorem endWait_bounds (s : State) (st : Stream) (v : BitVec 64) : (s.endWait st v).bounds = s.bounds := by
  unfold State.endWait
  split <;> simp

@[simp] theorem abandonWait_bounds (s : State) (st : Stream) : (s.abandonWait st).bounds = s.bounds := by
  unfold State.abandonWait
  split <;> simp

@[simp] theorem takeDir_bounds (s : State) (sd : BitVec 5) (w : Word) : (s.takeDir sd w).bounds = s.bounds := by
  simp [State.takeDir]

@[simp] theorem dropPicot_bounds (s : State) (st : Stream) (sd : BitVec 5) : (s.dropPicot st sd).bounds = s.bounds := by
  simp [State.dropPicot]

@[simp] theorem waitEffect_bounds (e : Env) (t : State) (a : BitVec 64) : (waitEffect e t a).bounds = t.bounds := by
  unfold waitEffect
  dsimp only
  split <;> simp [apply_ite State.bounds]

@[simp] theorem setSlot_bounds (s : State) (i : Nat) (x : ScaleSlot) : (s.setSlot i x).bounds = s.bounds := rfl

@[simp] theorem dupCheck_bounds (s : State) (i : Nat) : (s.dupCheck i).bounds = s.bounds := by
  unfold State.dupCheck
  dsimp only
  split <;> simp

@[simp] theorem mapSlots_bounds (s : State) (f : ScaleSlot → ScaleSlot) : (s.mapSlots f).bounds = s.bounds :=
  foldl_bounds (fun t _ => setSlot_bounds t _ _) _ _

@[simp] theorem spareSlot_bounds (s : State) (i : Nat) : (s.spareSlot i).bounds = s.bounds := rfl

@[simp] theorem pinSlot_bounds (s : State) (i : Nat) : (s.pinSlot i).bounds = s.bounds := rfl

@[simp] theorem slotErr_bounds (s : State) (e : EccErr) : (s.slotErr e).bounds = s.bounds := by
  simp [State.slotErr, apply_ite State.bounds]

@[simp] theorem slotErrs_bounds (s : State) : s.slotErrs.bounds = s.bounds := foldl_bounds slotErr_bounds _ _

@[simp] theorem loadScale_bounds (s : State) (ws : List Word) : (s.loadScale ws).bounds = s.bounds := by
  unfold State.loadScale
  split
  · split
    · simp
    · refine (foldl_bounds dupCheck_bounds _ _).trans (foldl_bounds (fun t p => ?_) _ _)
      split <;> simp
  · simp

@[simp] theorem slotStore_bounds (s : State) (i : Nat) (r : SlotReg) (v : Word) : (s.slotStore i r v).bounds = s.bounds := by
  have errs := foldl_bounds slotErr_bounds (s.ecc.filter fun e => e.target == .scale && e.word / 2 == i) s
  unfold State.slotStore
  cases r <;> simp [apply_ite State.bounds, errs]

@[simp] theorem flip_bounds (s : State) (t : EccTarget) (w : Nat) (m : BitVec 72) :
    (s.flip t w m).bounds = s.bounds := rfl

@[simp] theorem doHeld_bounds (s : State) (x : HeldWrite) : (s.doHeld x).bounds = s.bounds := by
  unfold State.doHeld
  split <;> simp

@[simp] theorem holdOr_bounds (s : State) (x : HeldWrite) : (s.holdOr x).bounds = s.bounds := by
  simp [State.holdOr, apply_ite State.bounds]

@[simp] theorem inject_bounds (s : State) (t : EccTarget) (w : Nat) (m : BitVec 72) :
    (s.inject t w m).bounds = s.bounds := by
  simp [State.inject, apply_ite State.bounds]

@[simp] theorem releaseHeld_bounds (s : State) : s.releaseHeld.bounds = s.bounds :=
  (foldl_bounds doHeld_bounds _ _).trans (by simp)

@[simp] theorem dropEcc_bounds (s : State) (es : List EccErr) : (s.dropEcc es).bounds = s.bounds := rfl

@[simp] theorem halted_bounds (s : State) (st : Stream) (why : StopReason) (page bit : Nat) (run : RunStatus) :
    (s.halted st why page bit run).bounds = s.bounds := by
  unfold State.halted
  split <;> simp

@[simp] theorem loseLeaf_bounds (s : State) (i : Nat) (b : Bool) : (s.loseLeaf i b).bounds = s.bounds := by
  simp [State.loseLeaf]

@[simp] theorem leafLost_bounds (s : State) (i : Nat) (b : Bool) : (s.leafLost i b).bounds = s.bounds := by
  simp [State.leafLost]

@[simp] theorem leafFails_bounds (s : State) (i : Nat) (b : Bool) : (s.leafFails i b).bounds = s.bounds := by
  simp [State.leafFails, apply_ite State.bounds]

@[simp] theorem recordLane_bounds (e : Env) (t : State) (errs : List LaneErr) : (e.recordLane t errs).bounds = t.bounds := by
  unfold Env.recordLane
  cases errs.getLast? <;> simp

@[simp] theorem setPanel_bounds (s : State) (p : Nat) (x : PanelState) : (s.setPanel p x).bounds = s.bounds := rfl

@[simp] theorem mapSpare_bounds (s : State) (p sp : Nat) : (s.mapSpare p sp).bounds = s.bounds := by
  simp [State.mapSpare, State.setPanel, State.bounds, State.active]

@[simp] theorem proofEnds_bounds (s : State) (result failed arg : Nat) :
    (s.proofEnds result failed arg).bounds = s.bounds := by
  simp [State.proofEnds]

@[simp] theorem moveSlab_bounds (s : State) (h k : Nat) : (s.moveSlab h k).bounds = s.bounds := by
  simp [State.moveSlab]

@[simp] theorem moveLeaf_bounds (s : State) (i : Nat) (b : Bool) : (s.moveLeaf i b).bounds = s.bounds := by
  simp [State.moveLeaf, apply_ite State.bounds]

@[simp] theorem noteSkip_bounds (s : State) (i : Nat) : (s.noteSkip i).bounds = s.bounds := rfl

@[simp] theorem dropTaken_bounds (s : State) (x : Option Taken) : (s.dropTaken x).bounds = s.bounds := by
  unfold State.dropTaken
  split <;> simp

@[simp] theorem spareBad_bounds (s : State) (h cause : Nat) : (s.spareBad h cause).bounds = s.bounds := by
  simp [State.spareBad]

@[simp] theorem scrubErr_bounds (h phys : Nat) (s : State) (e : EccErr) :
    (State.scrubErr h phys s e).bounds = s.bounds := by
  simp [State.scrubErr, apply_ite State.bounds]

@[simp] theorem scrubSlab_bounds (s : State) (h : Nat) : (s.scrubSlab h).bounds = s.bounds := by
  unfold State.scrubSlab
  split
  · rfl
  · simp [apply_ite State.bounds, foldl_bounds (scrubErr_bounds _ _)]

@[simp] theorem proofingDone_bounds (s : State) (bad16 bad17 : Bool) (badSlabs : BitVec 6) :
    (s.proofingDone bad16 bad17 badSlabs).bounds = s.bounds := by
  unfold State.proofingDone
  split
  · dsimp only
    rw [endStruct_bounds, proofEnds_bounds, foldl_bounds (fun t h => spareBad_bounds t h 3),
      foldl_bounds fun t p => by simp]
  · rfl

@[simp] theorem startStaged_bounds (s : State) (src : ActSrc) : (s.startStaged src).bounds = s.bounds := by
  simp [State.startStaged, apply_ite State.bounds]

@[simp] theorem writeFabric_bounds (s : State) (a : Nat) (bs : List Byte) (lost : List LostTarget) (got : Option Nat) :
    (s.writeFabric a bs lost got).1.bounds = s.bounds := by
  simp [State.writeFabric]

@[simp] theorem noteFabric_bounds (s : State) (range gone : Bool) : (s.noteFabric range gone).bounds = s.bounds := by
  simp [State.noteFabric, apply_ite State.bounds]

@[simp] theorem finishLoad_bounds (s : State) (els : List LoadEl) (zeros : List Nat) (range : Bool) (both : List Nat)
    (lost : List LostTarget) (got : Option Nat) : (s.finishLoad els zeros range both lost got).bounds = s.bounds := by
  simp [State.finishLoad]

@[simp] theorem finishStore_bounds (s : State) (els : List StoreEl) (range : Bool)
    (lost : List LostTarget) (got : Option Nat) : (s.finishStore els range lost got).bounds = s.bounds := by
  simp [State.finishStore]

@[simp] theorem mergeRecord_bounds (s : State) (first : Nat) (ws : List Word) : (s.mergeRecord first ws).bounds = s.bounds := by
  have entries : ∀ (l : List (Nat × LedgerEntry)), (l.foldl (fun (t : State) p => t.setEntry (first + p.1) p.2) s).bounds =
      s.bounds := fun l => foldl_bounds (fun t p => by simp) l s
  have longs : ∀ (l : List (Nat × LedgerEntry)), (l.foldl (fun (t : State) p =>
      if p.2.nonempty then t.setEntry (first + p.1) { t.entry (first + p.1) with long := true } else t) s).bounds =
      s.bounds := fun l => foldl_bounds (fun t p => by simp [apply_ite State.bounds]) l s
  have merged : ∀ (l : List (Nat × LedgerEntry)), (l.foldl (fun (t : State) p =>
      (t.setEntry (first + p.1) (mergeEntry (t.entry (first + p.1)) p.2).1).markIf
        (mergeEntry (t.entry (first + p.1)) p.2).2 7 4) s).bounds = s.bounds := fun l =>
    foldl_bounds (fun t p => by simp) l s
  simp [State.mergeRecord, apply_ite State.bounds, entries, longs, merged]

@[simp] theorem perform_bounds (s : State) (op : XferOp) (lost : List LostTarget) (got : Option Nat) :
    (s.perform op lost got).bounds = s.bounds := by
  have written (t : State) (a : Nat) (bs : List Byte) : (t.writeFabric a bs lost got).1.bounds = t.bounds := by
    simp [State.writeFabric]
  cases op <;> simp only [State.perform, finishLoad_bounds, finishStore_bounds, loadScale_bounds, noteFabric_bounds,
    mergeRecord_bounds, slotErrs_bounds, written]

@[simp] theorem popXfer_bounds (s : State) : s.popXfer.bounds = s.bounds := by
  simp [State.popXfer]

@[simp] theorem takeImage_bounds (s : State) (i : Nat) (b : Bool) (ws : List Word) :
    (s.takeImage i b ws).bounds = s.bounds := by
  simp [State.takeImage, apply_ite State.bounds]

@[simp] theorem transferDone_bounds (s : State) (got : Option Nat) : (s.transferDone got).bounds = s.bounds := by
  unfold State.transferDone
  split
  · rfl
  · split <;> simp [apply_ite State.bounds]

@[simp] theorem tbldDone_bounds (s : State) : s.tbldDone.bounds = s.bounds := by
  unfold State.tbldDone
  split <;> simp [apply_ite State.bounds]

@[simp] theorem verdict_bounds (s : State) (t : MeasTarget) (good : Bool) (reason : BitVec 4) :
    (s.verdict t good reason).bounds = s.bounds := by
  unfold State.verdict
  dsimp only
  repeat' split
  all_goals simp

@[simp] theorem verdictTimeout_bounds (s : State) (t : MeasTarget) : (s.verdictTimeout t).bounds = s.bounds := by
  simp [State.verdictTimeout, apply_ite State.bounds]

@[simp] theorem streamEnd_bounds (s : State) : s.streamEnd.bounds = s.bounds := by
  unfold State.streamEnd
  split <;> simp

@[simp] theorem swapNow_bounds (s : State) (i : Nat) : (s.swapNow i).bounds = s.bounds := by
  simp [State.swapNow, apply_ite State.bounds]

@[simp] theorem setBindRep_bounds (s : State) (b : Nat) (x : BindRep) : (s.setBindRep b x).bounds = s.bounds := rfl

@[simp] theorem writeBCtl_bounds (s : State) (b : Nat) (v : Word) : (s.writeBCtl b v).bounds = s.bounds := by
  simp [State.writeBCtl, apply_ite State.bounds]

@[simp] theorem addTrigger_bounds (s : State) (t : Trigger) : (s.addTrigger t).bounds = s.bounds := rfl

@[simp] theorem tileCompletion_bounds (s : State) (tag : Word) (stream : BitVec 16) (data : List (Nat × Word)) :
    (s.tileCompletion tag stream data).bounds = s.bounds := by
  unfold State.tileCompletion
  repeat' split
  all_goals simp

@[simp] theorem writeDrop_bounds (s : State) (b bank : Nat) : (s.writeDrop b bank).bounds = s.bounds := by
  simp [State.writeDrop]

@[simp] theorem mapBank_bounds (s : State) (k : Nat) (f : LedgerEntry → LedgerEntry) : (s.mapBank k f).bounds = s.bounds :=
  foldl_bounds (fun t _ => setEntry_bounds t _ _) _ _

@[simp] theorem foldRows_bounds (s : State) (b k : Nat) (slabs : List (Nat × Nat)) :
    (s.foldRows b k slabs).bounds = s.bounds :=
  foldl_bounds (fun t r => by dsimp only; split <;> simp) _ _

@[simp] theorem emitRecord_bounds (s : State) (b k : Nat) : (s.emitRecord b k).bounds = s.bounds := rfl

@[simp] theorem clearOcc_bounds (s : State) (k : Nat) : (s.clearOcc k).bounds = s.bounds := rfl

@[simp] theorem bandDone_bounds (s : State) (b k : Nat) (tag : Word) (src : BitVec 64) :
    (s.bandDone b k tag src).bounds = s.bounds := by
  simp [State.bandDone, apply_ite State.bounds]

@[simp] theorem recordRun_bounds (s : State) (r : Run) (st : RunStatus) : (s.recordRun r st).bounds = s.bounds := by
  unfold State.recordRun
  split <;> simp

@[simp] theorem nextCompletion_bounds (s : State) : s.nextCompletion.bounds = s.bounds := by
  unfold State.nextCompletion
  repeat' split
  all_goals simp

@[simp] theorem ledgerRelease_bounds (s : State) (k : Nat) : (s.ledgerRelease k).bounds = s.bounds := by
  unfold State.ledgerRelease
  extract_lets x
  split
  · rw [setBank_bounds, mapBank_bounds]
  · rfl

@[simp] theorem maskRequest_bounds (s : State) (m : BitVec 2) (row col : Word) :
    (s.maskRequest m row col).bounds = s.bounds := by
  simp [State.maskRequest, apply_ite State.bounds, foldl_bounds hoopErr_bounds]

@[simp] theorem modMirror_bounds (s : State) (f : MirrorUnit → MirrorUnit) : (s.modMirror f).bounds = s.bounds := rfl

@[simp] theorem setHalf_bounds (s : State) (p : Nat) (h : LogHalf) : (s.setHalf p h).bounds = s.bounds := rfl

@[simp] theorem handMirror_bounds (s : State) (r : MirrorRec) : (s.handMirror r).bounds = s.bounds := by
  simp [State.handMirror, apply_ite State.bounds]

@[simp] theorem nextRegion_bounds (s : State) (op : MirrorOp) (d : RegionTodo) (rest : List RegionTodo) :
    (s.nextRegion op d rest).bounds = s.bounds := by
  unfold State.nextRegion
  dsimp only
  split
  · split <;> simp only [mirrorPush_bounds, modMirror_bounds, noteFabric_bounds]
  · simp only [mirrorPush_bounds, modMirror_bounds, noteFabric_bounds]

@[simp] theorem mirrorFill_bounds (s : State) : s.mirrorFill.bounds = s.bounds := by
  unfold State.mirrorFill
  repeat' split
  all_goals simp

@[simp] theorem mirrorSend_bounds (s : State) : s.mirrorSend.bounds = s.bounds := by
  unfold State.mirrorSend
  split
  · rfl
  · dsimp only
    split <;> simp

@[simp] theorem descTimer_bounds (s : State) : s.descTimer.bounds = s.bounds := by
  simp [State.descTimer, apply_ite State.bounds]

@[simp] theorem opEnd_bounds (s : State) (op : MirrorOp) (status : Nat) : (s.opEnd op status).bounds = s.bounds := rfl

@[simp] theorem opRefuse_bounds (s : State) (op : MirrorOp) (status : Nat) :
    (s.opRefuse op status).bounds = s.bounds := rfl

@[simp] theorem opStart_bounds (s : State) (op : MirrorOp) (todo : List RegionTodo) :
    (s.opStart op todo).bounds = s.bounds := rfl

@[simp] theorem restartMseq_bounds (s : State) : s.restartMseq.bounds = s.bounds := by
  simp [State.restartMseq]

@[simp] theorem startFlush_bounds (s : State) : s.startFlush.bounds = s.bounds := by
  simp [State.startFlush, apply_ite State.bounds]

@[simp] theorem startBase_bounds (s : State) : s.startBase.bounds = s.bounds := by
  simp [State.startBase, apply_ite State.bounds]

@[simp] theorem startRestore_bounds (s : State) : s.startRestore.bounds = s.bounds := by
  simp [State.startRestore, apply_ite State.bounds]

@[simp] theorem startFold_bounds (s : State) (p : Nat) : (s.startFold p).bounds = s.bounds := rfl

@[simp] theorem mirrorCtl_bounds (s : State) {f : State → State} (h : (f s).bounds = s.bounds) :
    (s.mirrorCtl f).bounds = s.bounds := by
  simp [State.mirrorCtl, apply_ite State.bounds, h]

@[simp] theorem foldRequest_bounds (s : State) : s.foldRequest.bounds = s.bounds := by
  unfold State.foldRequest
  split <;> simp

@[simp] theorem opDone_bounds (s : State) (op : MirrorOp) (mkind : Nat) : (s.opDone op mkind).bounds = s.bounds := by
  simp [State.opDone, apply_ite State.bounds]

@[simp] theorem mirrorAcked_bounds (s : State) (m : Word) : (s.mirrorAcked m).bounds = s.bounds := by
  simp [State.mirrorAcked, apply_ite State.bounds]

@[simp] theorem ackTimeout_bounds (s : State) (m : Word) : (s.ackTimeout m).bounds = s.bounds := by
  simp [State.ackTimeout, apply_ite State.bounds]

@[simp] theorem ack_bounds (s : State) (m : Word) : (s.ack m).bounds = s.bounds := rfl

@[simp] theorem noteMseq_bounds (s : State) (m : Word) : (s.noteMseq m).bounds = s.bounds := rfl

theorem seeMseq_bounds (s : State) (m : Word) : (s.seeMseq m).2.bounds = s.bounds := modMirror_bounds s _

@[simp] theorem logRecord_bounds (s : State) (h : List Word) (body : List Byte) : (s.logRecord h body).bounds = s.bounds := by
  simp only [State.logRecord, State.seeMseq, apply_ite State.bounds, modMirror_bounds, setHalf_bounds, ite_self]

@[simp] theorem damageHalf_bounds (s : State) (p : Nat) : (s.damageHalf p).bounds = s.bounds := by
  simp only [State.damageHalf, apply_ite State.bounds, mark_bounds, modMirror_bounds, setHalf_bounds, ite_self]

@[simp] theorem logWriteDone_bounds (s : State) : s.logWriteDone.bounds = s.bounds := by
  unfold State.logWriteDone
  split
  · simp only [apply_ite State.bounds, ack_bounds, damageHalf_bounds, modMirror_bounds, noteFabric_bounds,
      writeFabric_bounds, ite_self]
  · rfl

@[simp] theorem writeRegion_bounds (s : State) (r : Region) (pos : Nat) (body : List Byte) :
    (s.writeRegion r pos body).bounds = s.bounds := by
  simp only [State.writeRegion, noteFabric_bounds, writeFabric_bounds]

@[simp] theorem baseRecord_bounds (s : State) (h : List Word) (body : List Byte) (last : Bool) :
    (s.baseRecord h body last).bounds = s.bounds := by
  unfold State.baseRecord
  extract_lets m t fresh u r v
  have started : u.bounds = s.bounds := by
    simp only [u, t, apply_ite State.bounds, modMirror_bounds, seeMseq_bounds, ite_self]
  clear_value u
  cases last <;> simp [v, apply_ite State.bounds, started]

@[simp] theorem restoreRecord_bounds (s : State) (h : List Word) (body : List Byte) (last : Bool) :
    (s.restoreRecord h body last).bounds = s.bounds := by
  unfold State.restoreRecord
  split
  · rfl
  · extract_lets m t u r v
    have started : u.bounds = s.bounds := by
      simp only [u, t, apply_ite State.bounds, modMirror_bounds, seeMseq_bounds, ite_self]
    clear_value u
    cases last <;> simp [v, apply_ite State.bounds, started]

@[simp] theorem takeMirror_bounds (s : State) (h : List Word) (body : List Byte) :
    (s.takeMirror h body).bounds = s.bounds := by
  unfold State.takeMirror
  split <;> simp

@[simp] theorem foldOne_bounds (base : Nat) (s : State) (k : Nat) : (State.foldOne base s k).bounds = s.bounds := by
  unfold State.foldOne
  dsimp only
  split <;> simp only [mark_bounds, modMirror_bounds, noteFabric_bounds, writeFabric_bounds]

@[simp] theorem mirrorFoldDone_bounds (s : State) : s.mirrorFoldDone.bounds = s.bounds := by
  unfold State.mirrorFoldDone
  split
  · simp only [apply_ite State.bounds, mark_bounds, setHalf_bounds, foldl_bounds (foldOne_bounds _), ite_self]
  · rfl

@[simp] theorem commitHalf_bounds (s : State) (step : BitVec 48) : (s.commitHalf step).bounds = s.bounds := by
  unfold State.commitHalf
  dsimp only
  repeat' split
  all_goals simp

@[simp] theorem abortHalf_bounds (s : State) (step : BitVec 48) : (s.abortHalf step).bounds = s.bounds := by
  simp [State.abortHalf, apply_ite State.bounds]

@[simp] theorem mirrorOpen_bounds (s : State) : s.mirrorOpen.bounds = s.bounds := by
  simp [State.mirrorOpen, apply_ite State.bounds]

@[simp] theorem writeRCtl_bounds (s : State) (img : Bool) (i : Nat) (v : Word) :
    (s.writeRCtl img i v).bounds = s.bounds := by
  simp [State.writeRCtl, apply_ite State.bounds]

@[simp] theorem modNet_bounds (s : State) (f : NetUnit → NetUnit) : (s.modNet f).bounds = s.bounds := rfl

@[simp] theorem planStep_bounds (s : State) (n : Nat) : (s.planStep n).bounds = s.bounds := by
  unfold State.planStep
  split <;> simp [apply_ite State.bounds]

@[simp] theorem arrivalEvent_bounds (s : State) (a : BitVec 37) (tag : Word) :
    (s.arrivalEvent a tag).bounds = s.bounds := by
  unfold State.arrivalEvent
  split <;> simp [apply_ite State.bounds]

@[simp] theorem setArrival_bounds (s : State) (k : Nat) (x : Option Arrival) :
    (s.setArrival k x).bounds = s.bounds := rfl

@[simp] theorem addGone_bounds (s : State) (a : BitVec 37) (n : Nat) : (s.addGone a n).bounds = s.bounds := by
  simp [State.addGone]

@[simp] theorem markMissed_bounds (s : State) : s.markMissed.bounds = s.bounds :=
  foldl_bounds (fun t p => by simp only [apply_ite State.bounds, mark_bounds, setArrival_bounds, ite_self]) _ _

theorem releaseNext_bounds {s t : State} (h : s.releaseNext = some t) : t.bounds = s.bounds := by
  unfold State.releaseNext at h
  dsimp only at h
  split at h
  · split at h
    · cases h
    · cases h
      simp only [apply_ite State.bounds, planStep_bounds, arrivalEvent_bounds, setArrival_bounds, ite_self]
  · split at h
    · cases h
    · split at h <;> cases h <;> simp

@[simp] theorem releaseLoop_bounds (n : Nat) (s : State) : (State.releaseLoop n s).bounds = s.bounds := by
  induction n generalizing s with
  | zero => rfl
  | succ n ih =>
    unfold State.releaseLoop
    split
    · next t h => exact (ih t).trans (releaseNext_bounds h)
    · rfl

@[simp] theorem runPlan_bounds (s : State) : s.runPlan.bounds = s.bounds := by
  simp [State.runPlan]

@[simp] theorem resetPlan_bounds (s : State) : s.resetPlan.bounds = s.bounds := by
  unfold State.resetPlan
  split <;> simp

@[simp] theorem freeArrivals_bounds (s : State) : s.freeArrivals.bounds = s.bounds := by
  have freed : s.freeRecords.issue.retry.isNone = s.issue.retry.isNone :=
    congrArg (fun b => b.2.2.1) (freeRecords_bounds s)
  unfold State.freeArrivals
  dsimp only
  split
  · next r hr =>
    split
    · rw [modIssue_bounds, modNet_bounds, freeRecords_bounds]
      simp only [State.modNet]
      rw [freed, hr]
      rfl
    · simp
  · simp

@[simp] theorem staleDrop_bounds (s : State) : s.staleDrop.bounds = s.bounds := by
  simp [State.staleDrop]

@[simp] theorem placeArrival_bounds (s : State) (k : Nat) (h : List Word) (body : List Byte) (early : Bool) :
    (s.placeArrival k h body early).bounds = s.bounds := rfl

theorem takeExchange_bounds (s t : State) (h : List Word) (body : List Byte) (k : t.bounds = s.bounds) :
    (s.takeExchange t h body).bounds = s.bounds := by
  unfold State.takeExchange
  split
  · simp [k]
  · split <;> simp [k]

theorem takeMirrorRec_bounds (s t : State) (h : List Word) (body : List Byte) (k : t.bounds = s.bounds) :
    (s.takeMirrorRec t h body).bounds = s.bounds := by
  unfold State.takeMirrorRec
  dsimp only
  split
  · simp [k]
  · split
    · simp [k]
    · split
      · simp [k]
      · split <;> simp [apply_ite State.bounds, k]

theorem verify_bounds (s : State) (r : WireRec) : (s.verify r).2.bounds = s.bounds := by
  unfold State.verify
  generalize (if hdrMirror r.hdr then 1 else 0 : Nat) = p
  dsimp only
  split
  · simp
  · split <;> simp

@[simp] theorem recordVerified_bounds (s : State) (r : WireRec) : (s.recordVerified r).bounds = s.bounds := by
  have k := verify_bounds s r
  unfold State.recordVerified
  split
  · rfl
  · split
    · next t e => rw [e] at k; exact k
    · next body t e =>
      rw [e] at k
      split
      · simpa using k
      · split
        · exact takeMirrorRec_bounds s t _ _ k
        · exact takeExchange_bounds s t _ _ k

@[simp] theorem wakeMirror_bounds (s : State) : s.wakeMirror.bounds = s.bounds :=
  (foldl_bounds (fun t r => by split <;> simp [apply_ite State.bounds]) _ _).trans (modMirror_bounds s _)

@[simp] theorem wakeHeld_bounds (s : State) : s.wakeHeld.bounds = s.bounds :=
  (wakeMirror_bounds _).trans (foldl_bounds (fun t p => by
    dsimp only
    split
    · simp
    · split
      · rfl
      · split <;> simp) _ _)

@[simp] theorem foldDone_bounds (s : State) : s.foldDone.bounds = s.bounds := by
  simp [State.foldDone]

@[simp] theorem logDone_bounds (s : State) : s.logDone.bounds = s.bounds := by
  simp [State.logDone, apply_ite State.bounds]

@[simp] theorem recordLeaves_bounds (s : State) : s.recordLeaves.bounds = s.bounds := by
  unfold State.recordLeaves
  split <;> simp

@[simp] theorem dropUnacked_bounds (s : State) (o : OutRec) : (s.dropUnacked o).bounds = s.bounds := by
  simp [State.dropUnacked, apply_ite State.bounds]

@[simp] theorem addCredit_bounds (s : State) (p : BitVec 15) (n : Nat) : (s.addCredit p n).bounds = s.bounds := by
  simp [State.addCredit, apply_ite State.bounds]

@[simp] theorem planClosed_bounds (s : State) {f : State → State} (h : (f s).bounds = s.bounds) :
    (s.planClosed f).bounds = s.bounds := by
  simp [State.planClosed, apply_ite State.bounds, h]

@[simp] theorem writeRx_bounds (s : State) (v : Word) : (s.writeRx v).bounds = s.bounds := rfl

@[simp] theorem writePlanSrc_bounds (s : State) (i : Nat) (v : Word) : (s.writePlanSrc i v).bounds = s.bounds := by
  simp [State.writePlanSrc, apply_ite State.bounds]

@[simp] theorem modPartner_bounds (s : State) (f : PartnerUnit → PartnerUnit) :
    (s.modPartner f).bounds = s.bounds := rfl

@[simp] theorem clearAccPort_bounds (s : State) : s.clearAccPort.bounds = s.bounds := rfl

@[simp] theorem startRoll_bounds (s : State) : s.startRoll.bounds = s.bounds := by
  simp [State.startRoll, apply_ite State.bounds]

@[simp] theorem unbindMe_bounds (s : State) (lost : Byte → Bool) : (s.unbindMe lost).bounds = s.bounds := rfl

@[simp] theorem endTileWaits_bounds (s : State) : s.endTileWaits.bounds = s.bounds := by
  unfold State.endTileWaits
  split
  · rfl
  · refine foldl_bounds (fun t st => ?_) _ _
    split <;> simp [apply_ite State.bounds]

@[simp] theorem coreAbsent_bounds (s : State) : s.coreAbsent.bounds = s.bounds := by
  unfold State.coreAbsent
  rw [modIssue_bounds _ rfl]
  refine (foldl_bounds (fun t p => dropPicot_bounds t _ _) _ _).trans ?_
  split <;> simp [apply_ite State.bounds]

@[simp] theorem meAbsent_bounds (s : State) : s.meAbsent.bounds = s.bounds := by
  simp [State.meAbsent]

@[simp] theorem markAbsent_bounds (s : State) (p : Partner) : (s.markAbsent p).bounds = s.bounds := by
  unfold State.markAbsent
  split <;> simp [apply_ite State.bounds]

@[simp] theorem partnerEvent_bounds (s : State) (p : Partner) : (s.partnerEvent p).bounds = s.bounds := by
  simp [State.partnerEvent, apply_ite State.bounds]

@[simp] theorem discardTo_bounds (s : State) (p : BitVec 15) : (s.discardTo p).bounds = s.bounds :=
  (foldl_bounds (fun t o => by simp) _ _).trans (modNet_bounds s _)

@[simp] theorem buddyAbsent_bounds (s : State) : s.buddyAbsent.bounds = s.bounds :=
  (foldl_bounds (fun t _ => mirrorDiscard_bounds t 1) _ _).trans (by simp)

@[simp] theorem reachNotice_bounds (s : State) (p : BitVec 15) (on : Bool) : (s.reachNotice p on).bounds = s.bounds := by
  simp only [State.reachNotice, apply_ite State.bounds, runPlan_bounds, startRoll_bounds, buddyAbsent_bounds,
    discardTo_bounds, modPartner_bounds, ite_self]

@[simp] theorem probeTimeout_bounds (s : State) (p : Probe) : (s.probeTimeout p).bounds = s.bounds := by
  simp [State.probeTimeout, apply_ite State.bounds]

@[simp] theorem checkBuddy_bounds (s : State) : s.checkBuddy.bounds = s.bounds := by
  unfold State.checkBuddy
  split <;> simp [apply_ite State.bounds]

@[simp] theorem publish_bounds (s : State) : s.publish.bounds = s.bounds := by
  unfold State.publish
  split
  · rfl
  · dsimp only
    rw [runPlan_bounds, mark_bounds]
    refine (checkBuddy_bounds _).trans ?_
    simp only [apply_ite State.bounds, coreAbsent_bounds, meAbsent_bounds, clearAccPort_bounds,
      foldl_bounds loseTarget_bounds, modPartner_bounds, ite_self]

@[simp] theorem couple_bounds (s : State) (c : Coupling) : (s.couple c).bounds = s.bounds := by
  simp [State.couple]

@[simp] theorem changeCoupling_bounds (s : State) (f : Coupling → Coupling) :
    (s.changeCoupling f).bounds = s.bounds := by
  simp [State.changeCoupling, apply_ite State.bounds]

@[simp] theorem couplingChange_bounds (s : State) : s.couplingChange.bounds = s.bounds := by
  unfold State.couplingChange
  split <;> simp [apply_ite State.bounds]

@[simp] theorem writeAccPort_bounds (s : State) (v : Bool) : (s.writeAccPort v).bounds = s.bounds := by
  simp [State.writeAccPort, apply_ite State.bounds]

@[simp] theorem writeMeSrc_bounds (s : State) (v : Word) (present serving : Bool) :
    (s.writeMeSrc v present serving).bounds = s.bounds := by
  simp [State.writeMeSrc, apply_ite State.bounds]

@[simp] theorem writeBuddy_bounds (s : State) (v : Word) : (s.writeBuddy v).bounds = s.bounds := rfl

@[simp] theorem rollRequest_bounds (s : State) : s.rollRequest.bounds = s.bounds := by
  simp [State.rollRequest, apply_ite State.bounds]

@[simp] theorem modTrouble_bounds (s : State) (f : TroubleUnit → TroubleUnit) :
    (s.modTrouble f).bounds = s.bounds := rfl

@[simp] theorem startSnap_bounds (s : State) : s.startSnap.bounds = s.bounds := by
  simp [State.startSnap, apply_ite State.bounds]

@[simp] theorem snapshotDone_bounds (s : State) : s.snapshotDone.bounds = s.bounds := by
  unfold State.snapshotDone
  split <;> simp [apply_ite State.bounds]

@[simp] theorem clearCounters_bounds (s : State) : s.clearCounters.bounds = s.bounds := rfl

@[simp] theorem darnApply_bounds (s : State) : s.darnApply.bounds = s.bounds := by
  simp [State.darnApply, apply_ite State.bounds]

@[simp] theorem startProof_bounds (s : State) (a : Nat) : (s.startProof a).bounds = s.bounds := by
  simp [State.startProof, apply_ite State.bounds]

@[simp] theorem discardWait_bounds (s : State) (st : Stream) : (s.discardWait st).bounds = s.bounds := by
  unfold State.discardWait
  split
  · rfl
  · split <;> simp

@[simp] theorem restitchDone_bounds (s : State) : s.restitchDone.bounds = s.bounds := by
  simp [State.restitchDone, apply_ite State.bounds]

@[simp] theorem modClock_bounds (s : State) (f : ClockUnit → ClockUnit) : (s.modClock f).bounds = s.bounds := rfl

@[simp] theorem writeEntry_bounds (s : State) (i k : Nat) (v : Word) : (s.writeEntry i k v).bounds = s.bounds := by
  simp [State.writeEntry, apply_ite State.bounds]

@[simp] theorem prickSkip_bounds (s : State) : s.prickSkip.bounds = s.bounds := by
  simp [State.prickSkip]

@[simp] theorem schedule_bounds (s : State) (i : Nat) : (s.schedule i).bounds = s.bounds := by
  simp [State.schedule, apply_ite State.bounds]

@[simp] theorem matchEntries_bounds (s : State) (code : Nat) (step : BitVec 48) :
    (s.matchEntries code step).bounds = s.bounds :=
  foldl_bounds (fun t i => by simp only [apply_ite State.bounds, schedule_bounds, ite_self]) _ _

theorem startScrub_bounds (acc : State × Bool) (h : Nat) : (State.startScrub acc h).1.bounds = acc.1.bounds := by
  unfold State.startScrub
  dsimp only
  split
  · rfl
  · split <;> simp

@[simp] theorem startEntry_bounds (s : State) (i : Nat) : (s.startEntry i).bounds = s.bounds := by
  have scrubs : ∀ l : List Nat, ((l.foldl State.startScrub (s, false)).1).bounds = s.bounds := fun l =>
    foldl_keeps (fun acc : State × Bool => acc.1.bounds) _ startScrub_bounds l (s, false)
  unfold State.startEntry
  dsimp only
  split <;> simp only [apply_ite State.bounds, prickSkip_bounds, requestSwap_bounds, startSnap_bounds, startFlush_bounds,
    startStruct_bounds, startStaged_bounds, scrubs, ite_self]

@[simp] theorem prickingStart_bounds (s : State) (i : Nat) : (s.prickingStart i).bounds = s.bounds := by
  simp only [State.prickingStart, apply_ite State.bounds, startEntry_bounds, setReg_bounds, modClock_bounds, ite_self]

@[simp] theorem abortEffects_bounds (s : State) : s.abortEffects.bounds = s.bounds := by
  simp only [State.abortEffects, apply_ite State.bounds, modClock_bounds, abortHalf_bounds, resetPlan_bounds,
    freeArrivals_bounds, mapSlots_bounds, ite_self]

@[simp] theorem openStep_bounds (s : State) (step : BitVec 48) : (s.openStep step).bounds = s.bounds := by
  simp only [State.openStep, runPlan_bounds, wakeHeld_bounds, resetPlan_bounds, mirrorOpen_bounds, spend_bounds]
  rfl

@[simp] theorem liveSeeds_bounds (s : State) : s.liveSeeds.bounds = s.bounds := by
  simp [State.liveSeeds, apply_ite State.bounds]

@[simp] theorem markOpen_bounds (s : State) (step : BitVec 48) : (s.markOpen step).bounds = s.bounds := by
  simp only [State.markOpen, apply_ite State.bounds, liveSeeds_bounds, openStep_bounds, modClock_bounds, markIf_bounds,
    mark_bounds, abortEffects_bounds, ite_self]

@[simp] theorem markPhase_bounds (s : State) (code : Nat) : (s.markPhase code).bounds = s.bounds := by
  simp [State.markPhase]

@[simp] theorem markUpdate_bounds (s : State) : s.markUpdate.bounds = s.bounds := rfl

@[simp] theorem markCommit_bounds (s : State) : s.markCommit.bounds = s.bounds := by
  simp [State.markCommit]

@[simp] theorem waitMark_bounds (s : State) (code : BitVec 4) : (s.waitMark code).bounds = s.bounds := rfl

@[simp] theorem applyMark_bounds (s : State) (f : Frame) : (s.applyMark f).bounds = s.bounds := by
  unfold State.applyMark
  dsimp only
  repeat' split
  all_goals simp

@[simp] theorem takeSeq_bounds (s : State) (seq : BitVec 8) : (s.takeSeq seq).bounds = s.bounds := by
  unfold State.takeSeq
  split <;> simp [apply_ite State.bounds]

@[simp] theorem acceptFrame_bounds (s : State) (f : Frame) : (s.acceptFrame f).bounds = s.bounds := by
  simp [State.acceptFrame, apply_ite State.bounds]

@[simp] theorem receive_bounds (s : State) (f : Frame) (ok : Nat → Bool) : (s.receive f ok).bounds = s.bounds := by
  simp [State.receive, apply_ite State.bounds]

@[simp] theorem clockQuiet_bounds (s : State) : s.clockQuiet.bounds = s.bounds := by
  simp [State.clockQuiet, apply_ite State.bounds]

@[simp] theorem guardFreeze_bounds (s : State) : s.guardFreeze.bounds = s.bounds := by
  simp [State.guardFreeze, apply_ite State.bounds]

@[simp] theorem commitWalk_bounds (s : State) : s.commitWalk.bounds = s.bounds := by
  unfold State.commitWalk
  split <;> simp [apply_ite State.bounds]

@[simp] theorem commitWalkEnd_bounds (s : State) : s.commitWalkEnd.bounds = s.bounds := by
  simp [State.commitWalkEnd, apply_ite State.bounds]

@[simp] theorem rejoin_bounds (s : State) : s.rejoin.bounds = s.bounds := by
  simp only [State.rejoin, apply_ite State.bounds, storeBusy_bounds, mark_bounds, modClock_bounds, openStep_bounds,
    ite_self]

@[simp] theorem refuseRest_bounds (s : State) (why : Nat) : (s.refuseRest why).bounds = s.bounds := rfl

@[simp] theorem closeTest_bounds (s : State) : s.closeTest.bounds = s.bounds := by
  simp [State.closeTest, apply_ite State.bounds]

@[simp] theorem enterRest_bounds (s : State) (r : Rest) : (s.enterRest r).bounds = s.bounds := by
  simp [State.enterRest, apply_ite State.bounds]

@[simp] theorem restRequest_bounds (s : State) (req : BitVec 2) : (s.restRequest req).bounds = s.bounds := by
  simp [State.restRequest, apply_ite State.bounds]

@[simp] theorem restRoll_bounds (s : State) : s.restRoll.bounds = s.bounds := by
  simp [State.restRoll, apply_ite State.bounds]

@[simp] theorem zeroise_bounds (s : State) : s.zeroise.bounds = s.bounds := rfl

@[simp] theorem restExit_bounds (s : State) : s.restExit.bounds = s.bounds := by
  simp [State.restExit]

@[simp] theorem goIssue_bounds (s : State) : s.goIssue.bounds = s.bounds := by
  simp [State.goIssue, apply_ite State.bounds]

@[simp] theorem stopIssue_bounds (s : State) : s.stopIssue.bounds = s.bounds := by
  simp [State.stopIssue, apply_ite State.bounds]

@[simp] theorem issueStop_bounds (s : State) : s.issueStop.bounds = s.bounds := by
  unfold State.issueStop
  split <;> simp [apply_ite State.bounds]

@[simp] theorem waitEnd_bounds (s : State) (st : Stream) : (s.waitEnd st).bounds = s.bounds := by
  unfold State.waitEnd
  split <;> simp [apply_ite State.bounds]

@[simp] theorem waitTimeout_bounds (s : State) (st : Stream) : (s.waitTimeout st).bounds = s.bounds := by
  unfold State.waitTimeout
  split <;> simp [apply_ite State.bounds]

@[simp] theorem dirTimeout_bounds (s : State) : s.dirTimeout.bounds = s.bounds := by
  unfold State.dirTimeout
  split <;> simp [apply_ite State.bounds]

@[simp] theorem directionWord_bounds (s : State) (w : Word) : (s.directionWord w).bounds = s.bounds := by
  unfold State.directionWord
  split
  · rfl
  · split <;> simp

@[simp] theorem dirWordWrite_bounds (s : State) (w : Word) (sameCycle : Bool) :
    (s.dirWordWrite w sameCycle).bounds = s.bounds := by
  simp [State.dirWordWrite, apply_ite State.bounds]

@[simp] theorem picotPost_bounds (s : State) : s.picotPost.bounds = s.bounds := by
  unfold State.picotPost
  split
  · rfl
  · split
    · rfl
    · dsimp only
      split
      · rw [dropPicot_bounds, modIssue_bounds _ rfl]
      · rw [modCtx_bounds _ _ fun c => setS_shape c _ _, modIssue_bounds _ rfl, modIssue_bounds _ rfl]

@[simp] theorem mailboxTaken_bounds (s : State) : s.mailboxTaken.bounds = s.bounds := rfl

@[simp] theorem keyLoad_bounds (s : State) (k : Nat) (key : BitVec 256) : (s.keyLoad k key).bounds = s.bounds := by
  simp [State.keyLoad, apply_ite State.bounds]

@[simp] theorem seal_bounds (s : State) : s.seal.bounds = s.bounds := by
  simp [State.seal, apply_ite State.bounds]

@[simp] theorem unseal_bounds (s : State) : s.unseal.bounds = s.bounds := by
  simp [State.unseal, apply_ite State.bounds]

@[simp] theorem advance_bounds (s : State) (p off size width : Nat) :
    (s.advance p off size width).bounds = s.bounds := by
  simp [State.advance, apply_ite State.bounds]

@[simp] theorem advanceHoop_bounds (s : State) : s.advanceHoop.bounds = s.bounds := by
  simp [State.advanceHoop, apply_ite State.bounds]

@[simp] theorem leafSound_bounds (s : State) : s.leafSound.bounds = s.bounds := by
  simp [State.leafSound, apply_ite State.bounds]

theorem readEffect_bounds (s : State) (p off : Nat) : (s.readEffect p off).2.bounds = s.bounds := by
  have hoop : s.readHoop.2.bounds = s.bounds := by
    unfold State.readHoop
    split <;> simp [foldl_bounds hoopErr_bounds]
  have errs := fun l : List EccErr => foldl_bounds slotErr_bounds l s
  unfold State.readEffect
  split <;> simp [hoop, apply_ite (fun x : Word × State => x.2.bounds), errs]

theorem readReg_bounds (s : State) (p off : Nat) : (s.readReg p off).2.bounds = s.bounds := by
  have effect := readEffect_bounds s p off
  unfold State.readReg
  dsimp only
  split
  · split
    · simp
    · split <;> simpa using effect
  · split <;> simpa using effect

@[simp] theorem mmioRead_bounds (s : State) (p off : Nat) (size : AccSize) : (s.mmioRead p off size).bounds = s.bounds := by
  unfold State.mmioRead
  split
  · simp
  · split
    · rfl
    · exact (by simp : State.bounds { (s.readReg p off).2 with mmioOut := _ } = _).trans (readReg_bounds s p off)

@[simp] theorem write_bounds (s : State) (w : Writer) (p : Nat) {f : State → State} (h : (f s).bounds = s.bounds) :
    (s.write w p f).bounds = s.bounds := by
  simp [State.write, apply_ite State.bounds, h]

@[simp] theorem stoppedWrite_bounds (s : State) (p : Nat) {f : State → State} (h : (f s).bounds = s.bounds) :
    (s.stoppedWrite p f).bounds = s.bounds := by
  simp [State.stoppedWrite, apply_ite State.bounds, h]

@[simp] theorem mirrorClosed_bounds (s : State) {f : State → State} (h : (f s).bounds = s.bounds) :
    (s.mirrorClosed f).bounds = s.bounds := by
  simp [State.mirrorClosed, apply_ite State.bounds, h]

@[simp] theorem writeLock_bounds (s : State) (w : Writer) (p : Nat) (v : Word) :
    (s.writeLock w p v).bounds = s.bounds := by
  simp [State.writeLock, apply_ite State.bounds]

@[simp] theorem writePstore_bounds (s : State) (v : Word) : (s.writePstore v).bounds = s.bounds := by
  simp [State.writePstore]

@[simp] theorem writeContext_bounds (s : State) (off : Nat) (v : Word) : (s.writeContext off v).bounds = s.bounds := by
  refine stoppedWrite_bounds s 1 ?_
  dsimp only
  split
  · exact modCtx_bounds s .main fun c => setS_shape c _ _
  · exact modCtx_bounds s .main fun c => by split <;> rfl

@[simp] theorem writeStride_bounds (s : State) (j : Nat) (v : Word) : (s.writeStride j v).bounds = s.bounds := by
  simp [State.writeStride]

@[simp] theorem writeCarry_bounds (s : State) (c : Nat) (ctl : Bool) (v : Word) :
    (s.writeCarry c ctl v).bounds = s.bounds := by
  simp [State.writeCarry]

@[simp] theorem writeHoopData_bounds (s : State) (v : Word) : (s.writeHoopData v).bounds = s.bounds := by
  unfold State.writeHoopData
  split <;> simp [apply_ite State.bounds]

@[simp] theorem writeSwap_bounds (s : State) (i : Nat) : (s.writeSwap i).bounds = s.bounds := by
  simp [State.writeSwap, apply_ite State.bounds]

@[simp] theorem slotWrite_bounds (s : State) (r : SlotReg) (v : Word) : (s.slotWrite r v).bounds = s.bounds := by
  simp [State.slotWrite, apply_ite State.bounds]

@[simp] theorem seedWrite_bounds (s : State) (f : TwistUnit → TwistUnit) : (s.seedWrite f).bounds = s.bounds := by
  simp [State.seedWrite, apply_ite State.bounds]

@[simp] theorem writeLive_bounds (s : State) (k : Nat) (v : Word) : (s.writeLive k v).bounds = s.bounds := by
  simp [State.writeLive]

@[simp] theorem writeStaged_bounds (s : State) (k : Nat) (v : Word) : (s.writeStaged k v).bounds = s.bounds := rfl

@[simp] theorem writeStep_bounds (s : State) (hi : Bool) (v : Word) : (s.writeStep hi v).bounds = s.bounds := by
  simp [State.writeStep]

@[simp] theorem writeBind_bounds (s : State) (b k : Nat) (v : Word) : (s.writeBind b k v).bounds = s.bounds := by
  unfold State.writeBind
  split <;> simp [apply_ite State.bounds]

@[simp] theorem writeEstore_bounds (s : State) (v : Word) : (s.writeEstore v).bounds = s.bounds := by
  simp [State.writeEstore, apply_ite State.bounds]

@[simp] theorem writeRelease_bounds (s : State) (k : Nat) : (s.writeRelease k).bounds = s.bounds := by
  rw [State.writeRelease, ledgerRelease_bounds, setBank_bounds]

@[simp] theorem measureEdge_bounds (s : State) : s.measureEdge.bounds = s.bounds := by
  simp [State.measureEdge, apply_ite State.bounds]

@[simp] theorem writeStage_bounds (s : State) (v : Word) : (s.writeStage v).bounds = s.bounds := by
  simp [State.writeStage, apply_ite State.bounds]

@[simp] theorem testWrite_bounds (s : State) {f : State → State} (h : (f s).bounds = s.bounds) :
    (s.testWrite f).bounds = s.bounds := by
  simp [State.testWrite, apply_ite State.bounds, h]

@[simp] theorem writeLocal_bounds (s : State) (v : Bool) : (s.writeLocal v).bounds = s.bounds := by
  simp [State.writeLocal, apply_ite State.bounds]

@[simp] theorem injGo_bounds (s : State) : s.injGo.bounds = s.bounds := by
  unfold State.injGo
  split <;> simp [apply_ite State.bounds]

@[simp] theorem localMark_bounds (s : State) (v : Word) : (s.localMark v).bounds = s.bounds := by
  simp [State.localMark, apply_ite State.bounds]

@[simp] theorem testCtrl_bounds (s : State) (v : Word) : (s.testCtrl v).bounds = s.bounds := by
  simp [State.testCtrl, apply_ite State.bounds]

@[simp] theorem mirrorPageCtrl_bounds (s : State) (v : Word) : (s.mirrorPageCtrl v).bounds = s.bounds := by
  unfold State.mirrorPageCtrl
  simp only [apply_ite State.bounds, rejoin_bounds, mirrorCtl_bounds _ (foldRequest_bounds _),
    mirrorCtl_bounds _ (startRestore_bounds _), mirrorCtl_bounds _ (startBase_bounds _),
    mirrorCtl_bounds _ (startFlush_bounds _), setReg_bounds, ite_self]

@[simp] theorem partnerCtrl_bounds (s : State) (v : Word) : (s.partnerCtrl v).bounds = s.bounds := by
  simp [State.partnerCtrl, apply_ite State.bounds]

@[simp] theorem writeIssue_bounds (s : State) (off : Nat) (v : Word) : (s.writeIssue off v).bounds = s.bounds := by
  have stopPc : (s.stoppedWrite 1 fun s => s.setReg 1 off (v &&& 0x7FF)).bounds = s.bounds :=
    stoppedWrite_bounds s 1 rfl
  simp only [State.writeIssue, apply_ite State.bounds, stopPc, dirWordWrite_bounds, writePstore_bounds,
    writeContext_bounds, ite_self]

@[simp] theorem writeHoops_bounds (s : State) (off : Nat) (v : Word) : (s.writeHoops off v).bounds = s.bounds := by
  simp [State.writeHoops, apply_ite State.bounds]

@[simp] theorem writeMotif_bounds (s : State) (off : Nat) (v : Word) : (s.writeMotif off v).bounds = s.bounds := by
  simp [State.writeMotif, apply_ite State.bounds]

@[simp] theorem writeScale_bounds (s : State) (off : Nat) (v : Word) : (s.writeScale off v).bounds = s.bounds := by
  simp [State.writeScale, apply_ite State.bounds]

@[simp] theorem writeTwist_bounds (s : State) (off : Nat) (v : Word) : (s.writeTwist off v).bounds = s.bounds := by
  simp [State.writeTwist, apply_ite State.bounds]

@[simp] theorem writeEdging_bounds (s : State) (off : Nat) (v : Word) : (s.writeEdging off v).bounds = s.bounds := by
  simp [State.writeEdging, apply_ite State.bounds]

@[simp] theorem writeNet_bounds (s : State) (off : Nat) (v : Word) : (s.writeNet off v).bounds = s.bounds := by
  unfold State.writeNet
  split
  · exact planClosed_bounds s (writeRx_bounds s v)
  · split
    · exact planClosed_bounds s (by simp [apply_ite State.bounds])
    · rfl

@[simp] theorem writeMirror_bounds (s : State) (off : Nat) (v : Word) : (s.writeMirror off v).bounds = s.bounds := by
  unfold State.writeMirror
  split
  · simp [apply_ite State.bounds]
  · split
    · exact mirrorClosed_bounds s (writeRCtl_bounds ..)
    · split
      · exact mirrorClosed_bounds s (setReg_bounds ..)
      · rfl

@[simp] theorem writePrick_bounds (s : State) (off : Nat) (v : Word) : (s.writePrick off v).bounds = s.bounds := by
  simp [State.writePrick, apply_ite State.bounds]

@[simp] theorem writeTrouble_bounds (s : State) (off : Nat) (v : Word) : (s.writeTrouble off v).bounds = s.bounds := by
  simp [State.writeTrouble, apply_ite State.bounds]

@[simp] theorem writeTest_bounds (s : State) (off : Nat) (v : Word) : (s.writeTest off v).bounds = s.bounds := by
  refine testWrite_bounds s ?_
  split <;> simp only [setReg_bounds, localMark_bounds]

end Sys2Proof.Machine
end

section
/-!
SUPPORT. What the steps that do change the bounds keep (R42, R52, R56): a panel lost clamps the lengths, or waits with the
aborted bundle whose boundary clamps them; grants and register writes stay within VLMAX; a reset or a new run starts with
lengths of 0. Each step of the model has its lemma `…_keepsBounded`.
-/

namespace Sys2Proof.Machine

/-! ### The lengths and VLMAX -/

theorem active_of_bounds {s t : State} (h : s.bounds = t.bounds) : s.active = t.active := congrArg (fun b => b.1) h

theorem resetting_of_bounds {s t : State} (h : s.bounds = t.bounds) : s.resetting = t.resetting :=
  congrArg (fun b => b.2.1) h

theorem retry_of_bounds {s t : State} (h : s.bounds = t.bounds) : s.issue.retry.isNone = t.issue.retry.isNone :=
  congrArg (fun b => b.2.2.1) h

theorem shape_of_bounds {s t : State} (h : s.bounds = t.bounds) : s.ctx.shape = t.ctx.shape :=
  congrArg (fun b => b.2.2.2.1) h

theorem runShape_of_bounds {s t : State} (h : s.bounds = t.bounds) :
    (s.edging.run.map fun r => r.ctx.shape) = t.edging.run.map fun r => r.ctx.shape :=
  congrArg (fun b => b.2.2.2.2) h

theorem vlmax_of_active {s t : State} (h : s.active = t.active) (ew : EW) : s.vlmax ew = t.vlmax ew := by
  simp only [State.vlmax, State.vlmaxAt, h]

theorem within_of_shape {s t : State} (h : s.active = t.active) {c d : Ctx} (k : c.shape = d.shape) :
    s.within c ↔ t.within d := by
  simp only [Ctx.shape, Prod.mk.injEq] at k
  simp only [State.within, vlmax_of_active h, k]

/-- The bounds decide `State.bounded`. -/
theorem bounded_of_bounds {s t : State} (h : t.bounds = s.bounds) (b : s.bounded) : t.bounded := by
  obtain ⟨sixteen, lengths⟩ := b
  have active := active_of_bounds h
  refine ⟨active ▸ sixteen, fun reset retry => ?_⟩
  have unaborted : s.issue.retry = none := by
    have := retry_of_bounds h
    rw [retry] at this
    exact Option.isNone_iff_eq_none.mp this.symm
  obtain ⟨main, edge⟩ := lengths (resetting_of_bounds h ▸ reset) unaborted
  refine ⟨(within_of_shape active (shape_of_bounds h)).mpr main, fun r hr => ?_⟩
  have shapes := runShape_of_bounds h
  rw [hr] at shapes
  obtain ⟨q, hq, k⟩ := Option.map_eq_some_iff.mp shapes.symm
  exact (within_of_shape active k.symm).mpr (edge q hq)

/-- A step of the model that keeps `State.bounded`. -/
def KeepsBounded (s t : State) : Prop := s.bounded → t.bounded

namespace KeepsBounded

theorem refl (s : State) : KeepsBounded s s := id

theorem trans {s t u : State} (h : KeepsBounded s t) (k : KeepsBounded t u) : KeepsBounded s u := k ∘ h

theorem of_bounds {s t : State} (h : t.bounds = s.bounds) : KeepsBounded s t := bounded_of_bounds h

theorem after {s t u : State} (h : KeepsBounded s t) (k : u.bounds = t.bounds) : KeepsBounded s u :=
  h.trans (of_bounds k)

theorem before {s t u : State} (k : t.bounds = s.bounds) (h : KeepsBounded t u) : KeepsBounded s u :=
  (of_bounds k).trans h

end KeepsBounded

/-- Without a run of its stream's own the lengths are those of the main program; a reset context is within any VLMAX. -/
theorem within_reset (s : State) : s.within Ctx.reset := ⟨Nat.zero_le _, Nat.zero_le _⟩

/-- While a reset runs or an aborted bundle waits only the panels are bounded. -/
theorem bounded_of_waits {s : State} (h : s.active ≤ 16) (k : s.resetting ≠ none ∨ s.issue.retry ≠ none) : s.bounded :=
  ⟨h, fun reset retry => (k.elim (· reset) (· retry)).elim⟩

/-! ### Clamped lengths (R56, R42) -/

@[simp] theorem markIf_active (s : State) (c : Bool) (p b : Nat) : (s.markIf c p b).active = s.active :=
  active_of_bounds (markIf_bounds s c p b)

@[simp] theorem modCtx_active (s : State) (st : Stream) (f : Ctx → Ctx) : (s.modCtx st f).active = s.active := by
  cases st <;> rfl

@[simp] theorem clampOne_active (s : State) (st : Stream) : (s.clampOne st).active = s.active := by
  simp [State.clampOne]

@[simp] theorem clampLengths_active (s : State) : s.clampLengths.active = s.active := by
  simp [State.clampLengths]

@[simp] theorem markIf_streams (s : State) (c : Bool) (p b : Nat) : (s.markIf c p b).streams = s.streams := by
  cases c
  · rfl
  · exact mark_streams s p b

/-- What clamping does to both streams' contexts. -/
theorem clampOne_streams (s : State) (st : Stream) : (s.clampOne st).streams =
    (s.modCtx st fun c => { c with vl := min c.vl (s.vlmax (s.ctxOf st).ew),
                                   rowshape := min c.rowshape (s.vlmax (s.ctxOf st).ew) }).streams := by
  simp [State.clampOne]

theorem clampLengths_main (s : State) : s.within s.clampLengths.ctx := by
  have main : s.clampLengths.ctx = (s.clampOne .main).ctx := by
    have := clampOne_streams (s.clampOne .main) .edge
    simp only [State.streams, State.modCtx, Prod.mk.injEq] at this
    exact this.1
  have clamped := clampOne_streams s .main
  simp only [State.streams, State.modCtx, Prod.mk.injEq] at clamped
  rw [main, clamped.1]
  exact ⟨Nat.min_le_right _ _, Nat.min_le_right _ _⟩

theorem clampLengths_edge (s : State) {r : Run} (h : s.clampLengths.edging.run = some r) : s.within r.ctx := by
  have clamped := clampOne_streams (s.clampOne .main) .edge
  simp only [State.streams, State.modCtx, Prod.mk.injEq] at clamped
  rw [State.clampLengths, clamped.2] at h
  obtain ⟨q, hq, rfl⟩ := Option.map_eq_some_iff.mp h
  have ew : ((s.clampOne .main).ctxOf .edge).ew = q.ctx.ew := by simp [State.ctxOf, hq]
  rw [ew, vlmax_of_active (clampOne_active s .main)]
  exact ⟨Nat.min_le_right _ _, Nat.min_le_right _ _⟩

theorem clampLengths_bounded {s : State} (h : s.active ≤ 16) : s.clampLengths.bounded :=
  ⟨by simpa using h, fun _ _ => ⟨(within_of_shape (clampLengths_active s) rfl).mpr (clampLengths_main s),
    fun _ hr => (within_of_shape (clampLengths_active s) rfl).mpr (clampLengths_edge s hr)⟩⟩

/-! ### Panels that go (R334) -/

/-- The active panels do not grow, and the other bounds stay. -/
def Narrows (s t : State) : Prop := t.active ≤ s.active ∧ t.bounds.2 = s.bounds.2

namespace Narrows

theorem refl (s : State) : Narrows s s := ⟨Nat.le_refl _, rfl⟩

theorem trans {s t u : State} (h : Narrows s t) (k : Narrows t u) : Narrows s u :=
  ⟨k.1.trans h.1, k.2.trans h.2⟩

theorem of_bounds {s t : State} (h : t.bounds = s.bounds) : Narrows s t :=
  ⟨(active_of_bounds h).le, congrArg (fun b => b.2) h⟩

theorem after {s t u : State} (h : Narrows s t) (k : u.bounds = t.bounds) : Narrows s u := h.trans (of_bounds k)

theorem before {s t u : State} (k : t.bounds = s.bounds) (h : Narrows t u) : Narrows s u := (of_bounds k).trans h

theorem foldl {α : Type} {f : State → α → State} (h : ∀ s a, Narrows s (f s a)) (l : List α) (s : State) :
    Narrows s (l.foldl f s) := by
  induction l generalizing s with
  | nil => exact refl s
  | cons a l ih => exact (h s a).trans (ih _)

theorem clamped {s t : State} (h : Narrows s t) : KeepsBounded s t.clampLengths :=
  fun b => clampLengths_bounded (h.1.trans b.1)

theorem keeps_of_retry {s t : State} (h : Narrows s t) (k : t.issue.retry ≠ none) : KeepsBounded s t :=
  fun b => bounded_of_waits (h.1.trans b.1) (.inr k)

theorem retry {s t : State} (h : Narrows s t) : t.issue.retry.isNone = s.issue.retry.isNone :=
  congrArg (fun b => b.2.1) h.2

end Narrows

/-- An aborted bundle that still waits, whatever of it changes. -/
theorem setRetry_bounds {s : State} {r q : Retry} (h : s.issue.retry = some r) :
    (s.setRetry (some q)).bounds = s.bounds := modIssue_bounds s (by simp [h])

theorem filterPanels_narrows (s : State) (p : Nat → Bool) : Narrows s { s with panelMap := s.panelMap.filter p } :=
  ⟨List.length_filter_le _ _, rfl⟩

theorem dropPanel_narrows (s : State) (p : Nat) : Narrows s (s.dropPanel p) :=
  .before (setPanel_bounds s p .retired) (filterPanels_narrows _ _)

theorem losePanel_narrows (s : State) (p : Nat) : Narrows s (s.losePanel p) := by
  unfold State.losePanel
  split
  · next r hr => exact .of_bounds ((setRetry_bounds (by exact hr)).trans (setPanel_bounds s p .retired))
  · exact (dropPanel_narrows s p).after (settleCap_bounds _ _)

/-- A panel lost and logged. -/
theorem losePanel_logDarn_narrows (s : State) (p : Nat) : Narrows s ((s.losePanel p).logDarn 1 0 p) :=
  (losePanel_narrows s p).after (logDarn_bounds ..)

theorem startDarn_narrows (s : State) (p : Nat) : Narrows s (s.startDarn p) := by
  unfold State.startDarn
  split
  · exact .refl s
  · split
    · exact losePanel_logDarn_narrows s p
    · refine .before (setPanel_bounds s p .retired) (.of_bounds ?_)
      dsimp only
      split
      · simp
      · split <;> simp
      · simp

theorem flushDarns_narrows (n : Nat) (s : State) : Narrows s (State.flushDarns n s) := by
  induction n generalizing s with
  | zero => exact .refl s
  | succ n ih =>
    unfold State.flushDarns
    split
    · exact ((losePanel_logDarn_narrows s _).after (endStruct_bounds _)).trans (ih _)
    · exact .refl s

theorem darn_narrows (s : State) (p : Nat) (pass16 pass17 : Bool) : Narrows s (s.darn p pass16 pass17) := by
  unfold State.darn
  extract_lets try_ r
  have tried (acc : State × Bool) (sp : Nat) : (try_ acc sp).1.bounds = acc.1.bounds := by
    simp only [try_, apply_ite (fun x : State × Bool => x.1.bounds), settleCap_bounds, logDarn_bounds, mapSpare_bounds,
      setPanel_bounds, ite_self]
  have both : r.1.bounds = s.bounds := (tried _ 17).trans (tried (s, false) 16)
  clear_value r
  split
  · exact .of_bounds both
  · exact .before both (losePanel_logDarn_narrows _ _)

theorem darningDone_keepsBounded (s : State) (pass16 pass17 : Bool) : KeepsBounded s (s.darningDone pass16 pass17) := by
  unfold State.darningDone
  split
  · next p _ _ =>
    have darned : Narrows s (State.flushDarns 18 ((s.darn p pass16 pass17).endStruct)) :=
      ((darn_narrows s p pass16 pass17).after (endStruct_bounds _)).trans (flushDarns_narrows 18 _)
    dsimp only
    split
    · next r hr =>
      have waits := darned.keeps_of_retry (by rw [hr]; exact Option.some_ne_none r)
      split
      · exact waits
      · exact waits.after (setRetry_bounds hr)
    · exact darned.clamped
  · exact .refl s

theorem stagePanel_narrows {s t : State} {kind p : Nat} (h : s.stagePanel kind p = .applied t) : Narrows s t := by
  unfold State.stagePanel at h
  split at h
  · cases h
  · split at h
    · cases h
      exact .of_bounds (setPanel_bounds s p .bad)
    · split at h
      · cases h
      · split at h
        · cases h
          exact .of_bounds (mapSpare_bounds s p _)
        · cases h
          exact losePanel_narrows s p
    · cases h

theorem stageHoop_bounds {s t : State} {kind unit cause : Nat} (h : s.stageHoop kind unit cause = .applied t) :
    t.bounds = s.bounds := by
  unfold State.stageHoop at h
  generalize (if kind = 4 then unit else unit / 16) = n at h
  dsimp only at h
  split at h
  · cases h
  · split at h
    · split at h
      · cases h
      · split at h
        · cases h
          simp
        · split at h <;> cases h
          simp
        · cases h
          simp
    · split at h <;> cases h
      simp
    · split at h <;> cases h
      simp

theorem stageStore_bounds {s t : State} {kind unit : Nat} (h : s.stageStore kind unit = .applied t) :
    t.bounds = s.bounds := by
  unfold State.stageStore at h
  dsimp only at h
  split at h
  · split at h
    · cases h
    · split at h
      · cases h
      · split at h <;> cases h <;> simp
  · split at h
    · cases h
    · split at h
      · split at h <;> cases h <;> simp
      · split at h <;> cases h
        simp
      · split at h <;> cases h
        simp

theorem stageEntry_narrows {s t : State} {w : Word} (h : s.stageEntry w = .applied t) : Narrows s t := by
  unfold State.stageEntry at h
  dsimp only at h
  split at h
  · cases h
  · split at h
    case h_1 | h_2 => exact stagePanel_narrows h
    case h_3 | h_4 | h_5 => exact .of_bounds (stageHoop_bounds h)
    case h_6 | h_7 | h_8 => exact .of_bounds (stageStore_bounds h)
    case h_9 => cases h

/-- Staged retirement applies its entries, and the lengths follow the panels that are left (R338). -/
theorem applyStage_eq (s : State) : ∃ t, Narrows s t ∧ s.applyStage = t.clampLengths := by
  refine ⟨_, ?_, rfl⟩
  refine Narrows.after (.foldl (fun t p => ?_) s.trouble.stage s) (bounds_update _ rfl rfl rfl)
  split
  · exact .refl t
  · split
    · next u hu => exact (stageEntry_narrows hu).after (settleCap_bounds t u)
    · exact .of_bounds (noteSkip_bounds t p.1)
    · exact .of_bounds (by simp)

theorem actEffect_active (s : State) (a : Act) : (s.actEffect a).active ≤ s.active := by
  cases a with
  | spareIn h k cause =>
    refine (active_of_bounds ?_).le
    simp only [State.actEffect, apply_ite State.bounds, mark_bounds, logDarn_bounds, moveSlab_bounds, retireHoop_bounds,
      ite_self]
  | leafRepair i b =>
    refine (active_of_bounds ?_).le
    simp only [State.actEffect, decideSwap_bounds, apply_ite State.bounds, logDarn_bounds, moveLeaf_bounds,
      leafLost_bounds, ite_self]
  | staged =>
    obtain ⟨t, narrows, eq⟩ := applyStage_eq s
    rw [State.actEffect, eq, clampLengths_active]
    exact narrows.1
  | _ => exact Nat.le_refl _

theorem actEffect_keepsBounded (s : State) (a : Act) : KeepsBounded s (s.actEffect a) := by
  cases a with
  | spareIn h k cause =>
    refine .of_bounds ?_
    simp only [State.actEffect, apply_ite State.bounds, mark_bounds, logDarn_bounds, moveSlab_bounds, retireHoop_bounds,
      ite_self]
  | leafRepair i b =>
    refine .of_bounds ?_
    simp only [State.actEffect, decideSwap_bounds, apply_ite State.bounds, logDarn_bounds, moveLeaf_bounds,
      leafLost_bounds, ite_self]
  | staged =>
    obtain ⟨t, narrows, eq⟩ := applyStage_eq s
    rw [State.actEffect, eq]
    exact narrows.clamped
  | _ => exact .refl s

theorem actEnds_keepsBounded (s : State) (a : Act) : KeepsBounded s (s.actEnds a) := by
  unfold State.actEnds
  refine KeepsBounded.after ?_ (endStruct_bounds _)
  split
  · next r hr => exact .of_bounds (setRetry_bounds hr)
  · exact actEffect_keepsBounded s a

theorem spareInDone_keepsBounded (s : State) : KeepsBounded s s.spareInDone := by
  unfold State.spareInDone
  split
  · exact actEnds_keepsBounded s _
  · exact .refl s

theorem leafRepairDone_keepsBounded (s : State) : KeepsBounded s s.leafRepairDone := by
  unfold State.leafRepairDone
  split
  · exact actEnds_keepsBounded s _
  · exact .refl s

theorem stagedDone_keepsBounded (s : State) : KeepsBounded s s.stagedDone := by
  unfold State.stagedDone
  split
  · exact actEnds_keepsBounded s _
  · exact .refl s

/-! ### What a bundle does to the lengths -/

theorem mCtx_shape (e : Env) (c : Ctx) : (e.mCtx c).shape = c.shape := by
  unfold Env.mCtx Env.postCtx
  repeat' split
  all_goals simp

@[simp] theorem mHand_bounds (e : Env) (o : MOut) (t : State) : (mHand e o t).bounds = t.bounds :=
  bounds_of_offPort (mHand_offPort e o t) (mHand_streams e o t)

@[simp] theorem mRest_bounds (e : Env) (o : MOut) (t : State) : (mRest e o t).bounds = t.bounds :=
  (bounds_of_offPort ((mRest_offPort e o t).trans (modCtx_offPort t e.st e.mCtx).symm) (mRest_streams e o t)).trans
    (modCtx_bounds t e.st (mCtx_shape e))

@[simp] theorem chainEffect_bounds (e : Env) (t : State) : (chainEffect e t).bounds = t.bounds :=
  bounds_of_offLane (chainEffect_offLane e t)

@[simp] theorem v1Effect_bounds (e : Env) (t : State) : (v1Effect e t).bounds = t.bounds :=
  bounds_of_offLane (v1Effect_offLane e t)

theorem ctxOf_shape_of_bounds {s t : State} (h : s.bounds = t.bounds) (st : Stream) :
    (s.ctxOf st).shape = (t.ctxOf st).shape := by
  cases st with
  | main => exact shape_of_bounds h
  | edge =>
    have shapes := runShape_of_bounds h
    simp only [State.ctxOf]
    cases hs : s.edging.run with
    | none =>
      rw [hs] at shapes
      rw [Option.map_eq_none_iff.mp shapes.symm]
    | some r =>
      rw [hs] at shapes
      obtain ⟨q, hq, k⟩ := Option.map_eq_some_iff.mp shapes.symm
      rw [hq]
      exact k.symm

/-- A context that stays within VLMAX. -/
theorem modCtx_keepsBounded {s : State} {st : Stream} {f : Ctx → Ctx}
    (h : s.within (s.ctxOf st) → s.within (f (s.ctxOf st))) :
    KeepsBounded s (s.modCtx st f) := by
  rintro ⟨sixteen, lengths⟩
  refine ⟨sixteen.trans' (modCtx_active s st f).le, ?_⟩
  cases st with
  | main =>
    intro reset retry
    obtain ⟨main, edge⟩ := lengths reset retry
    exact ⟨h main, edge⟩
  | edge =>
    intro reset retry
    obtain ⟨main, edge⟩ := lengths reset retry
    refine ⟨main, fun r hr => ?_⟩
    obtain ⟨q, hq, rfl⟩ := Option.map_eq_some_iff.mp hr
    have ctx : s.ctxOf .edge = q.ctx := by simp [State.ctxOf, hq]
    rw [ctx] at h
    exact h (edge q hq)

theorem setS_within (s : State) (c : Ctx) (k : BitVec 5) (v : BitVec 64) : s.within (c.setS k v) ↔ s.within c :=
  within_of_shape rfl (setS_shape c k v)

theorem setvlEffect_keepsBounded (e : Env) (t : State) (a : BitVec 64) : KeepsBounded t (setvlEffect e t a) := by
  refine KeepsBounded.after (modCtx_keepsBounded (st := e.st) fun _ => ?_) ((markIf_bounds ..).trans (markIf_bounds ..))
  rw [setS_within]
  exact ⟨by dsimp only; omega, Nat.min_le_right _ _⟩

theorem setrowEffect_keepsBounded (e : Env) {t : State} (a : BitVec 64) (h : t.bounds = e.s.bounds) :
    KeepsBounded t (setrowEffect e t a) := by
  have ew : (t.ctxOf e.st).ew = e.ctx.ew := congrArg (fun x => x.2.1) (ctxOf_shape_of_bounds h e.st)
  refine KeepsBounded.after (modCtx_keepsBounded (st := e.st) fun w => ?_) (markIf_bounds ..)
  rw [setS_within]
  exact ⟨w.1, by dsimp only; rw [ew]; omega⟩

/-- The S slot's effect keeps the bounds in the state that the other slots leave. -/
theorem sEffect_keepsBounded (e : Env) {t : State} (h : t.bounds = e.s.bounds) : KeepsBounded t (sEffect e t) := by
  unfold sEffect
  dsimp only
  split
  · exact .of_bounds (by simp)
  · split
    · exact (setvlEffect_keepsBounded e t _).after (goTo_bounds ..)
    · exact (setrowEffect_keepsBounded e _ h).after (goTo_bounds ..)
    all_goals refine .of_bounds ?_
    · simp
    · exact (goTo_bounds ..).trans (modCtx_bounds _ _ fun c => setDesc_shape c _ _)
    · exact (goTo_bounds ..).trans (modCtx_bounds _ _ fun _ => rfl)
    · simp
    · simp
    · split
      · simp
      · split <;> simp
    · simp
    · split
      · rw [goTo_bounds, modIssue_bounds _ rfl]
      · simp
    · split
      · rw [takeDir_bounds, modIssue_bounds _ rfl]
      · split <;> simp
    · simp
    · simp
    · simp

theorem execBundle_keepsBounded (e : Env) (o : MOut) (handed : Bool) : KeepsBounded e.s (execBundle e o handed) := by
  have lanes : (mRest e o (if handed then v1Effect e (chainEffect e e.s) else
      (mHand e o (v1Effect e (chainEffect e e.s))).beginLoad e.b.m)).bounds = e.s.bounds := by
    simp [apply_ite State.bounds]
  have scalar := KeepsBounded.before lanes (sEffect_keepsBounded e lanes)
  unfold execBundle
  dsimp only
  split
  · exact scalar.after (modIssue_bounds _ rfl)
  · exact scalar

/-! ### Issue and re-execution -/

/-- The state that a gate answers, whether the bundle executes or not. -/
def Gate.state : Gate → State
  | .held s => s
  | .pass s => s

theorem readGate_bounds (e : Env) : (readGate e).state.bounds = e.s.bounds := by
  have errs := foldl_bounds (fun (t : State) (p : EccErr × Bool) => hoopErr_bounds t p.1) e.readErrs e.s
  unfold readGate
  dsimp only
  split
  · exact (halted_bounds ..).trans ((markIf_bounds ..).trans errs)
  · split
    · exact (leafFails_bounds ..).trans ((mark_bounds ..).trans ((halted_bounds ..).trans ((dropEcc_bounds ..).trans
        ((markIf_bounds ..).trans errs))))
    · exact (dropEcc_bounds ..).trans ((markIf_bounds ..).trans errs)

theorem goneGate_bounds (e : Env) (t : State) : (goneGate e t).state.bounds = t.bounds := by
  unfold goneGate
  split
  · split
    · rfl
    · exact (abortRun_bounds ..).trans (goneOnce_bounds t)
  · split
    · exact (abortRun_bounds ..).trans ((goneOnce_bounds _).trans (dropGone_bounds ..))
    · split
      · split
        · exact (abortRun_bounds ..).trans ((goneOnce_bounds _).trans (freeSlot_bounds ..))
        · rfl
      · split
        · rfl
        · exact (abortRun_bounds ..).trans (goneOnce_bounds t)
  · rfl

theorem standing_bounds (s : State) (st : Stream) (b : Bundle) (cap : TwCap) :
    (s.standing st b cap).state.bounds = s.bounds := by
  unfold State.standing
  dsimp only
  split
  · cases st
    · exact (mark_bounds ..).trans (stopAt_bounds ..)
    · exact (mark_bounds ..).trans (abortRun_bounds ..)
  · have fetched : ((s.dropEcc (s.fetchErrs st)).bump .corrErr (s.fetchErrs st).length).bounds = s.bounds := by simp
    split
    · exact (halted_bounds ..).trans fetched
    · split
      · exact (halted_bounds ..).trans fetched
      · split
        · exact (halted_bounds ..).trans fetched
        · split
          · exact (halted_bounds ..).trans fetched
          · exact fetched

theorem gate_bounds (s : State) (st : Stream) (b : Bundle) (cap : TwCap) (o : MOut) :
    (s.gate st b cap o).state.bounds = s.bounds := by
  have stands := standing_bounds s st b cap
  unfold State.gate
  split
  · next t h =>
    rw [h] at stands
    exact stands
  · next t h =>
    rw [h] at stands
    have goes := goneGate_bounds ⟨t, st, b, cap⟩ t
    dsimp only
    split
    · rfl
    · split
      · next u k =>
        rw [k] at goes
        exact goes.trans stands
      · next u k =>
        rw [k] at goes
        exact (readGate_bounds _).trans (goes.trans stands)

theorem injected_bounds {e : Env} {x : LaneErr} {t : State} (h : e.injected = some (x, t)) : t.bounds = e.s.bounds := by
  unfold Env.injected at h
  dsimp only at h
  split at h
  · cases h
    exact (mark_bounds ..).trans (setReg_bounds ..)
  · cases h

theorem faults_bounds (e : Env) (errs : List LaneErr) : (e.faults errs).2.bounds = e.s.bounds := by
  unfold Env.faults
  split
  · next h => exact injected_bounds h
  · rfl

/-- An aborted bundle waits, so that only the panels are bounded. -/
theorem setRetry_keepsBounded (s : State) (r : Retry) : KeepsBounded s (s.setRetry (some r)) :=
  fun b => bounded_of_waits b.1 (.inr (Option.some_ne_none r))

theorem laneAbort_keepsBounded (e : Env) (o : MOut) (errs : List LaneErr) (handed : Bool) :
    KeepsBounded e.s (e.laneAbort o errs handed) := by
  refine KeepsBounded.before (t := e.recordLane (if handed && handsFirst e.b errs then mHand e o e.s else e.s) errs) ?_
    (setRetry_keepsBounded _ _)
  rw [recordLane_bounds, apply_ite State.bounds, mHand_bounds, ite_self]

theorem issueBundle_keepsBounded (s : State) (i : Issue) (o : MOut) (err : Option (List LaneErr × Bool)) :
    KeepsBounded s (s.issueBundle i o err) := by
  have gated := gate_bounds s i.stream i.bundle s.twCap o
  unfold State.issueBundle
  split
  · exact .refl s
  · split
    · next t h =>
      rw [h] at gated
      exact .of_bounds gated
    · next t h =>
      rw [h] at gated
      dsimp only
      split
      · exact .before gated (execBundle_keepsBounded ⟨t, i.stream, i.bundle, s.twCap⟩ o false)
      · exact .before ((faults_bounds _ _).trans gated)
          (laneAbort_keepsBounded ⟨_, i.stream, i.bundle, s.twCap⟩ o _ _)

theorem issueRow_keepsBounded (s : State) (row : Row) (i : Issue) : KeepsBounded s (s.issueRow row i) := by
  unfold State.issueRow
  split
  · exact issueBundle_keepsBounded s i .normal none
  · exact .refl s

theorem foldActs_active (l : List Act) (s : State) : (l.foldl State.actEffect s).active ≤ s.active := by
  induction l generalizing s with
  | nil => exact Nat.le_refl _
  | cons a l ih => exact (ih _).trans (actEffect_active s a)

/-- The boundary after an aborted bundle clamps the lengths (R42). -/
theorem retryOver_keepsBounded (s : State) : KeepsBounded s s.retryOver := by
  unfold State.retryOver
  split
  · exact .refl s
  · next r _ =>
    dsimp only
    refine KeepsBounded.after (fun b => clampLengths_bounded ((foldActs_active r.acts _).trans ?_)) (releaseHeld_bounds _)
    rw [active_of_bounds (settleCap_bounds _ _)]
    refine (List.length_filter_le _ _).trans ?_
    have freed : (if r.freed = true then
        (if r.handed = true then (s.setRetry none).beginLoad r.bundle.m else s.setRetry none).dropTaken r.takes
      else if r.handed = true then (s.setRetry none).beginLoad r.bundle.m else s.setRetry none).bounds =
        (s.setRetry none).bounds := by
      simp only [apply_ite State.bounds, dropTaken_bounds, beginLoad_bounds, ite_self]
    exact (active_of_bounds freed).le.trans b.1

theorem retryDone_keepsBounded (s : State) : KeepsBounded s s.retryDone := by
  unfold State.retryDone
  dsimp only
  split
  · exact (retryOver_keepsBounded s).after (abandonWait_bounds ..)
  · exact retryOver_keepsBounded s

theorem laneHard_keepsBounded (s : State) (r : Retry) : KeepsBounded s (s.laneHard r) := by
  refine (retryOver_keepsBounded s).after ?_
  unfold State.laneHard
  dsimp only
  cases r.stream
  · simp [apply_ite State.bounds]
  · simp [apply_ite State.bounds]

theorem failAgain_keepsBounded (e : Env) (r : Retry) (errs : List LaneErr) (handed : Bool) :
    KeepsBounded e.s (State.failAgain e r errs handed) := by
  unfold State.failAgain
  extract_lets h t q ps u
  have recorded : t.bounds = e.s.bounds := by
    simp only [t, recordLane_bounds, apply_ite State.bounds, mHand_bounds, ite_self]
  have darned : Narrows (t.setRetry (some { q with fails := 0 })) u := .foldl startDarn_narrows ps _
  have waits : u.issue.retry ≠ none := fun k => by
    have := darned.retry
    rw [k] at this
    cases this
  have keeps : KeepsBounded e.s u :=
    .trans (.before recorded (setRetry_keepsBounded t _)) (darned.keeps_of_retry waits)
  split
  · exact .before recorded (setRetry_keepsBounded t _)
  · split
    · exact keeps.trans (laneHard_keepsBounded u q)
    · exact keeps.after (modIssue_bounds u (by simp))

theorem rerun_keepsBounded (s : State) (r : Retry) (errs : List LaneErr) (handed : Bool) :
    KeepsBounded s (s.rerun r errs handed) := by
  have gated : (s.retryGate r).state.bounds = s.bounds := (readGate_bounds _).trans ((mark_bounds ..).trans (bump_bounds ..))
  unfold State.rerun
  split
  · next u h =>
    rw [h] at gated
    exact .before gated (retryDone_keepsBounded u)
  · next u h =>
    rw [h] at gated
    dsimp only
    split
    · exact .before gated ((setRetry_keepsBounded u _).trans
        ((execBundle_keepsBounded ⟨u.setRetry _, r.stream, r.bundle, r.cap⟩ r.out r.handed).trans
          (retryDone_keepsBounded _)))
    · exact .before ((faults_bounds _ _).trans gated) (failAgain_keepsBounded ⟨_, r.stream, r.bundle, r.cap⟩ r _ _)

theorem reexecute_keepsBounded (s : State) : KeepsBounded s s.reexecute := by
  unfold State.reexecute
  split
  · exact .refl s
  · exact rerun_keepsBounded s _ _ _

theorem laneError_keepsBounded (s : State) (i : Issue) (errs : List LaneErr) (handed : Bool) :
    KeepsBounded s (s.laneError i errs handed) := by
  unfold State.laneError
  split
  · exact .refl s
  · split
    · exact issueBundle_keepsBounded s i _ _
    · split
      · split
        · exact .refl s
        · exact rerun_keepsBounded s _ _ _
      · exact .refl s

/-! ### Runs -/

theorem runCtx_shape (s : State) (b : Nat) (tag : Word) (src : BitVec 64) (pos : Nat) (origin : BitVec 48) :
    (s.runCtx b tag src pos origin).shape = Ctx.reset.shape := by
  have named (c : Ctx) (tid : BitVec 16) (pitch : Word) :
      ({ c with tid := tid, base := origin, twPitch := pitch } : Ctx).shape = c.shape := rfl
  exact (named _ _ _).trans (by simp only [setDesc_shape, setS_shape])

/-- A run starts with the lengths of a reset context (R298). -/
theorem newRun_keepsBounded (s : State) (t : State) (r : Run)
    (h : t.bounds = (s.active, s.resetting, s.issue.retry.isNone, s.ctx.shape, some r.ctx.shape))
    (k : r.ctx.shape = Ctx.reset.shape) : KeepsBounded s t := by
  refine KeepsBounded.trans (t := { s with edging := { s.edging with run := some { r with ctx := Ctx.reset } } })
    (fun b => ⟨b.1, fun reset retry => ⟨(b.2 reset retry).1, fun q hq => ?_⟩⟩) (.of_bounds (h.trans (by rw [k]; rfl)))
  cases hq
  exact within_reset _

theorem runStart_keepsBounded (s : State) : KeepsBounded s s.runStart := by
  unfold State.runStart
  split
  · split
    · exact .refl s
    · exact newRun_keepsBounded s _ _ rfl (runCtx_shape ..)
  · exact .refl s

theorem completionStart_keepsBounded (s : State) : KeepsBounded s s.completionStart := by
  unfold State.completionStart
  split
  · split
    · exact .refl s
    · exact newRun_keepsBounded s _ _ rfl (runCtx_shape ..)
  · exact .refl s

theorem dropRun_keepsBounded (s : State) : KeepsBounded s s.dropRun := by
  refine KeepsBounded.after (t := { s with edging := { s.edging with run := none } }) ?_ (modIssue_bounds _ rfl)
  exact fun b => ⟨b.1, fun reset retry => ⟨(b.2 reset retry).1, fun r hr => nomatch hr⟩⟩

theorem hoopErrs_bounds {α : Type} (es : List (EccErr × α)) (s : State) :
    (es.foldl (fun (t : State) p => t.hoopErr p.1) s).bounds = s.bounds :=
  foldl_bounds (f := fun (t : State) (p : EccErr × α) => t.hoopErr p.1) (fun t p => hoopErr_bounds t p.1) es s

theorem fold_bounds (s : State) (r : Run) : (s.fold r).2.bounds = s.bounds := by
  unfold State.fold
  extract_lets b col band last k x cols len
  split
  · rfl
  · next slabs _ =>
    extract_lets es s' t u y v
    split
    · rfl
    · split
      · rfl
      · split
        · rfl
        · split
          · rw [setBank_bounds, mapBank_bounds]
          · split
            · rfl
            · split
              · rfl
              · have errs : s'.bounds = s.bounds := by rw [show s' = _ from rfl, markIf_bounds, hoopErrs_bounds]
                clear_value s'
                split
                · exact errs
                · have opened : t.bounds = s.bounds := by
                    rw [show t = _ from rfl, apply_ite State.bounds, setBank_bounds, mapBank_bounds, errs, ite_self]
                  clear_value t
                  have folded : v.bounds = s.bounds := by
                    rw [show v = _ from rfl, setBank_bounds, show u = _ from rfl, foldRows_bounds, opened]
                  clear_value v
                  split
                  · exact (bandDone_bounds ..).trans folded
                  · split
                    · exact folded
                    · exact folded

theorem runEnd_keepsBounded (s : State) : KeepsBounded s s.runEnd := by
  unfold State.runEnd
  split
  · next r _ =>
    split
    · exact .refl s
    · next st _ =>
      split
      · exact .refl s
      · have folded : (if st = .ok && !r.completion && s.bindMode r.binding ≠ 0 then s.fold r else (st, s)).2.bounds =
            s.bounds := by
          simp only [apply_ite (fun x : RunStatus × State => x.2.bounds), fold_bounds, ite_self]
        have dropped (st' : RunStatus) {t : State} (h : t.bounds = s.bounds) : KeepsBounded s (t.recordRun r st').dropRun :=
          .before ((recordRun_bounds ..).trans h) (dropRun_keepsBounded _)
        dsimp only
        split
        · exact (dropped _ folded).after (nextCompletion_bounds _)
        · split
          · exact dropped _ folded
          · exact (dropped _ folded).after (releaseTile_bounds _)
  · exact .refl s

theorem overrun_keepsBounded (s : State) : KeepsBounded s s.overrun := by
  unfold State.overrun
  split
  · split
    · have ended : (s.modRun fun r => { r with ended := some .overrun, abortAt := r.pc, wait := none }).bounds =
          s.bounds := modRun_bounds s fun _ => rfl
      dsimp only
      split
      · split
        · exact .before ended (retryOver_keepsBounded _)
        · exact .of_bounds ended
      · exact .of_bounds ended
    · exact .refl s
  · exact .refl s

/-! ### The port's limit, RESTITCH -/

theorem sendTimeout_keepsBounded (s : State) : KeepsBounded s s.sendTimeout := by
  unfold State.sendTimeout
  split
  · exact .of_bounds (by simp)
  · split
    · exact issueBundle_keepsBounded s _ _ _
    · exact .refl s

theorem startRestitch_keepsBounded (s : State) (auto : Bool) : KeepsBounded s (s.startRestitch auto) := by
  unfold State.startRestitch
  split
  · exact .refl s
  · extract_lets load t inexact u c d v
    have ended : d.bounds = s.bounds := by
      refine (bounds_update u rfl rfl rfl).trans ((modIssue_bounds t rfl).trans ?_)
      simp only [t, apply_ite State.bounds, discardWait_bounds, abandonWait_bounds, ite_self]
    have given : KeepsBounded s (if auto then d.retryOver else d) := by
      split
      · exact .before ended (retryOver_keepsBounded d)
      · exact .of_bounds ended
    refine given.after ?_
    simp [v]

theorem pipeFault_keepsBounded (s : State) : KeepsBounded s s.pipeFault := by
  unfold State.pipeFault
  split
  · exact .before (mark_bounds s 14 5) (startRestitch_keepsBounded _ true)
  · exact .refl s

theorem restitchRequest_keepsBounded (s : State) : KeepsBounded s s.restitchRequest := by
  unfold State.restitchRequest
  split
  · exact startRestitch_keepsBounded s false
  · exact .refl s

/-! ### Resets and rest -/

/-- A reset's state: a reset context and no run. -/
theorem bounded_of_fresh {s : State} (h : s.active ≤ 16) (c : s.ctx = Ctx.reset) (r : s.edging.run = none) : s.bounded :=
  ⟨h, fun _ _ => ⟨by rw [c]; exact within_reset s, fun q hq => by rw [r] at hq; cases hq⟩⟩

theorem fresh_active (s : State) : s.fresh.active = 16 := rfl

theorem freshKeep_active (s : State) (code : BitVec 2) : (s.freshKeep code).active = 16 := rfl

theorem freshKeep_bounded (s : State) (code : BitVec 2) : (s.freshKeep code).bounded :=
  bounded_of_fresh (freshKeep_active s code).le rfl rfl

theorem pwrReset_keepsBounded (s : State) : KeepsBounded s s.pwrReset := by
  unfold State.pwrReset
  split
  · exact fun _ => bounded_of_fresh (fresh_active s).le rfl rfl
  · exact .refl s

theorem pkgReset_keepsBounded (s : State) : KeepsBounded s s.pkgReset := by
  unfold State.pkgReset
  split
  · exact fun b => bounded_of_fresh b.1 rfl rfl
  · exact .refl s

theorem blkReset_keepsBounded (s : State) : KeepsBounded s s.blkReset := by
  unfold State.blkReset
  split
  · exact fun b => bounded_of_waits b.1 (.inl (Option.some_ne_none _))
  · exact .refl s

theorem resetComplete_keepsBounded (s : State) : KeepsBounded s s.resetComplete := by
  unfold State.resetComplete
  split
  · exact .refl s
  · exact fun _ => bounded_of_fresh (fresh_active s).le rfl rfl
  · split
    · exact .refl s
    · exact fun _ => freshKeep_bounded s _

theorem powerLoss_keepsBounded (s : State) : KeepsBounded s s.powerLoss :=
  fun _ => bounded_of_fresh (fresh_active s).le rfl rfl

theorem afterRest2_keepsBounded (s : State) : KeepsBounded s s.afterRest2 :=
  fun b => ⟨b.1, fun reset retry => ⟨within_reset s, (b.2 reset retry).2⟩⟩

theorem restDone_keepsBounded (s : State) : KeepsBounded s s.restDone := by
  unfold State.restDone
  split
  · exact .refl s
  · split
    · exact .refl s
    · split
      · exact fun _ => freshKeep_bounded s 3
      · exact (afterRest2_keepsBounded s).after (restExit_bounds _)
      · exact .of_bounds (restExit_bounds s)
    · exact .of_bounds ((bounds_update s.zeroise rfl rfl rfl).trans (zeroise_bounds s))
    · exact .of_bounds (bounds_update s rfl rfl rfl)

/-! ### Register writes -/

theorem stoppedWrite_keepsBounded {s : State} (p : Nat) {f : State → State} (h : KeepsBounded s (f s)) :
    KeepsBounded s (s.stoppedWrite p f) := by
  unfold State.stoppedWrite
  split
  · exact h
  · exact .of_bounds (storeBusy_bounds s p)

theorem write_keepsBounded {s : State} (w : Writer) (p : Nat) {f : State → State} (h : KeepsBounded s (f s)) :
    KeepsBounded s (s.write w p f) := by
  unfold State.write
  split
  · exact .refl s
  · split
    · exact h
    · exact .of_bounds (setPage_bounds ..)

theorem writeVl_keepsBounded (s : State) (v : Word) : KeepsBounded s (s.writeVl v) :=
  stoppedWrite_keepsBounded 2 <| KeepsBounded.after
    (modCtx_keepsBounded (st := .main) fun w => ⟨Nat.min_le_right _ _, w.2⟩) (markIf_bounds ..)

theorem writeRowshape_keepsBounded (s : State) (v : Word) : KeepsBounded s (s.writeRowshape v) :=
  stoppedWrite_keepsBounded 2 <| KeepsBounded.after
    (modCtx_keepsBounded (st := .main) fun w => ⟨w.1, Nat.min_le_right _ _⟩) (markIf_bounds ..)

theorem writeLanes_keepsBounded (s : State) (off : Nat) (v : Word) : KeepsBounded s (s.writeLanes off v) := by
  unfold State.writeLanes
  split
  · exact writeVl_keepsBounded s v
  · split
    · exact writeRowshape_keepsBounded s v
    · exact .of_bounds (by simp only [apply_ite State.bounds, writeStride_bounds, writeCarry_bounds, ite_self])

theorem issueCtrl_keepsBounded (s : State) (v : Word) : KeepsBounded s (s.issueCtrl v) := by
  unfold State.issueCtrl
  split
  · exact blkReset_keepsBounded s
  · exact .of_bounds (by simp only [apply_ite State.bounds, stopIssue_bounds, goIssue_bounds, ite_self])

theorem troubleCtrl_keepsBounded (s : State) (v : Word) : KeepsBounded s (s.troubleCtrl v) := by
  unfold State.troubleCtrl
  dsimp only
  split
  · refine KeepsBounded.before ?_ (restitchRequest_keepsBounded _)
    simp only [apply_ite State.bounds, darnApply_bounds, guardRaise_bounds, clearCounters_bounds, startSnap_bounds,
      ite_self]
  · refine .of_bounds ?_
    simp only [apply_ite State.bounds, darnApply_bounds, guardRaise_bounds, clearCounters_bounds, startSnap_bounds,
      ite_self]

theorem writeCtrl_keepsBounded (s : State) (p : Nat) (v : Word) : KeepsBounded s (s.writeCtrl p v) := by
  unfold State.writeCtrl
  split
  · exact issueCtrl_keepsBounded s v
  · exact .of_bounds (partnerCtrl_bounds s v)
  · exact .of_bounds (mirrorPageCtrl_bounds s v)
  · exact .of_bounds (by simp only [apply_ite State.bounds, startProof_bounds, ite_self])
  · exact .of_bounds (by simp only [apply_ite State.bounds, measureEdge_bounds, ite_self])
  · exact troubleCtrl_keepsBounded s v
  · exact .of_bounds (testCtrl_bounds s v)
  · exact .refl s

theorem writeHeader_keepsBounded {s t : State} {w : Writer} {p off : Nat} {v : Word}
    (h : s.writeHeader w p off v = some t) : KeepsBounded s t := by
  unfold State.writeHeader at h
  dsimp only at h
  split at h
  · cases h
    exact .of_bounds (setPage_bounds ..)
  · cases h
    exact .of_bounds (setPage_bounds ..)
  · cases h
    exact writeCtrl_keepsBounded s p v
  · cases h
    exact .of_bounds (writeLock_bounds s w p v)
  · split at h
    · cases h
      exact .refl s
    · cases h

theorem writeReg_keepsBounded (s : State) (w : Writer) (p off : Nat) (v : Word) :
    KeepsBounded s (s.writeReg w p off v) := by
  unfold State.writeReg
  split
  · next t h => exact writeHeader_keepsBounded h
  · split
    · exact .of_bounds (setReg_bounds ..)
    · split
      case h_3 => exact writeLanes_keepsBounded s off v
      all_goals exact .of_bounds (by simp [apply_ite State.bounds])

theorem mmioWrite_keepsBounded (s : State) (w : Writer) (p off : Nat) (size : AccSize) (v : Word) :
    KeepsBounded s (s.mmioWrite w p off size v) := by
  unfold State.mmioWrite
  split
  · exact .refl s
  · split
    · exact .of_bounds (writeLock_bounds s w p v)
    · exact write_keepsBounded w p (writeReg_keepsBounded s w p off v)

theorem access_keepsBounded {s : State} (a : Access) (p off : Nat) {f : State → Word → State}
    (h : ∀ v, KeepsBounded s (f s v)) : KeepsBounded s (s.access a p off f) := by
  cases a with
  | read => exact .of_bounds (mmioRead_bounds ..)
  | write w v => exact write_keepsBounded w p (h v)

/-! ### Every step -/

theorem settle_bounds (s t : State) : (State.settle s t).bounds = t.bounds :=
  settle_keeps State.bounds (fun t _ _ => bounds_update t rfl rfl rfl) (fun t _ _ _ _ _ => bounds_update t rfl rfl rfl) s t

theorem tick_keepsBounded (s : State) : KeepsBounded s s.tick := by
  unfold State.tick
  split
  · exact .of_bounds (bounds_update s rfl rfl rfl)
  · split
    · exact .of_bounds ((settle_bounds ..).trans (runPlan_bounds s))
    · exact .refl s

end Sys2Proof.Machine
end

section
/-!
SUPPORT. Every command and every step keeps the bounds. Settles O58.
-/

namespace Sys2Proof.Machine

theorem runEnds_keepsBounded (s : State) : KeepsBounded s (if s.edging.run.isSome then s.runEnd.runPlan else s) := by
  split
  · exact (runEnd_keepsBounded s).after (runPlan_bounds _)
  · exact .refl s

theorem exec_keepsBounded (c : Instr) (s : State) : ∃ u, exec c s = .next (State.settle s u) ∧ KeepsBounded s u := by
  cases c with
  | nop i | chain i | func i | gact i | cvt i | red i | scan i | lscan i | perm i | xpose i | cprs i | expd i
  | tsel i | gcmp i | gdec i | upd i | ld i | st i | gather i | scatter i | mova i | popq i | nsend i | nrecv i
  | movs i | gets i | kst i | kld i | tbld i | tbswap i | scld i | scst i | lgst i | lgld i | pref i | fencem i
  | addi i | add i | sub i | mul i | and i | or i | xor i | shli i | shri i | sari i | shin i | fadd i | fmul i
  | setvl i | setrow i | setes i | setd i | settw i | rdvl i | jmp i | loop i | wait i | picot i | waitdir i
  | setent i | halt i =>
    exact ⟨_, rfl, issueRow_keepsBounded s _ i⟩
  | sendTimeout => exact ⟨_, rfl, sendTimeout_keepsBounded s⟩
  | recvTimeout i => exact ⟨_, rfl, issueBundle_keepsBounded s i _ _⟩
  | popqTimeout i => exact ⟨_, rfl, issueBundle_keepsBounded s i _ _⟩
  | laneError i errs handed => exact ⟨_, rfl, laneError_keepsBounded s i errs handed⟩
  | retryReexecute => exact ⟨_, rfl, reexecute_keepsBounded s⟩
  | darningDone pass16 pass17 => exact ⟨_, rfl, darningDone_keepsBounded s pass16 pass17⟩
  | slabSpareInDone => exact ⟨_, rfl, spareInDone_keepsBounded s⟩
  | leafRepairDone => exact ⟨_, rfl, leafRepairDone_keepsBounded s⟩
  | stagedDarningDone => exact ⟨_, rfl, stagedDone_keepsBounded s⟩
  | edgingRunStart => exact ⟨_, rfl, runStart_keepsBounded s⟩
  | edgingRunEnd => exact ⟨_, rfl, runEnds_keepsBounded s⟩
  | completionRunStart => exact ⟨_, rfl, completionStart_keepsBounded s⟩
  | edgingOverrun => exact ⟨_, rfl, overrun_keepsBounded s⟩
  | pwrReset => exact ⟨_, rfl, pwrReset_keepsBounded s⟩
  | pkgReset => exact ⟨_, rfl, pkgReset_keepsBounded s⟩
  | resetComplete => exact ⟨_, rfl, resetComplete_keepsBounded s⟩
  | pipeFault => exact ⟨_, rfl, pipeFault_keepsBounded s⟩
  | restTransitionDone => exact ⟨_, rfl, restDone_keepsBounded s⟩
  | blkReset w => exact ⟨_, rfl, write_keepsBounded w 1 (blkReset_keepsBounded s)⟩
  | pstoreData a => exact ⟨_, rfl, access_keepsBounded a _ _ fun v => .of_bounds (writePstore_bounds s v)⟩
  | vl w v => exact ⟨_, rfl, write_keepsBounded w 2 (writeVl_keepsBounded s v)⟩
  | rowshape w v => exact ⟨_, rfl, write_keepsBounded w 2 (writeRowshape_keepsBounded s v)⟩
  | hoopData a => exact ⟨_, rfl, access_keepsBounded a _ _ fun v => .of_bounds (writeHoopData_bounds s v)⟩
  | stagedSeedWrite w _ v => exact ⟨_, rfl, .of_bounds (write_bounds s w 6 (writeStaged_bounds s _ v))⟩
  | estoreData a => exact ⟨_, rfl, access_keepsBounded a _ _ fun v => .of_bounds (writeEstore_bounds s v)⟩
  | bindBuddy w v => exact ⟨_, rfl, .of_bounds (write_bounds s w 8 (writeBuddy_bounds s v))⟩
  | rx w v => exact ⟨_, rfl, .of_bounds (write_bounds s w 9 (planClosed_bounds s (writeRx_bounds s v)))⟩
  | restitch w => exact ⟨_, rfl, write_keepsBounded w 14 (restitchRequest_keepsBounded s)⟩
  | cntClear w => exact ⟨_, rfl, .of_bounds (write_bounds s w 14 (clearCounters_bounds s))⟩
  | stageData a => exact ⟨_, rfl, access_keepsBounded a _ _ fun v => .of_bounds (writeStage_bounds s v)⟩
  | injLane w _ => exact ⟨_, rfl, .of_bounds (write_bounds s w 15 (testWrite_bounds s (setReg_bounds ..)))⟩
  | registerWrite w _ _ size v => exact ⟨_, rfl, mmioWrite_keepsBounded s w _ _ size v⟩
  | coreRailPowerLoss => exact ⟨_, rfl, powerLoss_keepsBounded s⟩
  | waitEnd _ | waitTimeout _ | picotPost | dirTimeout | issueStop | fabricTransferDone | fabricTimeout _
  | proofingDone _ _ _ | scrubSlab _ | commitWalk | commitWalkEnd | snapshotDone | tbldDone | verdict _ _
  | verdictTimeout _ | swapTakesEffect _ | partnerChangeEvent _ | reachabilityNotice _ _ | probeTimeout _
  | rollCallPublish | couplingChange | tileCompletion _ _ _ | maskRequest _ _ _ | recordVerified _
  | mirrorLogWriteDone | mirrorAck _ | ackTimeout _ | mirrorSend | descSendTimer | mirrorFlushDone | baseCopyDone
  | restoreDone | mirrorFoldDone | stepOpen _ | fwd _ | bwd _ | exch _ | update _ | guardFreeze | commit _ | abort _
  | idle _ | userMark _ | clockQuiet | prickingStart _ | directionWord _ | keyLoad _ _ | sealedModeAssert
  | unsealRefused | restitchDone | go _ | stop _ | dirword _ _ _ | cyValue _ _ _ _ | leafData | swap _ _
  | slotCtl _ _ | slotEst _ _ | slotAge _ _ | liveSeedWrite _ _ _ | twistStepWrite _ _ _ | bCtl _ _ _ | release _ _
  | ledgerRelease _ | ledgerData | rollcall _ | accPortEn _ _ | queueUse _ _ | bindMe _ _ _ _ | reachData
  | planSrc _ _ _ | rejoin _ | foldRequest _ | restore _ | basecopy _ | flush _ | rCtl _ _ _ _ | entryCtl _ _ _
  | proof _ _ | measureEdge _ | guardSet _ | darnApply _ | snap _ | darnLog | restCtrl _ _ | enable _ _
  | localMarks _ _ | injGo _ | localMarkHi _ _ | pageLock _ _ _ | outboundCredit _ _ | recordLeavesPort
  | mailboxEntryConsumed | registerPairRead _ _ | measurementStreamEnd =>
    exact ⟨_, rfl, .of_bounds (by simp)⟩

/-- An empty queue only runs the clock; a command's effect keeps the bounds, and settling does not touch them. -/
theorem step_keepsBounded {s t : State} (h : step s = .next t) : KeepsBounded s t := by
  unfold step at h
  split at h
  · cases h
    exact tick_keepsBounded s
  · next c cs _ =>
    obtain ⟨u, next, keeps⟩ := exec_keepsBounded c { s with pending := cs }
    rw [next] at h
    cases h
    exact .before (bounds_update s rfl rfl rfl) (keeps.after (settle_bounds _ u))

end Sys2Proof.Machine
open Sys2Proof Sys2Proof.Machine

/-- Settles O58: lengths above VLMAX appear only where panels go, and each of those steps clamps them or leaves an
aborted bundle whose boundary will. -/
theorem stepKeepsBounds : Obligations.StepKeepsBounds := by
  unfold Obligations.StepKeepsBounds
  exact fun s t bounded next => step_keepsBounded next bounded
end

section
/-!
SUPPORT. GO, STOP and the effect of a stop (R45, R110, R114, R119). Settles O31.
-/

namespace Sys2Proof.Machine

theorem exec_go_of_takes {s : State} {w : Writer} (h : s.takes w 1 = true) :
    exec (.go w) s = .next (s.settle s.goIssue) := by
  rw [← State.write_of_takes h State.goIssue]
  rfl

theorem exec_stop_of_takes {s : State} {w : Writer} (h : s.takes w 1 = true) :
    exec (.stop w) s = .next (s.settle s.stopIssue) := by
  rw [← State.write_of_takes h State.stopIssue]
  rfl

/-- GO in an engine that works and is stopped: refused while the engine is down, else issue starts at START_PC. -/
theorem goIssue_of_stopped {s : State} (hw : s.works = true) (hr : s.issue.running = false)
    (hd : s.trouble.restitchBusy = true → s.trouble.engineDown = true) :
    s.goIssue = { s with issue :=
      if s.trouble.engineDown then { s.issue with goRefused := true }
      else { s.issue with running := true, goRefused := false, stop := none, wait := none
                          pc := (s.reg 1 0x040).toNat % 2048 } } := by
  cases down : s.trouble.engineDown with
  | true => simp [State.goIssue, hw, hr, down, State.modIssue]
  | false =>
    have restitch : s.trouble.restitchBusy = false := by
      cases busy : s.trouble.restitchBusy with
      | false => rfl
      | true => simp [hd busy] at down
    simp [State.goIssue, hw, hr, down, restitch, State.modIssue, bits]

theorem stopIssue_of_running {s : State} (hr : s.issue.running = true) : s.stopIssue =
    (s.abandonWait .main).modIssue fun i => { i with stop := some (i.stop.getD .hostStop) } := by
  simp [State.stopIssue, hr]

/-- STOP ends a wait as its limit would: all ones for a WAITDIR, 1 for a WAIT. -/
theorem abandonWait_goesOn {s : State} {x : Wait} (h : s.issue.wait = some x) :
    GoesOn s (s.abandonWait .main) .main x (if x.kind = .dir then BitVec.allOnes 64 else 1) := by
  have waits : s.waitOf .main = some x := h
  rw [State.abandonWait, waits]
  exact State.endWait_goesOn waits _

/-- A stop takes effect where nothing earlier of the main program is outstanding, no wait either. -/
theorem issueStop_of_drained {s : State} {why : StopReason} (hw : s.works = true) (hr : s.issue.running = true)
    (hs : s.issue.stop = some why) (wait : s.issue.wait = none)
    (retry : ∀ r, s.issue.retry = some r → r.stream = .edge) (xfers : ∀ x ∈ s.xfers, x.stream = .edge)
    (outQ : ∀ o ∈ s.net.outQ, o.mirror = true ∨ o.stream = .edge) (posts : ∀ p ∈ s.issue.posts, p.stream = .edge) :
    s.issueStop = { s with issue :=
      { s.issue with running := false, stop := none, dirLatch := none, reason := why
                     stopPc := if why = .hostStop then s.issue.pc else s.issue.stopPc } } := by
  unfold State.issueStop
  rw [hs]
  extract_lets again late
  have again_false : again = false := by
    unfold again
    split
    · next r hr => rw [retry r hr]; rfl
    · rfl
  have late_false : late = false := by
    unfold late
    simp only [Bool.or_eq_false_iff, List.any_eq_false]
    refine ⟨⟨fun x hx => by rw [xfers x hx]; decide, fun o ho => ?_⟩, fun p hp => by rw [posts p hp]; decide⟩
    rcases outQ o ho with m | m
    · simp [m]
    · simp [m]
  exact if_neg (by simp [again_false, late_false, hw, hr, wait])

end Sys2Proof.Machine
open Sys2Proof Sys2Proof.Machine

/-- Settles O31: each command by what it does to the issue unit; a STOP that meets a wait by what ending the wait
leaves. -/
theorem startStop : Obligations.StartStop := by
  unfold Obligations.StartStop
  intro s
  refine ⟨fun w takes works stopped down => ?_, fun w takes running => ⟨fun wait => ?_, fun x wait => ?_⟩,
    fun why works running stop wait retry xfers outQ posts => ?_⟩
  · rw [exec_go_of_takes takes, goIssue_of_stopped works stopped down]
  · rw [exec_stop_of_takes takes, stopIssue_of_running running, State.abandonWait, show s.waitOf .main = none from wait]
    rfl
  · obtain ⟨ended, ctx, -⟩ := abandonWait_goesOn wait
    refine ⟨_, exec_stop_of_takes takes, ?_⟩
    rw [stopIssue_of_running running, settle_issue, settle_ctx]
    exact ⟨ended, Option.some_ne_none _, ctx⟩
  · rw [show exec .issueStop s = .next (s.settle s.issueStop) from rfl,
      issueStop_of_drained works running stop wait retry xfers outQ posts]
end

section
/-!
SUPPORT. The end of darning (R331, R332, R334): a spare that takes the panel's place or turns out bad, and the place that
goes when none is left. Settles O36.
-/

namespace Sys2Proof.Machine

/-! ### What the repairs touch -/

/-- The panels, their map, the structural activities and the issue unit. -/
def State.repair (s : State) : Vector PanelState 18 × List Nat × Arbiter × IssueUnit :=
  (s.panels, s.panelMap, s.arb, s.issue)

@[simp] theorem mark_repair (s : State) (p b : Nat) : (s.mark p b).repair = s.repair := rfl

@[simp] theorem markIf_repair (s : State) (c : Bool) (p b : Nat) : (s.markIf c p b).repair = s.repair := by
  cases c <;> rfl

@[simp] theorem logDarn_repair (s : State) (k c u : Nat) : (s.logDarn k c u).repair = s.repair := by
  unfold State.logDarn State.bump
  split
  · split <;> simp [State.repair]
  · rfl

@[simp] theorem settleCap_repair (s t : State) : (State.settleCap s t).repair = t.repair := by
  unfold State.settleCap
  split <;> rfl

@[simp] theorem logDarn_capGen (s : State) (k c u : Nat) : (s.logDarn k c u).capGen = s.capGen := by
  unfold State.logDarn State.bump
  split
  · split <;> simp
  · rfl

@[simp] theorem logDarn_figures (s : State) (k c u : Nat) : (s.logDarn k c u).figures = s.figures := by
  unfold State.logDarn State.bump
  split
  · split <;> simp [State.figures, State.active]
  · rfl

theorem StickyKept.logDarn (s : State) (k c u : Nat) : StickyKept s (s.logDarn k c u) := by
  unfold State.logDarn
  split
  · exact .trans (.mark s 14 11 (by decide)) (.bump _ _ _)
  · exact StickyKept.trans (.of_pages rfl) (.mark _ 14 14 (by decide))

theorem panel_setPanel (s : State) {p : Nat} (hp : p < 18) (x : PanelState) (q : Nat) :
    (s.setPanel p x).panel q = if p = q then x else s.panel q := by
  simp only [State.setPanel, State.panel, Vector.getElem?_setIfInBounds]
  split
  · next e => subst e; simp
  · rfl

theorem panel_of_repair {s t : State} (h : s.repair = t.repair) (q : Nat) : s.panel q = t.panel q := by
  simp only [State.repair, Prod.mk.injEq] at h
  simp only [State.panel, h.1]

/-! ### The count of spares (R34) -/

/-- PANELS.SPARE. -/
def State.spares (s : State) : Nat := (s.panels.toList.filter (· == PanelState.spare)).length

theorem figures_spares (s : State) : s.figures.2.1 = s.spares := rfl

theorem setPanel_spares (s : State) {p : Nat} (hp : p < 18) {x : PanelState} (hx : x ≠ .spare) :
    (s.setPanel p x).spares = s.spares - if s.panel p = .spare then 1 else 0 := by
  have size : p < s.panels.toList.length := by simpa using hp
  simp only [State.spares, State.setPanel, Vector.toList_setIfInBounds, ← List.countP_eq_length_filter]
  rw [List.countP_set size]
  simp [State.panel, hp, hx]

theorem spares_pos {s : State} {p : Nat} (hp : p < 18) (h : s.panel p = .spare) : 0 < s.spares := by
  simp only [State.spares, ← List.countP_eq_length_filter, List.countP_pos_iff]
  refine ⟨s.panels[p], by simp, ?_⟩
  simpa [State.panel, hp] using h

/-- A change of the figures that no event has marked yet counts in CAP_GEN and is marked. -/
theorem settleCap_of_change {s t : State} (h : t.figures ≠ s.figures) (k : t.capGen = s.capGen) :
    (State.settleCap s t).capGen = s.capGen + 1 ∧ ((State.settleCap s t).sticky 0).getLsbD 0 = true := by
  refine ⟨?_, settleCap_marks h⟩
  rw [State.settleCap, if_neg (by simp [h, k])]
  exact congrArg (· + 1) k

theorem refuseTriggers_capGen (s : State) : s.refuseTriggers.capGen = s.capGen := by
  unfold State.refuseTriggers
  split <;> rfl

theorem settleDown_capGen (s : State) : (State.settleDown s).capGen = s.capGen := by
  unfold State.settleDown
  split
  · exact refuseTriggers_capGen _
  · rfl

theorem settleFirst_capGen (s t : State) : (State.settleFirst s t).capGen = t.capGen := by
  unfold State.settleFirst
  split
  · rfl
  · split <;> rfl

/-- Settling counts nothing that an event has counted and marked. -/
theorem settle_capGen_of_marked {s t : State} (h : t.capGen ≠ s.capGen) (k : (t.sticky 0).getLsbD 0 = true) :
    (State.settle s t).capGen = t.capGen := by
  rw [settle_eq]
  split
  · rfl
  · rw [settleFirst_capGen, settleDown_capGen, State.settleCap, if_pos (.inr ⟨h, k⟩)]

/-! ### One spare tried -/

/-- A spare takes panel `p`'s place. -/
def State.spareTakes (s : State) (p sp : Nat) : State := State.settleCap s ((s.mapSpare p sp).logDarn 1 0 p)

/-- A spare fails its short pattern. -/
def State.spareFails (s : State) (sp : Nat) : State := State.settleCap s ((s.setPanel sp .bad).logDarn 2 4 sp)

theorem spareTakes_repair (s : State) (p sp : Nat) : (s.spareTakes p sp).repair =
    ((s.panels.setIfInBounds p .retired).setIfInBounds sp .inService, s.panelMap.map fun x => if x = p then sp else x,
      s.arb, s.issue) := by
  rw [State.spareTakes, settleCap_repair, logDarn_repair]
  rfl

theorem spareFails_repair (s : State) (sp : Nat) :
    (s.spareFails sp).repair = (s.panels.setIfInBounds sp .bad, s.panelMap, s.arb, s.issue) := by
  rw [State.spareFails, settleCap_repair, logDarn_repair]
  rfl

theorem spareTakes_panel (s : State) {p sp : Nat} (hp : p < 18) (hsp : sp < 18) (q : Nat) : (s.spareTakes p sp).panel q =
    if sp = q then .inService else if p = q then .retired else s.panel q := by
  rw [← panel_setPanel s hp, ← panel_setPanel _ hsp]
  exact panel_of_repair ((settleCap_repair _ _).trans (logDarn_repair _ _ _ _)) q

theorem spareFails_panel (s : State) {sp : Nat} (hsp : sp < 18) (q : Nat) :
    (s.spareFails sp).panel q = if sp = q then .bad else s.panel q := by
  rw [← panel_setPanel s hsp]
  exact panel_of_repair ((settleCap_repair _ _).trans (logDarn_repair _ _ _ _)) q

theorem spareTakes_counts {s : State} {p sp : Nat} (hp : p < 18) (hsp : sp < 18) (retired : s.panel p = .retired)
    (spare : s.panel sp = .spare) :
    (s.spareTakes p sp).capGen = s.capGen + 1 ∧ ((s.spareTakes p sp).sticky 0).getLsbD 0 = true := by
  have kept : (s.setPanel p .retired).panel sp = .spare := by
    rw [panel_setPanel s hp, if_neg, spare]
    rintro rfl
    simp [retired] at spare
  have fewer : (s.mapSpare p sp).spares = s.spares - 1 := by
    have := setPanel_spares (s.setPanel p .retired) hsp (x := .inService) (by decide)
    rw [kept, setPanel_spares s hp (by decide), retired] at this
    exact this
  have some := spares_pos hsp spare
  refine settleCap_of_change (fun h => ?_) (logDarn_capGen _ _ _ _)
  rw [logDarn_figures] at h
  have := congrArg (fun x => x.2.1) h
  simp only [figures_spares] at this
  omega

theorem spareFails_counts {s : State} {sp : Nat} (hsp : sp < 18) (spare : s.panel sp = .spare) :
    (s.spareFails sp).capGen = s.capGen + 1 ∧ ((s.spareFails sp).sticky 0).getLsbD 0 = true := by
  have fewer := setPanel_spares s hsp (x := .bad) (by decide)
  rw [spare] at fewer
  have some := spares_pos hsp spare
  refine settleCap_of_change (fun h => ?_) (logDarn_capGen _ _ _ _)
  rw [logDarn_figures] at h
  have := congrArg (fun x => x.2.1) h
  simp only [figures_spares] at this
  simp at fewer
  omega

/-! ### Darning -/

/-- The state after the spare 16 did not take the place. -/
def State.afterFirst (s : State) : State := if s.panel 16 = .spare then s.spareFails 16 else s

/-- The state after neither spare took it. -/
def State.afterBoth (s : State) : State :=
  if s.afterFirst.panel 17 = .spare then s.afterFirst.spareFails 17 else s.afterFirst

theorem darn_of_first {s : State} (p : Nat) (pass17 : Bool) (h : s.panel 16 = .spare) :
    s.darn p true pass17 = s.spareTakes p 16 := by
  simp [State.darn, State.spareTakes, h]

theorem darn_of_second {s : State} (p : Nat) {pass16 : Bool} (h : s.panel 16 = .spare → pass16 = false)
    (k : s.afterFirst.panel 17 = .spare) : s.darn p pass16 true = s.afterFirst.spareTakes p 17 := by
  by_cases first : s.panel 16 = .spare
  · simp only [State.afterFirst, first, if_true, State.spareFails] at k ⊢
    simp [State.darn, first, h first, State.spareTakes, k]
  · simp only [State.afterFirst, first, if_false] at k ⊢
    simp [State.darn, first, State.spareTakes, k]

theorem darn_of_none {s : State} (p : Nat) {pass16 pass17 : Bool} (h : s.panel 16 = .spare → pass16 = false)
    (k : s.afterFirst.panel 17 = .spare → pass17 = false) :
    s.darn p pass16 pass17 = (s.afterBoth.losePanel p).logDarn 1 0 p := by
  by_cases first : s.panel 16 = .spare <;> by_cases second : s.afterFirst.panel 17 = .spare
  · simp only [State.afterBoth, second, if_true, k second]
    simp only [State.afterFirst, first, if_true, State.spareFails] at second ⊢
    simp [State.darn, first, h first, second]
  · simp only [State.afterBoth, second, if_false]
    simp only [State.afterFirst, first, if_true, State.spareFails] at second ⊢
    simp [State.darn, first, h first, second]
  · simp only [State.afterBoth, second, if_true, k second]
    simp only [State.afterFirst, first, if_false, State.spareFails] at second ⊢
    simp [State.darn, first, second]
  · simp only [State.afterBoth, second, if_false]
    simp only [State.afterFirst, first, if_false] at second ⊢
    simp [State.darn, first, second]

theorem afterFirst_panel (s : State) (q : Nat) :
    s.afterFirst.panel q = if s.panel 16 = .spare ∧ 16 = q then .bad else s.panel q := by
  unfold State.afterFirst
  split
  · next h => rw [spareFails_panel s (by decide)]; simp [h]
  · next h => simp [h]

theorem afterFirst_panel_seventeen (s : State) : s.afterFirst.panel 17 = s.panel 17 := by
  rw [afterFirst_panel, if_neg (by simp)]

theorem afterBoth_panel (s : State) (q : Nat) : s.afterBoth.panel q =
    if s.panel 17 = .spare ∧ 17 = q then .bad else if s.panel 16 = .spare ∧ 16 = q then .bad else s.panel q := by
  rw [← afterFirst_panel, State.afterBoth, afterFirst_panel_seventeen]
  split
  · next h => rw [spareFails_panel _ (by decide)]; simp [h]
  · next h => simp [h]

/-- A spare that fails leaves the map, the activities and the issue unit. -/
theorem spareFails_rest (s : State) (sp : Nat) : (s.spareFails sp).panelMap = s.panelMap ∧
    (s.spareFails sp).arb = s.arb ∧ (s.spareFails sp).issue = s.issue := by
  have e := spareFails_repair s sp
  simp only [State.repair, Prod.mk.injEq] at e
  exact e.2

theorem afterFirst_rest (s : State) : s.afterFirst.panelMap = s.panelMap ∧ s.afterFirst.arb = s.arb ∧
    s.afterFirst.issue = s.issue := by
  unfold State.afterFirst
  split
  · exact spareFails_rest s 16
  · exact ⟨rfl, rfl, rfl⟩

theorem afterBoth_rest (s : State) : s.afterBoth.panelMap = s.panelMap ∧ s.afterBoth.arb = s.arb ∧
    s.afterBoth.issue = s.issue := by
  unfold State.afterBoth
  split
  · obtain ⟨map, arb, issue⟩ := spareFails_rest s.afterFirst 17
    rw [map, arb, issue]
    exact afterFirst_rest s
  · exact afterFirst_rest s

theorem spareTakes_rest (s : State) (p sp : Nat) : ((s.spareTakes p sp).panelMap =
    s.panelMap.map fun x => if x = p then sp else x) ∧ (s.spareTakes p sp).arb = s.arb ∧
      (s.spareTakes p sp).issue = s.issue := by
  have e := spareTakes_repair s p sp
  simp only [State.repair, Prod.mk.injEq] at e
  exact e.2

theorem afterFirst_capGen (s : State) :
    s.afterFirst.capGen = s.capGen + if s.panel 16 = .spare then 1 else 0 := by
  unfold State.afterFirst
  split
  · next h => exact (spareFails_counts (by decide) h).1
  · exact (BitVec.add_zero _).symm

theorem losePanel_panels (s : State) (p : Nat) : (s.losePanel p).panels = s.panels.setIfInBounds p .retired := by
  unfold State.losePanel
  split
  · rfl
  · exact congrArg Prod.fst (settleCap_repair _ _)

/-- Where no bundle waits, a panel without a spare loses its place at once. -/
theorem losePanel_rest_of_none {s : State} (p : Nat) (h : s.issue.retry = none) :
    (s.losePanel p).repair.2 = (s.panelMap.filter (· != p), s.arb, s.issue) := by
  rw [State.losePanel, h]
  exact congrArg Prod.snd (settleCap_repair _ _)

/-- Under an aborted bundle the place goes at the boundary after that. -/
theorem losePanel_rest_of_retry {s : State} {r : Retry} (p : Nat) (h : s.issue.retry = some r) :
    (s.losePanel p).repair.2 =
      (s.panelMap, s.arb, { s.issue with retry := some { r with lost := r.lost ++ [p] } }) := by
  rw [State.losePanel, h]
  rfl

/-! ### The activity's end -/

/-- The state without its structural activity. -/
def State.activityOver (s : State) : State := { s with arb := { s.arb with running := none } }

theorem endStruct_of_idle {s : State} (h : s.arb.darns = []) (k : s.arb.queue = []) : s.endStruct = s.activityOver := by
  simp [State.endStruct, State.arbNext, State.activityOver, h, k]

theorem flushDarns_of_idle {s : State} (h : s.arb.running = none) (n : Nat) : State.flushDarns n s = s := by
  cases n with
  | zero => rfl
  | succ n => simp [State.flushDarns, h]

/-- The end of darning, with nothing else in the queues: what darning left, without the activity; the aborted bundle
goes on, or the lengths follow the panels. -/
theorem darningDone_of_idle {s : State} {p : Nat} {src : ActSrc} {pass16 pass17 : Bool}
    (running : s.arb.running = some ⟨.darning p, src⟩) (darns : (s.darn p pass16 pass17).arb.darns = [])
    (queue : (s.darn p pass16 pass17).arb.queue = []) :
    s.darningDone pass16 pass17 =
      match (s.darn p pass16 pass17).issue.retry with
      | some r => (s.darn p pass16 pass17).activityOver.setRetry (some { r with darning := false })
      | none => (s.darn p pass16 pass17).activityOver.clampLengths := by
  have due : (s.darn p pass16 pass17).activityOver.darningDue = false := by
    simp [State.darningDue, State.darningNow, State.activityOver, darns]
  have flushed : State.flushDarns 18 (s.darn p pass16 pass17).endStruct = (s.darn p pass16 pass17).activityOver := by
    rw [endStruct_of_idle darns queue]
    exact flushDarns_of_idle rfl 18
  unfold State.darningDone
  rw [running]
  dsimp only
  rw [flushed, due]
  rfl

theorem clampLengths_repair (s : State) : s.clampLengths.repair = s.repair := by
  have one (t : State) (st : Stream) : (t.clampOne st).repair = t.repair := by
    unfold State.clampOne
    simp only [markIf_repair]
    cases st <;> rfl
  rw [State.clampLengths, one, one]

theorem StickyKept.clampLengths (s : State) : StickyKept s s.clampLengths := by
  have one (t : State) (st : Stream) : StickyKept t (t.clampOne st) := by
    refine StickyKept.trans ?_ (.trans (.markIf _ _ 2 0 (by decide)) (.markIf _ _ 2 1 (by decide)))
    cases st <;> exact .of_pages rfl
  exact (one s .main).trans (one _ .edge)

theorem clampLengths_capGen (s : State) : s.clampLengths.capGen = s.capGen := by
  have one (t : State) (st : Stream) : (t.clampOne st).capGen = t.capGen := by
    unfold State.clampOne
    simp only [State.markIf_capGen]
    cases st <;> rfl
  rw [State.clampLengths, one, one]

/-- What the end of darning leaves of what darning did to the panels. -/
structure DarnLeaves (d t : State) : Prop where
  panel : ∀ q, t.panel q = d.panel q
  panelMap : t.panelMap = d.panelMap
  running : t.arb.running = none
  retry : t.issue.retry = d.issue.retry.map fun r => { r with darning := false }

theorem darningDone_leaves {s : State} {p : Nat} {src : ActSrc} {pass16 pass17 : Bool}
    (running : s.arb.running = some ⟨.darning p, src⟩) (darns : (s.darn p pass16 pass17).arb.darns = [])
    (queue : (s.darn p pass16 pass17).arb.queue = []) :
    DarnLeaves (s.darn p pass16 pass17) (s.darningDone pass16 pass17) := by
  rw [darningDone_of_idle running darns queue]
  generalize s.darn p pass16 pass17 = d
  split
  · next r hr => exact ⟨fun _ => rfl, rfl, rfl, by rw [hr]; rfl⟩
  · next hr =>
    have kept := clampLengths_repair d.activityOver
    have panel := panel_of_repair kept
    simp only [State.repair, Prod.mk.injEq] at kept
    obtain ⟨-, map, arb, issue⟩ := kept
    exact ⟨panel, map, by rw [arb]; rfl, by rw [issue, hr]; exact hr⟩

theorem DarnLeaves.settle {d t : State} (h : DarnLeaves d t) (s : State) : DarnLeaves d (State.settle s t) where
  panel q := by rw [← h.panel q]; simp [State.panel]
  panelMap := by rw [settle_panelMap, h.panelMap]
  running := by rw [settle_arb, h.running]
  retry := by rw [settle_issue, h.retry]

/-- What darning has counted and marked is not counted again. -/
theorem darningDone_capGen {s : State} {p : Nat} {src : ActSrc} {pass16 pass17 : Bool}
    (running : s.arb.running = some ⟨.darning p, src⟩) (darns : (s.darn p pass16 pass17).arb.darns = [])
    (queue : (s.darn p pass16 pass17).arb.queue = []) (h : (s.darn p pass16 pass17).capGen ≠ s.capGen)
    (k : ((s.darn p pass16 pass17).sticky 0).getLsbD 0 = true) :
    (State.settle s (s.darningDone pass16 pass17)).capGen = (s.darn p pass16 pass17).capGen := by
  rw [darningDone_of_idle running darns queue]
  generalize s.darn p pass16 pass17 = d at h k
  split
  · exact settle_capGen_of_marked h k
  · have capGen := clampLengths_capGen d.activityOver
    rw [settle_capGen_of_marked (by rw [capGen]; exact h) (StickyKept.clampLengths d.activityOver 0 0 k), capGen]
    rfl

end Sys2Proof.Machine
open Sys2Proof Sys2Proof.Machine

/-- Settles O36: whether the first spare takes the place, the second does, or none is left; each by what it leaves of
the panels, their map and the aborted bundle. -/
theorem darningEnds : Obligations.DarningEnds := by
  unfold Obligations.DarningEnds
  intro s p src pass16 pass17 running darns queue hp retired ok
  have sixteen : s.panel 16 = .spare → 16 ≠ p := by rintro h rfl; simp [retired] at h
  have seventeen : s.panel 17 = .spare → 17 ≠ p := by rintro h rfl; simp [retired] at h
  have leaves {d : State} (hd : s.darn p pass16 pass17 = d) (arb : d.arb = s.arb) :
      DarnLeaves d (State.settle s (s.darningDone pass16 pass17)) := by
    subst hd
    exact (darningDone_leaves running (by rw [arb, darns]) (by rw [arb, queue])).settle s
  have counts {d : State} (hd : s.darn p pass16 pass17 = d) (arb : d.arb = s.arb) (h : d.capGen ≠ s.capGen)
      (k : (d.sticky 0).getLsbD 0 = true) : (State.settle s (s.darningDone pass16 pass17)).capGen = d.capGen := by
    subst hd
    exact darningDone_capGen running (by rw [arb, darns]) (by rw [arb, queue]) h k
  refine ⟨_, rfl, ?_⟩
  by_cases first : ok 16
  · obtain ⟨spare, pass⟩ := first
    obtain rfl : pass16 = true := pass
    have darn := darn_of_first p pass17 spare
    obtain ⟨map, arb, issue⟩ := spareTakes_rest s p 16
    obtain ⟨capGen, marked⟩ := spareTakes_counts hp (by decide) retired spare
    have done := leaves darn arb
    have cap := counts darn arb (by rw [capGen]; bv_omega) marked
    have panel := spareTakes_panel s hp (by decide : 16 < 18)
    refine ⟨?_, done.running, fun _ => ⟨?_, ?_, ?_⟩, fun h => (h ⟨spare, rfl⟩).elim, fun h => (h ⟨spare, rfl⟩).elim,
      fun h => (h ⟨spare, rfl⟩).elim, ?_⟩
    · rw [done.panel, panel, if_neg (sixteen spare), if_pos rfl]
    · rw [done.panel, panel, if_pos rfl]
    · rw [done.panelMap, map]
    · exact cap.trans capGen
    · split
      · exact fun h => (h ⟨spare, rfl⟩).elim
      · next r hr => exact ⟨fun _ => by rw [done.retry, issue, hr]; rfl, fun h => (h ⟨spare, rfl⟩).elim⟩
  · have failed : s.panel 16 = .spare → pass16 = false := fun h => by
      cases pass : pass16 with
      | false => rfl
      | true => exact (first ⟨h, pass⟩).elim
    have firstPanel := afterFirst_panel s
    by_cases second : ok 17
    · obtain ⟨spare, pass⟩ := second
      obtain rfl : pass17 = true := pass
      have spare' : s.afterFirst.panel 17 = .spare := (afterFirst_panel_seventeen s).trans spare
      have retired' : s.afterFirst.panel p = .retired := by
        rw [firstPanel, if_neg (fun h => sixteen h.1 h.2), retired]
      have darn := darn_of_second p failed spare'
      obtain ⟨map, arb, issue⟩ := spareTakes_rest s.afterFirst p 17
      obtain ⟨map₁, arb₁, issue₁⟩ := afterFirst_rest s
      obtain ⟨capGen, marked⟩ := spareTakes_counts hp (by decide) retired' spare'
      rw [afterFirst_capGen] at capGen
      have done := leaves darn (arb.trans arb₁)
      have cap := counts darn (arb.trans arb₁) (by rw [capGen]; split <;> bv_omega) marked
      have panel := spareTakes_panel s.afterFirst hp (by decide : 17 < 18)
      refine ⟨?_, done.running, fun h => (first h).elim, fun _ _ => ⟨?_, ?_, ?_⟩, fun _ h => ?_,
        fun _ h => (h ⟨spare, rfl⟩).elim, ?_⟩
      · rw [done.panel, panel, if_neg (seventeen spare), if_pos rfl]
      · rw [done.panel, panel, if_pos rfl]
      · rw [done.panelMap, map, map₁]
      · rw [cap, capGen]
        split <;> bv_omega
      · rw [done.panel, panel, if_neg (by decide), if_neg (sixteen h).symm, firstPanel, if_pos ⟨h, rfl⟩]
      · split
        · exact fun _ h => (h ⟨spare, rfl⟩).elim
        · next r hr =>
          exact ⟨fun _ => by rw [done.retry, issue, issue₁, hr]; rfl, fun _ h => (h ⟨spare, rfl⟩).elim⟩
    · have failed' : s.afterFirst.panel 17 = .spare → pass17 = false := fun h => by
        cases pass : pass17 with
        | false => rfl
        | true => exact (second ⟨(afterFirst_panel_seventeen s).symm.trans h, pass⟩).elim
      have darn := darn_of_none p failed failed'
      obtain ⟨map₁, arb₁, issue₁⟩ := afterBoth_rest s
      have panels : ((s.afterBoth.losePanel p).logDarn 1 0 p).panels = s.afterBoth.panels.setIfInBounds p .retired :=
        (congrArg Prod.fst (logDarn_repair _ 1 0 p)).trans (losePanel_panels _ p)
      have logged := congrArg Prod.snd (logDarn_repair (s.afterBoth.losePanel p) 1 0 p)
      generalize (s.afterBoth.losePanel p).logDarn 1 0 p = d at darn panels logged
      have panel (q : Nat) : d.panel q = if p = q then .retired else s.afterBoth.panel q := by
        rw [← panel_setPanel _ hp]
        exact congrArg (fun v : Vector PanelState 18 => v[q]?.getD .retired) panels
      have arb : d.arb = s.arb := by
        cases hr : s.issue.retry with
        | none =>
          rw [losePanel_rest_of_none p (by rw [issue₁, hr]), arb₁] at logged
          exact congrArg (fun x => x.2.1) logged
        | some r =>
          rw [losePanel_rest_of_retry p (by rw [issue₁, hr]), arb₁] at logged
          exact congrArg (fun x => x.2.1) logged
      have done := leaves darn arb
      refine ⟨?_, done.running, fun h => (first h).elim, fun _ h => (second h).elim, fun _ h => ?_, fun _ _ h => ?_, ?_⟩
      · rw [done.panel, panel, if_pos rfl]
      · rw [done.panel, panel, if_neg (sixteen h).symm, afterBoth_panel, if_neg (by simp), if_pos ⟨h, rfl⟩]
      · rw [done.panel, panel, if_neg (seventeen h).symm, afterBoth_panel, if_pos ⟨h, rfl⟩]
      · split
        · next hr =>
          rw [losePanel_rest_of_none p (by rw [issue₁, hr]), map₁] at logged
          exact fun _ _ => done.panelMap.trans (congrArg Prod.fst logged)
        · next r hr =>
          rw [losePanel_rest_of_retry p (by rw [issue₁, hr]), map₁] at logged
          have issue : d.issue = _ := congrArg (fun x => x.2.2) logged
          exact ⟨fun h => (h.elim first second).elim, fun _ _ => ⟨done.panelMap.trans (congrArg Prod.fst logged), by
            rw [done.retry, issue]; rfl⟩⟩
end

section
/-!
SUPPORT. What a bundle that executes, aborts or is given up leaves of the aborted bundle, the structural activities and
the retired panels (R325 to R334). Settles O35.
-/

namespace Sys2Proof.Machine

/-! ### The aborted bundle while a bundle executes -/

@[simp] theorem setPc_retry (s : State) (st : Stream) (n : Nat) : (s.setPc st n).issue.retry = s.issue.retry := by
  cases st <;> rfl

@[simp] theorem setWait_retry (s : State) (st : Stream) (w : Option Wait) :
    (s.setWait st w).issue.retry = s.issue.retry := by
  cases st <;> rfl

@[simp] theorem passEnd_retry (s : State) (st : Stream) : (s.passEnd st).issue.retry = s.issue.retry := by
  cases st with
  | main => unfold State.passEnd; dsimp only; split <;> rfl
  | edge => rfl

@[simp] theorem goTo_retry (s : State) (st : Stream) (n : Nat) : (s.goTo st n).issue.retry = s.issue.retry := by
  rw [State.goTo, passEnd_retry, setPc_retry]

@[simp] theorem raise_issue (s : State) (k : Nat) (r : Raises) : (s.raise k r).issue = s.issue :=
  issue_of_offPort (offPort_of_offLane (State.raise_offLane s k r))

theorem waitEffect_retry (e : Env) (t : State) (a : BitVec 64) :
    (waitEffect e t a).issue.retry = t.issue.retry := by
  unfold waitEffect
  dsimp only
  split
  · simp
  · split <;> simp
  · simp
  · split <;> simp

theorem sEffect_retry (e : Env) (t : State) : (sEffect e t).issue.retry = t.issue.retry := by
  unfold sEffect
  dsimp only
  split
  · simp
  · split
    · simp [setvlEffect]
    · simp [setrowEffect]
    · simp
    · simp
    · simp
    · simp
    · simp
    · split
      · simp
      · split <;> simp
    · rw [waitEffect_retry, setPc_retry]
    · split
      · rw [goTo_retry]; rfl
      · simp
    · split
      · simp only [State.takeDir, setPc_retry, State.modCtx_issue]; rfl
      · split <;> simp
    · simp
    · rfl
    · simp

/-- A bundle that executes leaves the aborted bundle noted. -/
theorem execBundle_retry (e : Env) (o : MOut) (handed : Bool) :
    (execBundle e o handed).issue.retry = e.s.issue.retry := by
  have lanes : (v1Effect e (chainEffect e e.s)).issue = e.s.issue :=
    issue_of_offPort (offPort_of_offLane ((v1Effect_offLane _ _).trans (chainEffect_offLane _ _)))
  have port : (mRest e o (if handed then v1Effect e (chainEffect e e.s) else
      (mHand e o (v1Effect e (chainEffect e e.s))).beginLoad e.b.m)).issue = e.s.issue := by
    rw [issue_of_offPort (mRest_offPort e o _)]
    cases handed with
    | true => exact lanes
    | false => exact (issue_of_offPort ((beginLoad_offPort _ _).trans (mHand_offPort e o _))).trans lanes
  have scalar := (sEffect_retry e _).trans (congrArg IssueUnit.retry port)
  unfold execBundle
  dsimp only
  split
  · exact scalar
  · exact scalar

/-! ### A lane error -/

theorem errsOk_ne_nil {e : Env} {errs : List LaneErr} (h : errsOk e errs = true) : errs ≠ [] := by
  rintro rfl
  simp [errsOk] at h

theorem recordLane_eq (e : Env) (t : State) (errs : List LaneErr) : e.recordLane t errs =
    { t with trouble := { t.trouble with laneErr := (errs.getLast?.map e.laneWord).getD t.trouble.laneErr } } := by
  unfold Env.recordLane
  cases errs.getLast? <;> rfl

theorem portWaits_of_clear {s : State} {i : Issue} (h : Clear s i) :
    s.portWaits (s.env i) i.bundle.m = false ∧ s.creditWaits (s.env i) i.bundle.m = false := by
  have ready := h.ready
  simp only [State.mustWait, Bool.or_eq_false_iff] at ready
  exact ready.1.1.1.1.1

theorem firstOut_of_clear {s : State} {i : Issue} (h : Clear s i) : s.firstOut i = .normal := by
  obtain ⟨port, credit⟩ := portWaits_of_clear h
  have port' : s.portWaits ⟨s, i.stream, i.bundle, s.twCap⟩ i.bundle.m = false := port
  have credit' : s.creditWaits ⟨s, i.stream, i.bundle, s.twCap⟩ i.bundle.m = false := credit
  simp [State.firstOut, port', credit']

/-- A clear bundle in which lane errors are found aborts. -/
theorem laneError_of_clear {s : State} {i : Issue} {errs : List LaneErr} (handed : Bool) (h : Clear s i)
    (retry : s.issue.retry = none) (found : errsOk (s.env i) errs = true) :
    s.laneError i errs handed = (s.env i).laneAbort .normal errs handed := by
  have found' : errsOk ⟨s, i.stream, i.bundle, s.twCap⟩ errs = true := found
  have lanes : Env.injected ⟨s, i.stream, i.bundle, s.twCap⟩ = none := h.lanes
  rw [State.laneError, found', retry]
  dsimp only
  rw [firstOut_of_clear h, State.issueBundle, h.offered, h.atPc, gate_of_clear h]
  simp [Env.faults, lanes, errsOk_ne_nil found, State.env]

/-! ### A re-execution -/

theorem readGate_of_sound {e : Env} (h : e.readErrs = []) (k : e.leafErrs = []) : readGate e = .pass e.s := by
  unfold readGate
  rw [h, k]
  simp only [List.any_nil, List.foldl_nil, List.filter_nil, List.find?_nil, State.markIf, dropEcc_nil, Bool.false_eq_true,
    if_false]

/-- The state in which an aborted bundle is executed again: the re-execution is counted. -/
def State.retried (s : State) : State := (s.bump .retry 1).mark 14 0

/-- What an aborted bundle executes on. -/
def State.retryEnv (s : State) (r : Retry) : Env := ⟨s, r.stream, r.bundle, r.cap⟩

/-- An aborted bundle whose re-execution is due, and that reads no word in error. -/
structure RetryDue (s : State) (r : Retry) : Prop where
  aborted : s.issue.retry = some r
  works : s.works = true
  restitch : s.trouble.restitchBusy = false ∨ s.trouble.lastRestitch = 1
  undarned : s.darningDue = false
  darned : r.darning = false
  reads : (s.retried.retryEnv r).readErrs = []
  table : (s.retried.retryEnv r).leafErrs = []

theorem RetryDue.ready {s : State} {r : Retry} (h : RetryDue s r) : s.retryReady = some r := by
  have restitch : (!s.trouble.restitchBusy || s.trouble.lastRestitch == 1#2) = true := by
    rcases h.restitch with k | k
    · simp [k]
    · simp [k]
  simp [State.retryReady, h.aborted, h.works, restitch, h.undarned, h.darned]

theorem RetryDue.gate {s : State} {r : Retry} (h : RetryDue s r) : s.retryGate r = .pass s.retried :=
  readGate_of_sound h.reads h.table

/-- The boundary after an aborted bundle, step by step: its TBLD that had been handed makes its leaf LOADING, the places
of the panels lost go, the activities that ended take effect, the lengths follow, and held writes are made. -/
theorem retryOver_of_kept {s : State} {r : Retry} (h : s.issue.retry = some r) (freed : r.freed = false) :
    s.retryOver =
      (let x : State := s.setRetry none
       let y := if r.handed then x.beginLoad r.bundle.m else x
       let g := State.settleCap y { y with panelMap := y.panelMap.filter fun p => !r.lost.contains p }
       (r.acts.foldl State.actEffect g).clampLengths.releaseHeld) := by
  rw [State.retryOver, h]
  dsimp only
  rw [freed]
  rfl

theorem reexecute_of_due {s : State} {r : Retry} (h : RetryDue s r) (lanes : (s.retried.retryEnv r).injected = none) :
    s.reexecute =
      (execBundle ((s.retried.setRetry (some { r with freed := false })).retryEnv r) r.out r.handed).retryDone := by
  have lanes' : Env.injected ⟨s.retried, r.stream, r.bundle, r.cap⟩ = none := lanes
  rw [State.reexecute, h.ready]
  dsimp only
  rw [State.rerun, h.gate]
  simp [Env.faults, lanes', State.retryEnv]

/-- The errors of a re-execution: those found, and the armed injection's that it meets (R457). -/
theorem rerun_of_errors {s : State} {r : Retry} {errs : List LaneErr} (handed : Bool) (h : RetryDue s r)
    (found : errs ≠ []) :
    s.rerun r errs handed =
      State.failAgain (((s.retried.retryEnv r).faults errs).2.retryEnv r) r ((s.retried.retryEnv r).faults errs).1 handed := by
  have some : ((s.retried.retryEnv r).faults errs).1.isEmpty = false := by
    unfold Env.faults
    split
    · dsimp only
      split
      · simpa using found
      · rfl
    · simpa using found
  rw [State.rerun, h.gate]
  exact if_neg (by simpa [State.retryEnv] using some)

theorem laneError_of_due {s : State} {r : Retry} {errs : List LaneErr} (handed : Bool) (h : RetryDue s r)
    (found : errsOk ⟨s, r.stream, r.bundle, s.twCap⟩ errs = true) :
    s.laneError ⟨r.stream, r.bundle⟩ errs handed =
      State.failAgain (((s.retried.retryEnv r).faults errs).2.retryEnv r) r ((s.retried.retryEnv r).faults errs).1 handed := by
  rw [State.laneError, found, h.aborted]
  simp only [h.ready, Bool.not_true, Bool.false_eq_true, if_false, Bool.and_self, if_true,
    rerun_of_errors handed h (errsOk_ne_nil found), decide_true]

/-! ### What the M slot hands to its port -/

/-- The bytes of the hoops and the count of re-executions. -/
def State.retryCount (s : State) : SMap Byte × Nat := (s.hoops, s.counter .retry)

@[simp] theorem mark_retryCount (s : State) (p b : Nat) : (s.mark p b).retryCount = s.retryCount := rfl

theorem bump_retryCount (s : State) {c : Ctr} (n : Nat) (h : c.index ≠ Ctr.retry.index) (k : c.index < 25) :
    (s.bump c n).retryCount = s.retryCount := by
  rw [State.retryCount, State.bump_hoops, State.counter_bump _ _ _ _ k, if_neg fun e => h e.1]
  rfl

@[simp] theorem discardOut_retryCount (s : State) (b : Bool) : (s.discardOut b).retryCount = s.retryCount := by
  have bumped := bump_retryCount s (c := .sendDiscard) 1 (by decide) (by decide)
  unfold State.discardOut
  dsimp only
  split
  · exact bumped
  · exact bumped

theorem sealKey_retryCount (s : State) (p : Nat) : (s.sealKey p).2.retryCount = s.retryCount := by
  unfold State.sealKey
  split
  · rfl
  · split <;> rfl
  · rfl

@[simp] theorem exchanged_retryCount (s : State) (p : BitVec 15) : (s.exchanged p).retryCount = s.retryCount := by
  unfold State.exchanged
  split <;> rfl

@[simp] theorem sendRecord_retryCount (s : State) (h : List Word) (body : List Byte) (st : Stream) (i : Nat) :
    (s.sendRecord h body st i).retryCount = s.retryCount := by
  have key := sealKey_retryCount s (if hdrMirror h then 1 else 0)
  unfold State.sendRecord
  dsimp only
  split
  · next t e =>
    rw [e] at key
    rw [discardOut_retryCount]
    exact key
  · next k t e =>
    rw [e] at key
    rw [exchanged_retryCount]
    exact key

@[simp] theorem goneOnce_retryCount (s : State) : s.goneOnce.retryCount = s.retryCount :=
  bump_retryCount (s.mark 8 1) 1 (by decide) (by decide)

theorem nsendEffect_retryCount (e : Env) (t : State) (b : Bool) : (nsendEffect e t b).retryCount = t.retryCount := by
  have counted (u : State) : ({ u with net := { u.net with rcount := u.net.rcount + 1 } } : State).retryCount =
      u.retryCount := rfl
  unfold nsendEffect
  dsimp only
  split
  · exact bump_retryCount (t.mark 14 2) 1 (by decide) (by decide)
  · split
    · rw [counted, mark_retryCount, discardOut_retryCount]
    · split
      · rw [counted, discardOut_retryCount, goneOnce_retryCount]
      · rw [counted, sendRecord_retryCount]
        rfl

theorem mHand_retryCount (e : Env) (o : MOut) (t : State) : (mHand e o t).retryCount = t.retryCount := by
  unfold mHand
  dsimp only
  split
  case h_3 =>
    split
    · rfl
    · rfl
  case h_7 => exact nsendEffect_retryCount e t _
  all_goals rfl

/-! ### What the end of an aborted bundle leaves -/

theorem repair_of_offPort {s t : State} (h : s.offPort = t.offPort) : s.repair = t.repair :=
  (congrArg State.repair h : s.offPort.repair = t.offPort.repair)

theorem repair_of_offLane {s t : State} (h : s.offLane = t.offLane) : s.repair = t.repair :=
  repair_of_offPort (offPort_of_offLane h)

/-- The structural activities and the main program's position stay, retired panels stay retired, and no bundle comes to
be aborted. -/
structure Upkeep (s t : State) : Prop where
  arb : t.arb = s.arb
  running : t.issue.running = s.issue.running
  retired : ∀ q, s.panel q = .retired → t.panel q = .retired
  unaborted : s.issue.retry = none → t.issue.retry = none

namespace Upkeep

theorem of_repair {s t : State} (h : t.repair = s.repair) : Upkeep s t := by
  have panel := panel_of_repair h
  simp only [State.repair, Prod.mk.injEq] at h
  obtain ⟨-, -, arb, issue⟩ := h
  exact ⟨arb, congrArg IssueUnit.running issue, fun q hq => (panel q).trans hq, fun hr => by rw [issue, hr]⟩

theorem refl (s : State) : Upkeep s s := of_repair rfl

theorem trans {s t u : State} (h : Upkeep s t) (k : Upkeep t u) : Upkeep s u :=
  ⟨k.arb.trans h.arb, k.running.trans h.running, fun q hq => k.retired q (h.retired q hq),
    fun hr => k.unaborted (h.unaborted hr)⟩

theorem after {s t u : State} (h : Upkeep s t) (k : u.repair = t.repair) : Upkeep s u := h.trans (of_repair k)

theorem foldl {α : Type} {f : State → α → State} (h : ∀ s a, Upkeep s (f s a)) (l : List α) (s : State) :
    Upkeep s (l.foldl f s) := by
  induction l generalizing s with
  | nil => exact refl s
  | cons a l ih => exact (h s a).trans (ih _)

end Upkeep

theorem bump_repair (s : State) (c : Ctr) (n : Nat) : (s.bump c n).repair = s.repair :=
  repair_of_offPort (State.bump_offPort s c n)

theorem moveSlab_repair (s : State) (h k : Nat) : (s.moveSlab h k).repair = s.repair := by
  rw [State.moveSlab, settleCap_repair, bump_repair]
  rfl

theorem freeRecords_upkeep (s : State) : Upkeep s s.freeRecords := by
  unfold State.freeRecords
  split
  · next r hr =>
    split
    · exact ⟨rfl, rfl, fun _ hq => hq, fun h => by rw [hr] at h; cases h⟩
    · exact .of_repair rfl
  · exact .of_repair rfl

theorem retireHoop_upkeep (s : State) (h cause : Nat) (log : Bool) : Upkeep s (s.retireHoop h cause log) := by
  unfold State.retireHoop
  extract_lets _ t u _ v
  have logged : u.repair = s.repair := by
    simp only [u, mark_repair]
    cases log with
    | true => exact logDarn_repair t 4 cause h
    | false => rfl
  have freed : Upkeep u v := by
    unfold v
    split
    · have off (n : NetUnit) : Upkeep u { u with net := n } := .of_repair rfl
      exact ((off _).trans (freeRecords_upkeep _)).after (mark_repair _ 9 8)
    · exact .refl u
  exact ((Upkeep.of_repair logged).trans freed).after (settleCap_repair _ _)

theorem loseLeaf_repair (s : State) (i : Nat) (b : Bool) : (s.loseLeaf i b).repair = s.repair := by
  rw [State.loseLeaf, repair_of_offPort (decideSwap_offPort _ _), repair_of_offPort (measCancel_offPort _ _)]
  rfl

theorem leafLost_repair (s : State) (i : Nat) (b : Bool) : (s.leafLost i b).repair = s.repair := by
  rw [State.leafLost, logDarn_repair, loseLeaf_repair]

theorem moveLeaf_repair (s : State) (i : Nat) (b : Bool) : (s.moveLeaf i b).repair = s.repair := by
  unfold State.moveLeaf
  dsimp only
  split
  · rw [repair_of_offPort (decideSwap_offPort _ _), mark_repair, repair_of_offPort (measCancel_offPort _ _),
      repair_of_offPort (setMslot_offPort _ _ _), settleCap_repair]
    rfl
  · rw [settleCap_repair]
    rfl

theorem panel_setPanel_of_ne (s : State) {p q : Nat} (h : p ≠ q) (x : PanelState) :
    (s.setPanel p x).panel q = s.panel q := by
  simp only [State.setPanel, State.panel, Vector.getElem?_setIfInBounds_ne h]

theorem retirePanel_upkeep (s : State) (p : Nat) : Upkeep s (s.setPanel p .retired) := by
  refine ⟨rfl, rfl, fun q hq => ?_, id⟩
  by_cases e : p = q
  · subst e
    by_cases hp : p < 18
    · rw [panel_setPanel s hp, if_pos rfl]
    · simp [State.panel, State.setPanel, hp]
  · rw [panel_setPanel_of_ne s e, hq]

theorem setPanel_upkeep {s : State} {p : Nat} (x : PanelState) (h : s.panel p ≠ .retired) : Upkeep s (s.setPanel p x) := by
  refine ⟨rfl, rfl, fun q hq => ?_, id⟩
  rw [panel_setPanel_of_ne s (by rintro rfl; exact h hq), hq]

theorem losePanel_upkeep (s : State) (p : Nat) : Upkeep s (s.losePanel p) := by
  unfold State.losePanel
  split
  · next r hr =>
    refine (retirePanel_upkeep s p).trans ⟨rfl, rfl, fun _ hq => hq, fun h => ?_⟩
    rw [show (s.setPanel p .retired).issue.retry = some r from hr] at h
    cases h
  · have dropped : Upkeep (s.setPanel p .retired) (s.dropPanel p) := ⟨rfl, rfl, fun _ hq => hq, id⟩
    exact ((retirePanel_upkeep s p).trans dropped).after (settleCap_repair _ _)

theorem mapSpare_upkeep {s : State} {p sp : Nat} (h : s.panel sp = .spare) : Upkeep s (s.mapSpare p sp) := by
  refine ⟨rfl, rfl, fun q hq => ?_, id⟩
  have other : sp ≠ q := by rintro rfl; rw [h] at hq; cases hq
  exact (panel_setPanel_of_ne (s.setPanel p .retired) other .inService).trans ((retirePanel_upkeep s p).retired q hq)

theorem spare_of_spare? {s : State} {sp : Nat} (h : s.spare? = some sp) : s.panel sp = .spare := by
  have := List.find?_some h
  simpa using this

/-- Staged retirement of a panel retires it, or makes a spare bad. -/
theorem stagePanel_upkeep {s t : State} {kind p : Nat} (h : s.stagePanel kind p = .applied t) : Upkeep s t := by
  unfold State.stagePanel at h
  split at h
  · cases h
  · split at h
    · next e =>
      cases h
      exact setPanel_upkeep .bad (by rw [e]; decide)
    · split at h
      · cases h
      · split at h
        · next e =>
          cases h
          exact mapSpare_upkeep (spare_of_spare? e)
        · cases h
          exact losePanel_upkeep s p
    · cases h

theorem stageHoop_upkeep {s t : State} {kind unit cause : Nat} (h : s.stageHoop kind unit cause = .applied t) :
    Upkeep s t := by
  unfold State.stageHoop at h
  generalize (if kind = 4 then unit else unit / 16) = n at h
  dsimp only at h
  split at h
  · cases h
  · split at h
    · split at h
      · cases h
      · split at h
        · cases h
          exact .of_repair (moveSlab_repair ..)
        · split at h <;> cases h
          exact retireHoop_upkeep ..
        · cases h
          exact retireHoop_upkeep ..
    · split at h <;> cases h
      exact retireHoop_upkeep ..
    · split at h <;> cases h
      exact .of_repair rfl

theorem stageStore_upkeep {s t : State} {kind unit : Nat} (h : s.stageStore kind unit = .applied t) : Upkeep s t := by
  unfold State.stageStore at h
  dsimp only at h
  split at h
  · split at h
    · cases h
    · split at h
      · cases h
      · split at h <;> cases h
        · exact .of_repair (repair_of_offLane (State.pinSlot_offLane ..))
        · exact .of_repair (repair_of_offLane (State.spareSlot_offLane ..))
  · split at h
    · cases h
    · split at h
      · split at h <;> cases h
        · exact .of_repair (moveLeaf_repair ..)
        · exact .of_repair rfl
      · split at h <;> cases h
        exact .of_repair (loseLeaf_repair ..)
      · split at h <;> cases h
        exact .of_repair (loseLeaf_repair ..)

theorem stageEntry_upkeep {s t : State} {w : Word} (h : s.stageEntry w = .applied t) : Upkeep s t := by
  unfold State.stageEntry at h
  dsimp only at h
  split at h
  · cases h
  · split at h
    case h_1 | h_2 => exact stagePanel_upkeep h
    case h_3 | h_4 | h_5 => exact stageHoop_upkeep h
    case h_6 | h_7 | h_8 => exact stageStore_upkeep h
    case h_9 => cases h

theorem applyStage_upkeep (s : State) : Upkeep s s.applyStage := by
  have emptied (t : State) : ({ t with trouble := { t.trouble with stage := [] } } : State).repair = t.repair := rfl
  refine Upkeep.after (.after (.foldl (fun t p => ?_) s.trouble.stage s) (emptied _)) (clampLengths_repair _)
  split
  · exact .refl t
  · split
    · next u hu => exact (stageEntry_upkeep hu).after (settleCap_repair t u)
    · exact .of_repair rfl
    · exact .of_repair rfl

theorem actEffect_upkeep (s : State) (a : Act) : Upkeep s (s.actEffect a) := by
  cases a with
  | spareIn h k cause =>
    unfold State.actEffect
    dsimp only
    split
    · exact .refl s
    · split
      · exact .of_repair (by rw [mark_repair, logDarn_repair, moveSlab_repair])
      · exact retireHoop_upkeep ..
  | leafRepair i b =>
    refine .of_repair ?_
    simp only [State.actEffect, repair_of_offPort (decideSwap_offPort _ _), apply_ite State.repair, logDarn_repair,
      moveLeaf_repair, leafLost_repair, ite_self]
  | staged => exact applyStage_upkeep s
  | _ => exact .refl s

theorem slotStore_repair (s : State) (i : Nat) (r : SlotReg) (v : Word) : (s.slotStore i r v).repair = s.repair := by
  have errs : ∀ l : List EccErr, (l.foldl State.slotErr s).repair = s.repair := fun l =>
    foldl_keeps State.repair State.slotErr (fun t e => repair_of_offLane (State.slotErr_offLane t e)) l s
  have dup (t : State) : (t.dupCheck i).repair = t.repair := by
    unfold State.dupCheck
    dsimp only
    split <;> rfl
  unfold State.slotStore
  dsimp only
  split
  · split
    · exact errs _
    · exact (dup _).trans (errs _)
  · exact errs _
  · exact errs _

theorem doHeld_repair (s : State) (x : HeldWrite) : (s.doHeld x).repair = s.repair := by
  cases x with
  | slot i r v => exact slotStore_repair s i r v
  | _ => rfl

theorem releaseHeld_upkeep (s : State) : Upkeep s s.releaseHeld := by
  have kept : Upkeep s { s with issue := { s.issue with held := s.issue.held.filter s.holds } } :=
    ⟨rfl, rfl, fun _ hq => hq, id⟩
  exact kept.after (foldl_keeps State.repair State.doHeld doHeld_repair _ _)

theorem dropTaken_repair (s : State) (x : Option Taken) : (s.dropTaken x).repair = s.repair := by
  unfold State.dropTaken
  split <;> rfl

/-- The boundary after an aborted bundle. -/
theorem retryOver_upkeep (s : State) : Upkeep s s.retryOver ∧ s.retryOver.issue.retry = none := by
  unfold State.retryOver
  split
  · next h => exact ⟨.refl s, h⟩
  · next r _ =>
    extract_lets t u v
    have gone : Upkeep s (s.setRetry none) := ⟨rfl, rfl, fun _ hq => hq, fun _ => rfl⟩
    have handed : t.repair = (s.setRetry none).repair := by
      unfold t
      split
      · exact repair_of_offPort (beginLoad_offPort _ _)
      · rfl
    have freed : u.repair = t.repair := by
      unfold u
      split
      · exact dropTaken_repair _ _
      · rfl
    have places : Upkeep u v :=
      Upkeep.after (t := { u with panelMap := u.panelMap.filter fun p => !r.lost.contains p })
        ⟨rfl, rfl, fun _ hq => hq, id⟩ (settleCap_repair _ _)
    have ends : Upkeep v (r.acts.foldl State.actEffect v).clampLengths.releaseHeld :=
      ((Upkeep.foldl actEffect_upkeep r.acts v).after (clampLengths_repair _)).trans (releaseHeld_upkeep _)
    have rest := ((Upkeep.of_repair (freed.trans handed)).trans places).trans ends
    exact ⟨gone.trans rest, rest.unaborted rfl⟩

/-! ### Panels that are darned -/

/-- The darning of a panel runs or waits. -/
def State.darnDue (s : State) (p : Nat) : Prop := s.arb.running = some ⟨.darning p, .engine⟩ ∨ p ∈ s.arb.darns

theorem darnDue_of_arb {s t : State} (h : t.arb = s.arb) (p : Nat) : t.darnDue p ↔ s.darnDue p := by
  simp only [State.darnDue, h]

theorem losePanel_arb (s : State) (p : Nat) : (s.losePanel p).arb = s.arb := (losePanel_upkeep s p).arb

theorem logDarn_arb (s : State) (k c u : Nat) : (s.logDarn k c u).arb = s.arb :=
  congrArg (fun x => x.2.2.1) (logDarn_repair s k c u)

theorem logDarn_panel (s : State) (k c u q : Nat) : (s.logDarn k c u).panel q = s.panel q :=
  panel_of_repair (logDarn_repair s k c u) q

theorem losePanel_panel (s : State) {p : Nat} (hp : p < 18) (q : Nat) :
    (s.losePanel p).panel q = if p = q then .retired else s.panel q := by
  rw [← panel_setPanel s hp]
  exact congrArg (fun v : Vector PanelState 18 => v[q]?.getD .retired) (losePanel_panels s p)

theorem startDarn_of_retired {s : State} {p : Nat} (h : s.panel p = .retired) : s.startDarn p = s := if_pos h

theorem startDarn_of_none {s : State} {p : Nat} (h : s.panel p ≠ .retired) (k : s.spare? = none) :
    s.startDarn p = (s.losePanel p).logDarn 1 0 p := by
  rw [State.startDarn, if_neg h, k]

theorem startDarn_of_idle {s : State} {p : Nat} (h : s.panel p ≠ .retired) (k : s.spare? ≠ none)
    (idle : s.arb.running = none) :
    s.startDarn p = { s.setPanel p .retired with arb := { s.arb with running := some ⟨.darning p, .engine⟩ } } := by
  obtain ⟨sp, hsp⟩ := Option.ne_none_iff_exists'.mp k
  have idle' : (s.setPanel p .retired).arb.running = none := idle
  rw [State.startDarn, if_neg h, hsp]
  dsimp only
  rw [idle']
  rfl

/-- Where a spare is left, the panel is retired and its darning starts, or waits for what runs; a proofing of the spare
gives way to it. -/
theorem startDarn_of_spare {s : State} {p : Nat} (h : s.panel p ≠ .retired) (k : s.spare? ≠ none) :
    (s.startDarn p).panels = s.panels.setIfInBounds p .retired ∧ (s.startDarn p).issue = s.issue ∧
      (s.startDarn p).darnDue p ∧ ∀ q, s.darnDue q → (s.startDarn p).darnDue q := by
  obtain ⟨sp, hsp⟩ := Option.ne_none_iff_exists'.mp k
  rw [State.startDarn, if_neg h, hsp]
  dsimp only
  split
  · next e =>
    have idle : s.arb.running = none := e
    refine ⟨rfl, rfl, .inl rfl, fun q hq => .inr (hq.resolve_left ?_)⟩
    rw [idle]
    simp
  · next a src e =>
    have proofs : s.arb.running = some ⟨.proofing a, src⟩ := e
    split
    · refine ⟨rfl, rfl, .inl rfl, fun q hq => .inr (hq.resolve_left ?_)⟩
      rw [proofs]
      simp
    · exact ⟨rfl, rfl, .inr (List.mem_append_right _ (List.mem_singleton_self p)),
        fun q hq => hq.imp id (List.mem_append_left _)⟩
  · exact ⟨rfl, rfl, .inr (List.mem_append_right _ (List.mem_singleton_self p)),
      fun q hq => hq.imp id (List.mem_append_left _)⟩

theorem startDarn_panel (s : State) {p : Nat} (hp : p < 18) (q : Nat) :
    (s.startDarn p).panel q = if p = q then .retired else s.panel q := by
  by_cases h : s.panel p = .retired
  · rw [startDarn_of_retired h]
    split
    · next e => rw [← e, h]
    · rfl
  · by_cases k : s.spare? = none
    · rw [startDarn_of_none h k, logDarn_panel, losePanel_panel s hp]
    · rw [← panel_setPanel s hp]
      exact congrArg (fun v : Vector PanelState 18 => v[q]?.getD .retired) (startDarn_of_spare h k).1

theorem startDarn_darnDue (s : State) (p q : Nat) (h : s.darnDue q) : (s.startDarn p).darnDue q := by
  by_cases r : s.panel p = .retired
  · rwa [startDarn_of_retired r]
  · by_cases k : s.spare? = none
    · rw [startDarn_of_none r k]
      exact (darnDue_of_arb ((logDarn_arb _ 1 0 p).trans (losePanel_arb s p)) q).mpr h
    · exact (startDarn_of_spare r k).2.2.2 q h

theorem startDarn_running (s : State) (p : Nat) : (s.startDarn p).issue.running = s.issue.running := by
  by_cases r : s.panel p = .retired
  · rw [startDarn_of_retired r]
  · by_cases k : s.spare? = none
    · rw [startDarn_of_none r k]
      exact ((losePanel_upkeep s p).after (logDarn_repair ..)).running
    · rw [(startDarn_of_spare r k).2.1]

theorem startDarn_spare? {s : State} {p : Nat} (hp : p < 18) (h : s.panel p ≠ .spare) :
    (s.startDarn p).spare? = s.spare? := by
  have same (q : Nat) : ((s.startDarn p).panel q == .spare) = (s.panel q == .spare) := by
    rw [startDarn_panel s hp]
    split
    · next e =>
      subst e
      cases hq : s.panel p with
      | spare => exact (h hq).elim
      | _ => rfl
    · rfl
  simp only [State.spare?, same]

/-- Panels are darned one after the other. -/
theorem foldDarn_panel (ps : List Nat) (s : State) (h : ∀ p ∈ ps, p < 18) (q : Nat) :
    (ps.foldl State.startDarn s).panel q = if q ∈ ps then .retired else s.panel q := by
  induction ps generalizing s with
  | nil => simp
  | cons p ps ih =>
    obtain ⟨hp, hps⟩ := List.forall_mem_cons.mp h
    rw [List.foldl_cons, ih _ hps, startDarn_panel s hp]
    by_cases e : p = q
    · simp [e]
    · simp [e, Ne.symm e]

theorem foldDarn_running (ps : List Nat) (s : State) : (ps.foldl State.startDarn s).issue.running = s.issue.running :=
  foldl_keeps (fun s : State => s.issue.running) State.startDarn startDarn_running ps s

theorem foldDarn_darnDue (ps : List Nat) (s : State) (q : Nat) (h : s.darnDue q) :
    (ps.foldl State.startDarn s).darnDue q := by
  induction ps generalizing s with
  | nil => exact h
  | cons p ps ih => exact ih _ (startDarn_darnDue s p q h)

theorem foldDarn_due (ps : List Nat) (s : State) (distinct : ps.Nodup) (h : ∀ p ∈ ps, p < 18 ∧ s.panel p = .inService)
    (k : s.spare? ≠ none) : ∀ p ∈ ps, (ps.foldl State.startDarn s).darnDue p := by
  induction ps generalizing s with
  | nil => exact fun p hp => (List.not_mem_nil hp).elim
  | cons p ps ih =>
    obtain ⟨⟨hp, serves⟩, hps⟩ := List.forall_mem_cons.mp h
    obtain ⟨fresh, distinct⟩ := List.nodup_cons.mp distinct
    intro q hq
    rcases List.mem_cons.mp hq with rfl | hq
    · exact foldDarn_darnDue ps _ q (startDarn_of_spare (by rw [serves]; decide) k).2.2.1
    · refine ih _ distinct (fun x hx => ⟨(hps x hx).1, ?_⟩) ?_ q hq
      · rw [startDarn_panel s hp, if_neg (by rintro rfl; exact fresh hx), (hps x hx).2]
      · rwa [startDarn_spare? hp (by rw [serves]; decide)]

/-! ### The third failure -/

/-- What the scalar unit's failure leaves: issue stops, the aborted bundle is given up. -/
theorem laneHard_leaves (s : State) (r : Retry) : (s.laneHard r).arb = s.arb ∧
    (∀ q, s.panel q = .retired → (s.laneHard r).panel q = .retired) ∧ (s.laneHard r).issue.retry = none ∧
      (s.laneHard r).trouble.laneHard = true ∧
        (s.issue.running = true → (s.laneHard r).issue.stop = some .laneHard) := by
  obtain ⟨⟨arb, running, retired, -⟩, retry⟩ := retryOver_upkeep s
  unfold State.laneHard
  extract_lets _ _ t u
  have stopped : u.arb = s.retryOver.arb ∧ u.panels = s.retryOver.panels ∧ u.issue.retry = s.retryOver.issue.retry ∧
      u.trouble.laneHard = true ∧ (s.issue.running = true → u.issue.stop = some .laneHard) := by
    unfold u
    split
    · exact ⟨rfl, rfl, rfl, rfl, fun _ => rfl⟩
    · next h => exact ⟨rfl, rfl, rfl, rfl, fun k => (h (running.trans k)).elim⟩
  clear_value u
  obtain ⟨arb', panels, retry', hard, stop⟩ := stopped
  have panel (q : Nat) (hq : s.panel q = .retired) : u.panel q = .retired :=
    (congrArg (fun v : Vector PanelState 18 => v[q]?.getD .retired) panels).trans (retired q hq)
  split
  · exact ⟨arb'.trans arb, panel, retry'.trans retry, hard, stop⟩
  · exact ⟨arb'.trans arb, panel, retry'.trans retry, hard, stop⟩

/-- The state with the transfer handed over, before a failure of a re-execution counts. -/
def Env.failState (e : Env) (r : Retry) (errs : List LaneErr) (handed : Bool) : State :=
  e.recordLane (if handed && !r.handed && handsFirst e.b errs then mHand e r.out e.s else e.s) errs

theorem recordLane_repair (e : Env) (t : State) (errs : List LaneErr) : (e.recordLane t errs).repair = t.repair := by
  rw [recordLane_eq]
  rfl

theorem recordLane_retryCount (e : Env) (t : State) (errs : List LaneErr) :
    (e.recordLane t errs).retryCount = t.retryCount := by
  rw [recordLane_eq]
  rfl

theorem failState_repair (e : Env) (r : Retry) (errs : List LaneErr) (handed : Bool) :
    (e.failState r errs handed).repair = e.s.repair := by
  rw [Env.failState, recordLane_repair, apply_ite State.repair, repair_of_offPort (mHand_offPort e r.out e.s), ite_self]

theorem failState_retryCount (e : Env) (r : Retry) (errs : List LaneErr) (handed : Bool) :
    (e.failState r errs handed).retryCount = e.s.retryCount := by
  rw [Env.failState, recordLane_retryCount, apply_ite State.retryCount, mHand_retryCount, ite_self]

/-- The aborted bundle after a failure of its re-execution, `n` failures in a row counted. -/
def Retry.failed (r : Retry) (b : Bundle) (errs : List LaneErr) (handed : Bool) (n : Nat) : Retry :=
  { r with handed := r.handed || (handed && handsFirst b errs), fails := n }

theorem failed_handed (r : Retry) (b : Bundle) (errs : List LaneErr) (handed : Bool) :
    (r.handed || (handed && !r.handed && handsFirst b errs)) = (r.handed || (handed && handsFirst b errs)) := by
  cases r.handed <;> simp

theorem failAgain_of_few {r : Retry} (h : r.fails + 1 < 3) (e : Env) (errs : List LaneErr) (handed : Bool) :
    State.failAgain e r errs handed =
      (e.failState r errs handed).setRetry (some (r.failed e.b errs handed (r.fails + 1))) := by
  unfold State.failAgain Retry.failed
  dsimp only
  rw [if_pos h, failed_handed]
  rfl

/-- The panels named at the third failure. -/
def namedPanels (errs : List LaneErr) : List Nat :=
  (List.range 18).filter fun p => errs.any fun x => x.panel.toNat == p

theorem mem_namedPanels {errs : List LaneErr} {p : Nat} :
    p ∈ namedPanels errs ↔ p < 18 ∧ ∃ x ∈ errs, x.panel.toNat = p := by
  simp [namedPanels]

theorem namedPanels_nodup (errs : List LaneErr) : (namedPanels errs).Nodup := List.nodup_range.filter _

theorem namedPanels_singleton {x : LaneErr} (h : x.panel.toNat < 18) : namedPanels [x] = [x.panel.toNat] := by
  have one : ∀ n < 18, (List.range 18).filter (fun p => n == p) = [n] := by decide
  simpa [namedPanels] using one _ h

/-- The state in which the panels named at the third failure are retired. -/
def Env.thirdState (e : Env) (r : Retry) (errs : List LaneErr) (handed : Bool) : State :=
  (namedPanels errs).foldl State.startDarn ((e.failState r errs handed).setRetry (some (r.failed e.b errs handed 0)))

theorem failAgain_of_third {r : Retry} (h : 3 ≤ r.fails + 1) (e : Env) (errs : List LaneErr) (handed : Bool) :
    State.failAgain e r errs handed =
      if errs.any fun x => x.panel == 31#5 then
        (e.thirdState r errs handed).laneHard (r.failed e.b errs handed r.fails)
      else (e.thirdState r errs handed).modIssue fun i =>
        { i with retry := i.retry.map fun x => { x with darning := (e.thirdState r errs handed).darningDue } } := by
  unfold State.failAgain Env.thirdState Retry.failed
  dsimp only
  rw [if_neg (by omega), failed_handed]
  rfl

/-- The errors that the execution meets: those found, and the armed injection's. -/
theorem faults_eq (e : Env) (errs : List LaneErr) : (e.faults errs).1 =
    match e.injected with | some (x, _) => if errs.contains x then errs else x :: errs | none => errs := by
  cases h : e.injected with
  | none => simp [Env.faults, h]
  | some p => simp [Env.faults, h]

theorem faults_kept (e : Env) (errs : List LaneErr) :
    (e.faults errs).2.repair = e.s.repair ∧ (e.faults errs).2.retryCount = e.s.retryCount := by
  unfold Env.faults
  split
  · next x u h =>
    unfold Env.injected at h
    dsimp only at h
    split at h
    · cases h
      exact ⟨rfl, rfl⟩
    · cases h
  · exact ⟨rfl, rfl⟩

theorem retried_repair (s : State) : s.retried.repair = s.repair := bump_repair s .retry 1

theorem retried_retryCount (s : State) :
    s.retried.retryCount = (s.hoops, min (s.counter .retry + 1) (2 ^ 32 - 1)) := by
  have counted := State.counter_bump s .retry .retry 1 (by decide)
  rw [State.retried, mark_retryCount, State.retryCount, State.bump_hoops, counted]
  rfl

theorem spare?_of_repair {s t : State} (h : t.repair = s.repair) : t.spare? = s.spare? := by
  simp only [State.spare?, panel_of_repair h]

theorem darningDue_of_arb {s t : State} (h : t.arb = s.arb) : t.darningDue = s.darningDue := by
  simp only [State.darningDue, State.darningNow, h]

/-- The state in which a re-execution fails: what the lanes meet, behind the counted re-execution. -/
theorem failState_of_due {s : State} {r : Retry} (errs : List LaneErr) (handed : Bool) :
    let t := (((s.retried.retryEnv r).faults errs).2.retryEnv r).failState r
      ((s.retried.retryEnv r).faults errs).1 handed
    t.repair = s.repair ∧ t.retryCount = (s.hoops, min (s.counter .retry + 1) (2 ^ 32 - 1)) := by
  obtain ⟨repair, count⟩ := faults_kept (s.retried.retryEnv r) errs
  refine ⟨(failState_repair ..).trans (repair.trans (retried_repair s)), ?_⟩
  exact (failState_retryCount ..).trans (count.trans (retried_retryCount s))

/-- The panels named at the third failure are retired, and darned where a spare is left. -/
theorem thirdState_panels {s : State} {e : Env} {r : Retry} {errs : List LaneErr} {handed : Bool}
    (repair : (e.failState r errs handed).repair = s.repair) :
    (∀ x ∈ errs, x.panel.toNat < 18 → (e.thirdState r errs handed).panel x.panel.toNat = .retired) ∧
      (s.spare? ≠ none → (∀ x ∈ errs, x.panel.toNat < 18 → s.panel x.panel.toNat = .inService) →
        ∀ x ∈ errs, x.panel.toNat < 18 → (e.thirdState r errs handed).darnDue x.panel.toNat) ∧
      (e.thirdState r errs handed).issue.running = s.issue.running := by
  have named (x : LaneErr) (hx : x ∈ errs) (h : x.panel.toNat < 18) : x.panel.toNat ∈ namedPanels errs :=
    mem_namedPanels.mpr ⟨h, x, hx, rfl⟩
  refine ⟨fun x hx h => ?_, fun spare serve x hx h => ?_, ?_⟩
  · rw [Env.thirdState, foldDarn_panel _ _ fun p hp => (mem_namedPanels.mp hp).1, if_pos (named x hx h)]
  · refine foldDarn_due _ _ (namedPanels_nodup errs) (fun p hp => ?_) ?_ _ (named x hx h)
    · obtain ⟨hp, y, hy, rfl⟩ := mem_namedPanels.mp hp
      exact ⟨hp, (panel_of_repair repair _).trans (serve y hy hp)⟩
    · exact (spare?_of_repair repair).trans_ne spare
  · rw [Env.thirdState, foldDarn_running]
    exact congrArg (fun x => x.2.2.2.running) repair

/-- The third failure, whatever it names. -/
theorem failAgain_third_leaves {s : State} {e : Env} {r : Retry} {errs : List LaneErr} {handed : Bool}
    (repair : (e.failState r errs handed).repair = s.repair) (third : 3 ≤ r.fails + 1) :
    let t := State.failAgain e r errs handed
    (∀ x ∈ errs, x.panel.toNat < 18 → t.panel x.panel.toNat = .retired) ∧
      (s.spare? ≠ none → (∀ x ∈ errs, x.panel.toNat < 18 → s.panel x.panel.toNat = .inService) →
        ∀ x ∈ errs, x.panel.toNat < 18 → t.darnDue x.panel.toNat) ∧
      ((∃ x ∈ errs, x.panel = 31) → t.issue.retry = none ∧ t.trouble.laneHard = true ∧
        (s.issue.running = true → t.issue.stop = some .laneHard)) := by
  obtain ⟨retired, due, running⟩ := thirdState_panels repair
  dsimp only
  rw [failAgain_of_third third]
  generalize e.thirdState r errs handed = u at retired due running
  split
  · obtain ⟨arb, kept, unaborted, hard, stop⟩ := laneHard_leaves u (r.failed e.b errs handed r.fails)
    exact ⟨fun x hx h => kept _ (retired x hx h), fun k l x hx h => (darnDue_of_arb arb _).mpr (due k l x hx h),
      fun _ => ⟨unaborted, hard, fun k => stop (running.trans k)⟩⟩
  · next none =>
    refine ⟨retired, due, fun h => (none ?_).elim⟩
    simpa using h

/-- What the third failure leaves where it names none but a panel: the panel's darning, or its place to go. -/
theorem failAgain_of_one_panel {e : Env} {r : Retry} {x : LaneErr} {errs : List LaneErr} (one : errs = [x])
    (handed : Bool) (third : 3 ≤ r.fails + 1) (hx : x.panel.toNat < 18) :
    State.failAgain e r errs handed =
      (let u := ((e.failState r errs handed).setRetry (some (r.failed e.b errs handed 0))).startDarn x.panel.toNat
       u.modIssue fun i => { i with retry := i.retry.map fun y => { y with darning := u.darningDue } }) := by
  subst one
  have panel : ([x].any fun x => x.panel == 31#5) = false := by
    have : x.panel ≠ 31#5 := by rintro h; rw [h] at hx; exact absurd hx (by decide)
    simpa using this
  rw [failAgain_of_third third, panel, Env.thirdState, namedPanels_singleton hx]
  rfl

/-- With a spare left and nothing else running the panel's darning starts. -/
theorem failAgain_of_spare {s : State} {e : Env} {r : Retry} {x : LaneErr} {errs : List LaneErr} {handed : Bool}
    (repair : (e.failState r errs handed).repair = s.repair) (one : errs = [x]) (third : 3 ≤ r.fails + 1)
    (hx : x.panel.toNat < 18) (serves : s.panel x.panel.toNat ≠ .retired) (spare : s.spare? ≠ none)
    (idle : s.arb.running = none) :
    let t := State.failAgain e r errs handed
    t.arb.running = some ⟨.darning x.panel.toNat, .engine⟩ ∧ t.panelMap = s.panelMap ∧
      t.issue.retry = some { r.failed e.b errs handed 0 with darning := true } := by
  have arb : (e.failState r errs handed).arb = s.arb := congrArg (fun x => x.2.2.1) repair
  have map : (e.failState r errs handed).panelMap = s.panelMap := congrArg (fun x => x.2.1) repair
  have start := startDarn_of_idle (s := (e.failState r errs handed).setRetry (some (r.failed e.b errs handed 0)))
    (p := x.panel.toNat) (by rw [← panel_of_repair repair] at serves; exact serves)
    (by rw [← spare?_of_repair repair] at spare; exact spare) (by rw [← arb] at idle; exact idle)
  dsimp only
  rw [failAgain_of_one_panel one handed third hx, start]
  exact ⟨rfl, map, rfl⟩

/-- With no spare left the panel is retired, and its place goes at the boundary. -/
theorem failAgain_of_no_spare {s : State} {e : Env} {r : Retry} {x : LaneErr} {errs : List LaneErr} {handed : Bool}
    (repair : (e.failState r errs handed).repair = s.repair) (one : errs = [x]) (third : 3 ≤ r.fails + 1)
    (hx : x.panel.toNat < 18) (serves : s.panel x.panel.toNat ≠ .retired) (spare : s.spare? = none)
    (undarned : s.darningDue = false) :
    let t := State.failAgain e r errs handed
    t.panel x.panel.toNat = .retired ∧ t.panelMap = s.panelMap ∧
      t.issue.retry = some { r.failed e.b errs handed 0 with lost := r.lost ++ [x.panel.toNat], darning := false } := by
  have arb : (e.failState r errs handed).arb = s.arb := congrArg (fun x => x.2.2.1) repair
  have map : (e.failState r errs handed).panelMap = s.panelMap := congrArg (fun x => x.2.1) repair
  have start := startDarn_of_none (s := (e.failState r errs handed).setRetry (some (r.failed e.b errs handed 0)))
    (p := x.panel.toNat) (by rw [← panel_of_repair repair] at serves; exact serves)
    (by rw [← spare?_of_repair repair] at spare; exact spare)
  have panel := logDarn_panel (((e.failState r errs handed).setRetry (some (r.failed e.b errs handed 0))).losePanel
    x.panel.toNat) 1 0 x.panel.toNat x.panel.toNat
  rw [losePanel_panel _ hx, if_pos rfl] at panel
  have lost := (congrArg Prod.snd (logDarn_repair _ 1 0 x.panel.toNat)).trans
    (losePanel_rest_of_retry (s := (e.failState r errs handed).setRetry (some (r.failed e.b errs handed 0)))
      x.panel.toNat rfl)
  dsimp only
  rw [failAgain_of_one_panel one handed third hx, start]
  generalize State.logDarn _ 1 0 x.panel.toNat = u at panel lost ⊢
  have due : u.darningDue = false :=
    (darningDue_of_arb ((congrArg (fun x => x.2.1) lost).trans arb)).trans undarned
  have issue : u.issue = _ := congrArg (fun x => x.2.2) lost
  refine ⟨panel, (congrArg Prod.fst lost).trans map, ?_⟩
  dsimp only [State.modIssue]
  rw [due, issue]
  rfl

theorem settle_laneHard (s t : State) : (State.settle s t).trouble.laneHard = t.trouble.laneHard :=
  settle_trouble_keeps TroubleUnit.laneHard (fun _ _ => rfl) (fun _ _ _ => rfl) s t

theorem settle_panel (s t : State) (q : Nat) : (State.settle s t).panel q = t.panel q := by simp [State.panel]

end Sys2Proof.Machine
open Sys2Proof Sys2Proof.Machine

/-- Settles O35: the abort of a clear bundle; a re-execution that meets no error; and one that does, by what each failure
leaves of the aborted bundle, the panels and the structural activities. -/
theorem laneRetry : Obligations.LaneRetry := by
  unfold Obligations.LaneRetry
  intro s
  refine ⟨fun i errs handed clear unaborted found => ?_, fun r aborted works restitch undarned darned => ?_⟩
  · have run : exec (.laneError i errs handed) s = .next (s.settle (s.laneError i errs handed)) := rfl
    rw [run, laneError_of_clear handed clear unaborted found, Env.laneAbort, recordLane_eq]
    rfl
  intro m e reads table
  have due : RetryDue s r := ⟨aborted, works, restitch, undarned, darned, reads, table⟩
  refine ⟨fun lanes => ?_, fun errs handed found => ?_⟩
  · have run : exec .retryReexecute s = .next (s.settle s.reexecute) := rfl
    rw [run, reexecute_of_due due lanes, State.retryDone, retryOver_of_kept (execBundle_retry _ _ _) rfl]
    rfl
  intro c all q
  obtain ⟨repair, count⟩ := failState_of_due (s := s) (r := r) errs handed
  have met : ((s.retried.retryEnv r).faults errs).1 = all := faults_eq e errs
  have run : exec c s =
      .next (s.settle (State.failAgain (((s.retried.retryEnv r).faults errs).2.retryEnv r) r all handed)) := by
    rw [← met, ← laneError_of_due handed due found]
    rfl
  rw [met] at repair count
  have bundle : (((s.retried.retryEnv r).faults errs).2.retryEnv r).b = r.bundle := rfl
  generalize ((s.retried.retryEnv r).faults errs).2.retryEnv r = f at repair count run bundle
  refine ⟨fun few => ⟨_, run, ?_⟩, fun third => ⟨_, run, ?_⟩, fun x third one hx serves spare idle => ⟨_, run, ?_⟩,
    fun x third one hx serves spare => ⟨_, run, ?_⟩⟩
  · simp only [State.retryCount, Prod.mk.injEq] at count
    rw [failAgain_of_few few, bundle, settle_issue, settle_counter, settle_hoops]
    exact ⟨rfl, count.2, count.1⟩
  · obtain ⟨retired, darned, stopped⟩ := failAgain_third_leaves (handed := handed) repair third
    refine ⟨fun x hx h => (settle_panel ..).trans (retired x hx h), ?_, ?_⟩
    · rw [settle_arb]
      exact darned
    · rw [settle_issue, settle_laneHard]
      exact stopped
  · rw [settle_arb, settle_panelMap, settle_issue]
    obtain ⟨running, map, retry⟩ := failAgain_of_spare (handed := handed) repair one third hx serves spare idle
    rw [bundle] at retry
    exact ⟨running, map, retry⟩
  · rw [settle_panel, settle_panelMap, settle_issue]
    obtain ⟨panel, map, retry⟩ := failAgain_of_no_spare (handed := handed) repair one third hx serves spare undarned
    rw [bundle] at retry
    exact ⟨panel, map, retry⟩
end

section
/-!
SUPPORT. What the S slot of a bundle can change: nothing outside `State.offScalar` (R106 to R119).
-/

namespace Sys2Proof.Machine

/-- An entry point written is not among the other registers. -/
theorem filter_set_of_dropped {α : Type} [DecidableEq α] (d : α) {k : Nat} (v : α) {p : Nat → Bool} (h : p k = false)
    (m : SMap α) : (m.set d k v).filter (fun c => p c.1) = m.filter fun c => p c.1 := by
  induction m with
  | nil =>
    unfold SMap.set
    split
    · rfl
    · simp [h]
  | cons c t ih =>
    obtain ⟨i, w⟩ := c
    unfold SMap.set
    split
    · split
      · rfl
      · simp [h]
    · split
      · next e =>
        subst e
        split
        · simp [h]
        · simp [h]
      · rw [List.filter_cons, List.filter_cons, ih]

@[simp] theorem modCtx_offScalar (s : State) (st : Stream) (f : Ctx → Ctx) :
    (s.modCtx st f).offScalar = s.offScalar := by
  cases st with
  | main => rfl
  | edge => simp [State.modCtx, State.offScalar, Function.comp_def]

@[simp] theorem mark_offScalar (s : State) (p b : Nat) : (s.mark p b).offScalar = s.offScalar := by
  have same : (s.mark p b).pages.map (fun h => { h with sticky := 0 }) = s.pages.map fun h => { h with sticky := 0 } :=
    congrArg State.pages (State.mark_offLane s p b)
  have e : (s.mark p b).offScalar =
      { s.offScalar with pages := (s.mark p b).pages.map fun h => { h with sticky := 0 } } := rfl
  rw [e, same]
  rfl

@[simp] theorem markIf_offScalar (s : State) (c : Bool) (p b : Nat) : (s.markIf c p b).offScalar = s.offScalar := by
  cases c
  · rfl
  · exact mark_offScalar s p b

@[simp] theorem bump_offScalar (s : State) (c : Ctr) (n : Nat) : (s.bump c n).offScalar = s.offScalar := by
  unfold State.bump
  split
  · rfl
  · exact (markIf_offScalar _ _ _ _).trans rfl

@[simp] theorem modIssue_offScalar (s : State) (f : IssueUnit → IssueUnit) : (s.modIssue f).offScalar = s.offScalar := rfl

/-- A run that keeps its tag and its program. -/
theorem modRun_offScalar (s : State) {f : Run → Run} (h : ∀ r, ({ f r with ctx := Ctx.reset, pc := 0, wait := none
                                                                           ended := none, abortAt := 0 } : Run) =
      { r with ctx := Ctx.reset, pc := 0, wait := none, ended := none, abortAt := 0 }) :
    (s.modRun f).offScalar = s.offScalar := by
  simp [State.modRun, State.offScalar, Function.comp_def, h]

/-- The classes 0, 2 and 3 raise no guard. -/
theorem raise_offScalar (s : State) {k : Nat} (r : Raises) (h : k ≠ 1) : (s.raise k r).offScalar = s.offScalar := by
  have flags (x : BitVec 16) : ({ s with trouble := { s.trouble with flags := x } } : State).offScalar = s.offScalar := rfl
  simp [State.raise, h, flags]

@[simp] theorem setPc_offScalar (s : State) (st : Stream) (n : Nat) : (s.setPc st n).offScalar = s.offScalar := by
  cases st with
  | main => rfl
  | edge => exact modRun_offScalar s fun _ => rfl

@[simp] theorem setWait_offScalar (s : State) (st : Stream) (w : Option Wait) :
    (s.setWait st w).offScalar = s.offScalar := by
  cases st with
  | main => rfl
  | edge => exact modRun_offScalar s fun _ => rfl

@[simp] theorem passEnd_offScalar (s : State) (st : Stream) : (s.passEnd st).offScalar = s.offScalar := by
  cases st with
  | main =>
    unfold State.passEnd
    dsimp only
    split
    · exact (mark_offScalar _ _ _).trans rfl
    · rfl
  | edge => exact modRun_offScalar s fun r => by split <;> rfl

@[simp] theorem goTo_offScalar (s : State) (st : Stream) (n : Nat) : (s.goTo st n).offScalar = s.offScalar := by
  rw [State.goTo, passEnd_offScalar, setPc_offScalar]

theorem setReg_offScalar (s : State) (k : Nat) (h : k < 8) (v : Word) :
    (s.setReg 1 (0x060 + 4 * k) v).offScalar = s.offScalar := by
  have same := filter_set_of_dropped (0 : Word) (k := 1 * 4096 + (0x060 + 4 * k)) (v ^^^ regReset 1 (0x060 + 4 * k))
    (p := fun c => !(0x1060 ≤ c && c < 0x1080)) (by simp; omega) s.regs
  simp only [State.setReg, State.offScalar, same]

theorem waitEffect_offScalar (e : Env) (t : State) (a : BitVec 64) : (waitEffect e t a).offScalar = t.offScalar := by
  unfold waitEffect
  dsimp only
  split
  · simp
  · split <;> simp
  · simp
  · split <;> simp

/-- The S slot changes no more than `State.offScalar` leaves out. -/
theorem sEffect_offScalar (e : Env) (t : State) : (sEffect e t).offScalar = t.offScalar := by
  unfold sEffect
  dsimp only
  split
  · rw [goTo_offScalar, raise_offScalar _ _ (by decide), modCtx_offScalar]
  · split
    · simp [setvlEffect]
    · simp [setrowEffect]
    · simp
    · simp
    · simp
    · simp
    · simp
    · split
      · simp
      · split <;> simp
    · rw [waitEffect_offScalar, setPc_offScalar]
    · split
      · simp
      · simp [State.dropPicot]
    · split
      · simp [State.takeDir]
      · split <;> simp
    · rw [goTo_offScalar, setReg_offScalar _ _ (Nat.mod_lt _ (by decide))]
    · rfl
    · simp

end Sys2Proof.Machine
end

section
/-!
SUPPORT. A bundle whose M slot reaches its limit, and the head of the outbound port (R275, R281, R283, R285, R301).
Settles O34.
-/

namespace Sys2Proof.Machine

/-! ### No-operations in the vector slots -/

theorem V0Slot.major_of_isNop {v : V0Slot} (h : v.isNop = true) : v.major = 0 := by
  have e := of_decide_eq_true h
  exact congrArg V0Slot.major e

theorem V1Slot.major_of_isNop {v : V1Slot} (h : v.isNop = true) : v.major = 0 := by
  have e := of_decide_eq_true h
  exact congrArg V1Slot.major e

theorem chainEffect_of_major_ne {e : Env} (t : State) (h : e.b.v0.major ≠ 1) : chainEffect e t = t := by
  unfold chainEffect
  dsimp only
  exact if_pos ((Bool.or_eq_true _ _).mpr (.inl (decide_eq_true h)))

theorem v1Effect_of_major_zero {e : Env} (t : State) (h : e.b.v1.major = 0) : v1Effect e t = t := by
  unfold v1Effect
  rw [h]
  rfl

/-- Two no-operations in the vector slots leave everything. -/
theorem vectored_of_isNop {s : State} {i : Issue} (h : i.bundle.v0.isNop = true) (k : i.bundle.v1.isNop = true) :
    s.vectored i = s := by
  have chain : chainEffect (s.env i) s = s :=
    chainEffect_of_major_ne s (by rw [show (s.env i).b.v0.major = 0 from V0Slot.major_of_isNop h]; decide)
  rw [State.vectored, chain]
  exact v1Effect_of_major_zero s (V1Slot.major_of_isNop k)

/-! ### The M slot at its limit -/

/-- The state behind the M slot, `o` saying whether its limit has passed. -/
def State.portDone (s : State) (i : Issue) (o : MOut) : State :=
  mRest (s.env i) o ((mHand (s.env i) o (s.vectored i)).beginLoad i.bundle.m)

theorem sEffect_hoops (e : Env) (t : State) : (sEffect e t).hoops = t.hoops :=
  (congrArg State.hoops (sEffect_offScalar e t) : (sEffect e t).offScalar.hoops = t.offScalar.hoops)

/-- The S slot leaves the port, the mirror and the hoops, and clears no sticky bit. -/
theorem execBundle_of_portDone (s : State) (i : Issue) (o : MOut) :
    OutgoingKept (s.portDone i o) (execBundle (s.env i) o false) ∧
      (execBundle (s.env i) o false).hoops = (s.portDone i o).hoops := by
  have e : execBundle (s.env i) o false = if i.stream = .main then
      (sEffect (s.env i) (s.portDone i o)).modIssue fun x => { x with count := x.count + 1 }
    else sEffect (s.env i) (s.portDone i o) := rfl
  rw [e]
  split
  · exact ⟨(OutgoingKept.sEffect ..).trans (.modIssue _ _), sEffect_hoops _ _⟩
  · exact ⟨.sEffect .., sEffect_hoops _ _⟩

/-- The post-increment of a descriptor leaves the port, the mirror and the hoops. -/
theorem postIncrement_kept {e : Env} {u : State} (f : Ctx → Ctx) :
    OutgoingKept u (if e.b.m.pi = 1 then u.modCtx e.st f else u) ∧
      (if e.b.m.pi = 1 then u.modCtx e.st f else u).hoops = u.hoops := by
  split
  · exact ⟨.modCtx u _ _, State.modCtx_hoops _ _ _⟩
  · exact ⟨.refl u, rfl⟩

/-- An NSEND at the limit of its wait for credit: its record is discarded and counted. -/
theorem portDone_nsend {s : State} {i : Issue} (hm : i.bundle.m.major = 7)
    (h : (addrPackage (s.env i).netAddr).toNat ≤ Config.maxPackage) :
    let u := (((s.vectored i).bump .sendDiscard 1).mark 8 2).countSent
    OutgoingKept u (s.portDone i .sendTimeout) ∧ (s.portDone i .sendTimeout).hoops = u.hoops := by
  have sent : nsendEffect (s.env i) (s.vectored i) true = (((s.vectored i).bump .sendDiscard 1).mark 8 2).countSent := by
    unfold nsendEffect
    dsimp only
    rw [if_neg (Nat.not_lt.mpr h)]
    rfl
  have hand : mHand (s.env i) .sendTimeout (s.vectored i) = nsendEffect (s.env i) (s.vectored i) true := by
    unfold mHand
    dsimp only [State.env]
    rw [hm]
    rfl
  have load (t : State) : t.beginLoad i.bundle.m = t := by
    simp [State.beginLoad, hm]
  unfold State.portDone mRest
  rw [load, hand, sent]
  dsimp only [State.env]
  rw [hm]
  exact postIncrement_kept (e := s.env i) _

/-- An NRECV at its limit. -/
theorem portDone_nrecv {s : State} {i : Issue} (hm : i.bundle.m.major = 8) :
    OutgoingKept ((s.vectored i).mark 9 5) (s.portDone i .recvTimeout) ∧
      (s.portDone i .recvTimeout).hoops = (s.vectored i).hoops := by
  have hand : mHand (s.env i) .recvTimeout (s.vectored i) = s.vectored i := by
    unfold mHand
    dsimp only [State.env]
    rw [hm]
    rfl
  have load (t : State) : t.beginLoad i.bundle.m = t := by
    simp [State.beginLoad, hm]
  unfold State.portDone mRest
  rw [hand, load]
  dsimp only [State.env]
  rw [hm]
  exact postIncrement_kept (e := s.env i) (u := (s.vectored i).mark 9 5) _

/-- A POPQ at its limit. -/
theorem portDone_popq {s : State} {i : Issue} (hm : i.bundle.m.major = 6) :
    OutgoingKept ((s.vectored i).mark 1 6) (s.portDone i .popqTimeout) ∧
      (s.portDone i .popqTimeout).hoops = (s.vectored i).hoops := by
  have hand : mHand (s.env i) .popqTimeout (s.vectored i) = s.vectored i := by
    unfold mHand
    dsimp only [State.env]
    rw [hm]
    rfl
  have load (t : State) : t.beginLoad i.bundle.m = t := by
    simp [State.beginLoad, hm]
  unfold State.portDone mRest
  rw [hand, load]
  dsimp only [State.env]
  rw [hm]
  exact postIncrement_kept (e := s.env i) (u := (s.vectored i).mark 1 6) _

/-- What a bundle leaves whose M slot moves nothing at its limit: the port, but for the mirror records discarded, the
limit's sticky bit, and with no-operations in the vector slots the hoops. -/
theorem execBundle_of_limit {s : State} {i : Issue} {o : MOut} {p b : Nat} (hp : p < 16) (hb : b < 32)
    (kept : OutgoingKept ((s.vectored i).mark p b) (s.portDone i o))
    (hoops : (s.portDone i o).hoops = (s.vectored i).hoops) :
    let t := State.settle s (execBundle (s.env i) o false)
    (t.sticky p).getLsbD b = true ∧ t.net = { s.net with rcount := s.net.rcount + (t.mirror.mseq - s.mirror.mseq) } ∧
      (i.bundle.v0.isNop = true → i.bundle.v1.isNop = true → t.hoops = s.hoops) := by
  obtain ⟨slot, bytes⟩ := execBundle_of_portDone s i o
  obtain ⟨outgoing, sticky⟩ := kept.trans slot
  have mirror : (execBundle (s.env i) o false).mirror = (s.vectored i).mirror := mirror_of_outgoing outgoing
  have net : (execBundle (s.env i) o false).net = (s.vectored i).net := net_of_outgoing outgoing
  simp only [settle_net, settle_mirror, settle_hoops]
  refine ⟨(sticky.trans (.settle _ _)).marked hp hb, ?_, fun h k => ?_⟩
  · rw [net, mirror]
    exact vectored_net s i
  · rw [bytes, hoops, vectored_of_isNop h k]

theorem countSent_hoops (s : State) : s.countSent.hoops = s.hoops := rfl

/-! ### The head of the port -/

/-- The head of the outbound port at its limit. -/
theorem sendTimeout_of_head {s : State} {o : OutRec} {os : List OutRec} (h : s.net.outQ = o :: os) :
    s.sendTimeout = (((s.modNet fun u => { u with outQ := os }).discardOut o.mirror).dropUnacked o).mark 8 2 := by
  rw [State.sendTimeout, h]

/-- With the port empty the limit is that of the NSEND which waits for credit. -/
theorem sendTimeout_of_clear {s : State} {i : Issue} (h : s.net.outQ = []) (clear : Clear s i .sendTimeout)
    (only : i.stream = .main → s.streamReady .edge = false) :
    s.sendTimeout = execBundle (s.env i) .sendTimeout false ∧ s.creditWaits (s.env i) i.bundle.m = true := by
  have waits : s.creditWaits (s.env i) i.bundle.m = true := by
    have ready := clear.ready
    simp only [State.mustWait, Bool.or_eq_false_iff] at ready
    have here := ready.1.1.1.1.1
    simpa [State.env] using here
  have stream : s.creditStream = some i.stream := by
    have found : (s.canOffer i.stream &&
        s.creditWaits ⟨s, i.stream, s.fetched i.stream, s.twCap⟩ (s.fetched i.stream).m) = true := by
      rw [clear.offered, clear.atPc]
      exact waits
    unfold State.creditStream
    cases hs : i.stream with
    | edge =>
      rw [hs] at found
      rw [List.find?_cons, found]
    | main =>
      rw [hs] at found
      have idle : s.canOffer .edge = false := by simp [State.canOffer, only hs]
      rw [List.find?_cons, idle, Bool.false_and, List.find?_cons, found]
  refine ⟨?_, waits⟩
  rw [State.sendTimeout, h, stream]
  dsimp only
  rw [clear.atPc]
  exact issueBundle_of_clear clear

theorem maxPackage_of_creditWaits {s : State} {i : Issue} (h : s.creditWaits (s.env i) i.bundle.m = true) :
    (addrPackage (s.env i).netAddr).toNat ≤ Config.maxPackage := by
  simp only [State.creditWaits, Bool.and_eq_true, decide_eq_true_eq] at h
  exact h.1.1.2

theorem discardOut_counter (s : State) (b : Bool) :
    (s.discardOut b).counter .sendDiscard = min (s.counter .sendDiscard + 1) (2 ^ 32 - 1) := by
  cases b <;> exact counter_discard s

theorem dropUnacked_counter (s : State) (o : OutRec) (c : Ctr) : (s.dropUnacked o).counter c = s.counter c := by
  unfold State.dropUnacked
  split <;> rfl

theorem dropUnacked_net (s : State) (o : OutRec) : (s.dropUnacked o).net = s.net := by
  unfold State.dropUnacked
  split <;> rfl

theorem discardOut_net (s : State) (b : Bool) : (s.discardOut b).net = s.net := by
  cases b <;> exact State.bump_net s .sendDiscard 1

end Sys2Proof.Machine
open Sys2Proof Sys2Proof.Machine

/-- Settles O34: the head of the port; an NSEND, an NRECV and a POPQ at their limits by what their bundle leaves; and
credit. -/
theorem portEvents : Obligations.PortEvents := by
  unfold Obligations.PortEvents
  intro s dropped
  refine ⟨fun o os head => ⟨?_, s.settle s.sendTimeout, rfl, ?_⟩, fun i empty hm clear only => ?_, fun up p n => ?_, fun i hm clear => ?_,
    fun i hm clear => ?_⟩
  · have run : exec .recordLeavesPort s = .next (s.settle s.recordLeaves) := rfl
    rw [run, State.recordLeaves, head]
    rfl
  · rw [sendTimeout_of_head head, settle_net, settle_counter, settle_mirror]
    refine ⟨?_, (StickyKept.settle _ _).marked (by decide) (by decide), ?_, fun mirror => ?_, fun mirror => ?_⟩
    · rw [State.mark_net, dropUnacked_net, discardOut_net]
      rfl
    · rw [State.mark_counter, dropUnacked_counter, discardOut_counter]
      rfl
    · rw [mirror]
      simp [State.dropUnacked, mirror, State.discardOut, State.modMirror]
    · rw [mirror]
      simp [State.dropUnacked, mirror, State.discardOut]
  · obtain ⟨run, waits⟩ := sendTimeout_of_clear empty clear only
    obtain ⟨kept, hoops⟩ := portDone_nsend hm (maxPackage_of_creditWaits waits)
    obtain ⟨slot, bytes⟩ := execBundle_of_portDone s i .sendTimeout
    obtain ⟨outgoing, sticky⟩ := kept.trans slot
    refine ⟨s.settle s.sendTimeout, rfl, ?_⟩
    dsimp only [dropped]
    rw [run, settle_net, settle_counter, settle_hoops, settle_mirror, bytes, hoops]
    refine ⟨?_, ?_, fun plain => ?_, fun h k => ?_⟩
    · exact (((StickyKept.countSent _).trans sticky).trans (.settle _ _)).marked (by decide) (by decide)
    · rw [net_of_outgoing outgoing, mirror_of_outgoing outgoing, countSent_net, countSent_mirror, State.mark_net,
        State.mark_mirror, State.bump_net, State.bump_mirror, vectored_net]
    · rw [discards_of_outgoing outgoing, countSent_counter, State.mark_counter, counter_discard, vectored_counter plain]
    · rw [countSent_hoops, State.mark_hoops, State.bump_hoops, vectored_of_isNop h k]
  · have run : exec (.outboundCredit p n) s = .next (s.settle (s.addCredit p n)) := rfl
    rw [run, State.addCredit, up]
    rfl
  · have run : exec (.recvTimeout i) s = .next (s.settle (s.issueBundle i .recvTimeout none)) := rfl
    rw [issueBundle_of_clear clear] at run
    obtain ⟨kept, hoops⟩ := portDone_nrecv (s := s) hm
    exact ⟨_, run, execBundle_of_limit (by decide) (by decide) kept hoops⟩
  · have run : exec (.popqTimeout i) s = .next (s.settle (s.issueBundle i .popqTimeout none)) := rfl
    rw [issueBundle_of_clear clear] at run
    obtain ⟨kept, hoops⟩ := portDone_popq (s := s) hm
    exact ⟨_, run, execBundle_of_limit (by decide) (by decide) kept hoops⟩
end

section
/-!
SUPPORT. Bundles that do not execute: not offered, kept waiting, refused before they read, or stopped by what they read
(R38, R44, R72, R112, R216, R244, R251, R298). Settles O54.
-/

namespace Sys2Proof.Machine

/-! ### The command of a row -/

/-- A row's command issues its bundle. -/
theorem exec_of_row {c : Instr} {row : Row} {i : Issue} (h : c.row = some (row, i)) (wf : c.wf = true) (s : State) :
    exec c s = .next (s.settle (s.issueBundle i .normal none)) := by
  have carries : i.bundle.carries row = true := by
    unfold Instr.wf at wf
    rwa [h] at wf
  have issued : exec c s = .next (s.settle (s.issueRow row i)) := by
    cases c <;> cases h <;> rfl
  rw [issued, State.issueRow, if_pos carries]

theorem issueBundle_of_not_offered {s : State} {i : Issue} {o : MOut} {err : Option (List LaneErr × Bool)}
    (h : s.canOffer i.stream = false ∨ s.fetched i.stream ≠ i.bundle) : s.issueBundle i o err = s := by
  unfold State.issueBundle
  rcases h with h | h <;> simp [h]

theorem issueBundle_of_held {s t : State} {i : Issue} {o : MOut} {err : Option (List LaneErr × Bool)}
    (offered : s.canOffer i.stream = true) (atPc : s.fetched i.stream = i.bundle)
    (h : s.gate i.stream i.bundle s.twCap o = .held t) : s.issueBundle i o err = t := by
  unfold State.issueBundle
  rw [offered, atPc, h]
  simp

/-! ### What a bundle that does not execute leaves -/

/-- What only a bundle's execution and its stop change: the hoops, fabric memory, the transfers, issue and the run. -/
def State.site (s : State) : SMap Byte × SMap Byte × List Xfer × IssueUnit × Option Run :=
  (s.hoops, s.fabric, s.xfers, s.issue, s.edging.run)

theorem issue_of_site {s t : State} (h : t.site = s.site) : t.issue = s.issue :=
  congrArg (fun x : SMap Byte × SMap Byte × List Xfer × IssueUnit × Option Run => x.2.2.2.1) h

@[simp] theorem mark_site (s : State) (p b : Nat) : (s.mark p b).site = s.site := rfl

@[simp] theorem markIf_site (s : State) (c : Bool) (p b : Nat) : (s.markIf c p b).site = s.site := by
  cases c <;> rfl

@[simp] theorem bump_site (s : State) (c : Ctr) (n : Nat) : (s.bump c n).site = s.site := by
  unfold State.bump
  split
  · rfl
  · exact markIf_site ..

@[simp] theorem logDarn_site (s : State) (k c u : Nat) : (s.logDarn k c u).site = s.site := by
  unfold State.logDarn
  split
  · exact bump_site ..
  · rfl

@[simp] theorem settleCap_site (s t : State) : (State.settleCap s t).site = t.site := by
  unfold State.settleCap
  split <;> rfl

@[simp] theorem settle_site (s t : State) : (State.settle s t).site = t.site :=
  settle_keeps State.site (fun _ _ _ => rfl) (fun _ _ _ _ _ _ => rfl) s t

@[simp] theorem startStruct_site (s : State) (x : Start) : (s.startStruct x).site = s.site := by
  unfold State.startStruct
  dsimp only
  split
  · rfl
  · split
    · rfl
    · split
      · rfl
      · rfl
      · rw [bump_site, mark_site]

/-- While no aborted bundle waits, freeing the record slots changes the port alone. -/
theorem freeRecords_site {s : State} (h : s.issue.retry = none) : s.freeRecords.site = s.site := by
  unfold State.freeRecords
  rw [h]
  rfl

theorem retireHoop_site {s : State} (r : s.issue.retry = none) (h cause : Nat) (log : Bool) :
    (s.retireHoop h cause log).site = s.site := by
  unfold State.retireHoop
  extract_lets _ t u _ v
  have logged : u.site = s.site := by
    unfold u
    rw [mark_site]
    split
    · exact logDarn_site ..
    · rfl
  have retry : u.issue.retry = none := by
    rw [issue_of_site logged, r]
  have freed : v.site = u.site := by
    unfold v
    split
    · rw [mark_site, freeRecords_site (by exact retry)]
      rfl
    · rfl
  rw [settleCap_site, freed, logged]

theorem needSpareIn_site {s : State} (r : s.issue.retry = none) (h k cause : Nat) :
    (s.needSpareIn h k cause).site = s.site := by
  unfold State.needSpareIn
  split
  · rfl
  · split
    · split
      · rfl
      · split
        · exact retireHoop_site r ..
        · exact startStruct_site ..
    · exact retireHoop_site r ..

theorem hoopErr_site {s : State} (r : s.issue.retry = none) (e : EccErr) : (s.hoopErr e).site = s.site := by
  unfold State.hoopErr
  extract_lets h phys k rec_ _ key n t lim
  split
  · rw [needSpareIn_site (by exact r)]
    rfl
  · have counted : t.site = s.site := bump_site ..
    have retry : t.issue.retry = none := by
      rw [issue_of_site counted, r]
    split
    · rw [needSpareIn_site (by exact retry), mark_site, counted]
    · exact counted

theorem hoopErrs_site {s : State} (r : s.issue.retry = none) (es : List (EccErr × Bool)) :
    (es.foldl (fun (t : State) p => t.hoopErr p.1) s).site = s.site := by
  induction es generalizing s with
  | nil => rfl
  | cons e es ih =>
    have first := hoopErr_site r e.1
    have retry : (s.hoopErr e.1).issue.retry = none := by
      rw [issue_of_site first, r]
    rw [List.foldl_cons, ih retry, first]

theorem measNext_site (s : State) : s.measNext.site = s.site := by
  unfold State.measNext
  split <;> rfl

theorem decideSwap_site (s : State) (i : Nat) : (s.decideSwap i).site = s.site := by
  unfold State.decideSwap
  dsimp only
  split <;> rfl

theorem leafFails_site (s : State) (i : Nat) (b : Bool) : (s.leafFails i b).site = s.site := by
  unfold State.leafFails
  split
  · rfl
  · split
    · exact startStruct_site ..
    · rw [State.leafLost, logDarn_site, State.loseLeaf, decideSwap_site, State.measCancel, measNext_site]
      rfl

/-! ### Its sticky bits -/

theorem StickyKept.startStruct (s : State) (x : Start) : StickyKept s (s.startStruct x) := by
  unfold State.startStruct
  dsimp only
  split
  · exact .of_pages rfl
  · split
    · exact .of_pages rfl
    · split
      · exact .of_pages rfl
      · exact .of_pages rfl
      · exact (StickyKept.mark s 12 0 (by decide)).trans (.bump _ _ _)

theorem StickyKept.measNext (s : State) : StickyKept s s.measNext := by
  unfold State.measNext
  split <;> exact .of_pages rfl

theorem StickyKept.decideSwap (s : State) (i : Nat) : StickyKept s (s.decideSwap i) := by
  unfold State.decideSwap
  dsimp only
  split
  · exact StickyKept.trans (.of_pages rfl) (.mark _ 4 2 (by decide))
  · exact .refl s

theorem StickyKept.loseLeaf (s : State) (i : Nat) (b : Bool) : StickyKept s (s.loseLeaf i b) := by
  unfold State.loseLeaf State.measCancel
  refine StickyKept.trans ?_ (.decideSwap _ i)
  refine StickyKept.trans ?_ (.measNext _)
  exact .of_pages rfl

theorem StickyKept.leafFails (s : State) (i : Nat) (b : Bool) : StickyKept s (s.leafFails i b) := by
  unfold State.leafFails
  split
  · exact .refl s
  · split
    · exact StickyKept.startStruct s _
    · exact (StickyKept.loseLeaf s i b).trans (.logDarn _ _ _ _)

/-! ### Its stop -/

/-- `t` is `s` with issue stopped for `why`, its sticky bit set, or with the run aborted. -/
def State.StoppedAs (s t : State) (st : Stream) (why : StopReason) (page bit : Nat) (run : RunStatus) : Prop :=
  t.hoops = s.hoops ∧ t.fabric = s.fabric ∧ t.xfers = s.xfers ∧
    match st with
    | .main => t.issue = { s.issue with stop := some why, stopPc := s.issue.pc } ∧ (t.sticky page).getLsbD bit = true
    | .edge => ∃ r, s.edging.run = some r ∧ t.edging.run = some { r with ended := some run, abortAt := r.pc }

theorem retry_of_canOffer {s : State} {st : Stream} (h : s.canOffer st = true) : s.issue.retry = none := by
  simp only [State.canOffer, Bool.and_eq_true, Option.isNone_iff_eq_none] at h
  obtain ⟨⟨⟨-, retry⟩, -⟩, -⟩ := h
  exact retry

theorem run_of_canOffer {s : State} (h : s.canOffer .edge = true) : ∃ r, s.edging.run = some r ∧ r.ended = none := by
  simp only [State.canOffer, State.streamReady, Bool.and_eq_true] at h
  cases run : s.edging.run with
  | none => simp [run] at h
  | some r =>
    simp only [run, Bool.and_eq_true, Option.isNone_iff_eq_none] at h
    obtain ⟨⟨-, going, -⟩, -⟩ := h
    exact ⟨r, rfl, going⟩

/-- A stop of an offered bundle's stream, of a state that its reads have not changed where a stop writes, and with what
the storage loses after it. -/
theorem stoppedAs_settle {s u t : State} {st : Stream} {why : StopReason} {page bit : Nat} {run : RunStatus}
    (offered : s.canOffer st = true) (same : u.site = s.site) (stopped : t.site = (u.halted st why page bit run).site)
    (marked : st = .main → (t.sticky page).getLsbD bit = true) : s.StoppedAs (s.settle t) st why page bit run := by
  have site := (settle_site s t).trans stopped
  simp only [State.site, Prod.mk.injEq] at same site
  obtain ⟨hoops, fabric, xfers, issue, edging⟩ := same
  obtain ⟨hoops', fabric', xfers', issue', edging'⟩ := site
  cases st with
  | main =>
    refine ⟨hoops'.trans hoops, fabric'.trans fabric, xfers'.trans xfers, ?_, sticky_settle s t _ _ (marked rfl)⟩
    rw [issue']
    show ({ u.issue with stop := some why, stopPc := u.issue.pc } : IssueUnit) = _
    rw [issue]
  | edge =>
    obtain ⟨r, hr, going⟩ := run_of_canOffer offered
    refine ⟨hoops'.trans hoops, fabric'.trans fabric, xfers'.trans xfers, r, hr, ?_⟩
    rw [edging']
    show u.edging.run.map _ = _
    rw [edging, hr, Option.map_some, if_neg (by simp [going])]

theorem stoppedAs_halted {s u : State} {st : Stream} {why : StopReason} {page bit : Nat} {run : RunStatus}
    (offered : s.canOffer st = true) (same : u.site = s.site) (hp : page < 16) (hb : bit < 32) :
    s.StoppedAs (s.settle (u.halted st why page bit run)) st why page bit run :=
  stoppedAs_settle offered same rfl fun main => by
    subst main
    exact StickyKept.marked (StickyKept.refl _) hp hb

/-! ### The checks before execution -/

theorem standing_of_fetch_hard {s : State} {st : Stream} (h : ∃ e ∈ s.fetchErrs st, e.hard = true) (b : Bundle)
    (cap : TwCap) : ∃ t, s.standing st b cap = .held t ∧ t.site = (s.halted st .progUe 1 4 .stopped).site ∧
      (st = .main → (t.sticky 1).getLsbD 4 = true) := by
  have hard : (s.fetchErrs st).any EccErr.hard = true := by simpa using h
  unfold State.standing
  dsimp only
  rw [if_pos hard]
  cases st with
  | main => exact ⟨_, rfl, rfl, fun _ => StickyKept.marked (StickyKept.refl _) (by decide) (by decide)⟩
  | edge => exact ⟨_, rfl, rfl, fun main => by cases main⟩

/-- With a sound fetch a bundle is held by the first of four: illegal, an absent hoop, a lent one, the port's. -/
theorem standing_of_sound {s : State} {i : Issue} (h : s.fetchErrs i.stream = []) :
    s.standing i.stream i.bundle s.twCap =
      if s.legalHere i.stream i.bundle = false then .held (s.halted i.stream .illegal 1 0 .illegal)
      else if ¬ ∀ k ∈ s.namedHoops i, s.hoopPresent k = true then .held (s.halted i.stream .hoopGone 1 1 .hoopGone)
      else if i.stream = .main ∧ ∃ k ∈ s.namedHoops i, s.lentHoop k = true then
        .held (s.halted i.stream .edgeLent 1 2 .illegal)
      else if i.stream = .main ∧ s.net.rxEn = true ∧ s.net.rxHoop.toNat ∈ s.namedHoops i then
        .held (s.halted i.stream .netLent 1 3 .illegal)
      else .pass s := by
  have bumped : s.bump .corrErr 0 = s := rfl
  unfold State.standing
  rw [h]
  simp only [dropEcc_nil, List.length_nil, bumped, List.any_nil, Bool.false_eq_true, if_false, Env.ctx]
  rw [show ((s.names i.stream (slabUses s (s.ctxOf i.stream).ew.bytes i.bundle)).filterMap fun n => n.2.2.map (·.1)) =
    s.namedHoops i from rfl]
  simp only [Bool.not_eq_true', List.any_eq_true, Bool.and_eq_true, beq_iff_eq, List.contains_iff_mem, not_forall,
    Bool.not_eq_true, exists_prop, and_assoc]

theorem gate_of_standing_held {s t : State} {i : Issue} {o : MOut}
    (h : s.standing i.stream i.bundle s.twCap = .held t) : s.gate i.stream i.bundle s.twCap o = .held t := by
  unfold State.gate
  rw [h]

theorem gate_of_mustWait {s : State} {i : Issue} {o : MOut} (h : s.standing i.stream i.bundle s.twCap = .pass s)
    (wait : s.mustWait (s.env i) o = true) : s.gate i.stream i.bundle s.twCap o = .held s := by
  unfold State.gate
  rw [h]
  exact if_pos wait

/-- Only an edging run's MOVA and NRECV may find their partner gone. -/
theorem goneGate_of_not_partner {e : Env} (h : e.st = .main ∨ (e.b.m.major ≠ 5 ∧ e.b.m.major ≠ 8)) (t : State) :
    goneGate e t = .pass t := by
  unfold goneGate
  split
  next st major =>
    obtain main | ⟨not5, -⟩ := h
    · cases st.symm.trans main
    · exact absurd (BitVec.eq_of_toNat_eq major) not5
  next st major =>
    obtain main | ⟨-, not8⟩ := h
    · cases st.symm.trans main
    · exact absurd (BitVec.eq_of_toNat_eq major) not8
  next => rfl

theorem gate_eq_readGate {s : State} {i : Issue} {o : MOut} (h : s.standing i.stream i.bundle s.twCap = .pass s)
    (wait : s.mustWait (s.env i) o = false)
    (partner : i.stream = .main ∨ (i.bundle.m.major ≠ 5 ∧ i.bundle.m.major ≠ 8)) :
    s.gate i.stream i.bundle s.twCap o = readGate (s.env i) := by
  have ready : s.mustWait ⟨s, i.stream, i.bundle, s.twCap⟩ o = false := wait
  unfold State.gate
  rw [h]
  dsimp only
  rw [ready, goneGate_of_not_partner (e := ⟨s, i.stream, i.bundle, s.twCap⟩) partner]
  rfl

/-! ### What the reads find -/

/-- The state once the errors that the bundle's reads find in hoops are recorded. -/
def Env.readFound (e : Env) : State :=
  (e.readErrs.foldl (fun (t : State) p => t.hoopErr p.1) e.s).markIf (e.readErrs.any fun p => p.1.hard) 14 4

theorem Env.readFound_site {e : Env} (h : e.s.issue.retry = none) : e.readFound.site = e.s.site := by
  rw [Env.readFound, markIf_site, hoopErrs_site h]

theorem readGate_of_needed {e : Env} (h : ∃ p ∈ e.readErrs, p.1.hard = true ∧ p.2 = true) :
    readGate e = .held (e.readFound.halted e.st .hoopUe 14 4 .stopped) := by
  unfold readGate
  exact if_pos (by simpa using h)

theorem readGate_of_leaf_hard {e : Env} (h : ¬ ∃ p ∈ e.readErrs, p.1.hard = true ∧ p.2 = true)
    (hard : ∃ x ∈ e.leafErrs, x.hard = true) : ∃ (u : State) (leaf : Nat) (b : Bool), u.site = e.readFound.site ∧
      readGate e = .held (((u.halted e.st .leafUe 4 4 .stopped).mark 4 4).leafFails leaf b) := by
  obtain ⟨x, hx⟩ : ∃ x, e.leafErrs.find? EccErr.hard = some x :=
    Option.isSome_iff_exists.mp (List.find?_isSome.mpr hard)
  refine ⟨e.readFound.dropEcc (e.leafErrs.filter fun x => !x.hard), (tableOf e.b.v1).getD 0, (leafErrOf x).2.1, rfl, ?_⟩
  unfold readGate
  dsimp only
  rw [if_neg (by simpa using h), hx]
  rfl

end Sys2Proof.Machine
open Sys2Proof Sys2Proof.Machine

/-- Settles O54: the command is the bundle's issue; each of the four checks, the wait and the two kinds of read error
holds it with the state that the lemmas above give. -/
theorem refusedBundles : Obligations.RefusedBundles := by
  unfold Obligations.RefusedBundles
  intro c row i s hrow wf halts legal there lent rx
  have run := exec_of_row hrow wf s
  have stops {t : State} {why : StopReason} {page bit : Nat} {r : RunStatus} (offered : s.canOffer i.stream = true)
      (atPc : s.fetched i.stream = i.bundle) (held : s.gate i.stream i.bundle s.twCap .normal = .held t)
      (stopped : s.StoppedAs (s.settle t) i.stream why page bit r) : halts why page bit r :=
    ⟨_, by rw [run, issueBundle_of_held offered atPc held], stopped⟩
  refine ⟨fun h => by rw [run, issueBundle_of_not_offered h], fun offered atPc => ⟨fun hard => ?_, fun sound => ?_⟩⟩
  · obtain ⟨t, held, site, marked⟩ := standing_of_fetch_hard hard i.bundle s.twCap
    exact stops offered atPc (gate_of_standing_held held) (stoppedAs_settle (u := s) offered rfl site marked)
  have standing := standing_of_sound (i := i) sound
  have refuse {why : StopReason} {page bit : Nat} {r : RunStatus}
      (held : s.standing i.stream i.bundle s.twCap = .held (s.halted i.stream why page bit r)) (hp : page < 16)
      (hb : bit < 32) : halts why page bit r :=
    stops offered atPc (gate_of_standing_held held) (stoppedAs_halted offered rfl hp hb)
  refine ⟨fun illegal => ?_, fun isLegal absent => ?_, fun isLegal present main isLent => ?_,
    fun isLegal present main kept isRx => ?_, fun isLegal present kept => ?_⟩
  · exact refuse (standing.trans (if_pos illegal)) (by decide) (by decide)
  all_goals rw [if_neg (by rw [show s.legalHere i.stream i.bundle = true from isLegal]; decide)] at standing
  · exact refuse (standing.trans (if_pos absent)) (by decide) (by decide)
  all_goals rw [if_neg (not_not_intro present)] at standing
  · exact refuse (standing.trans (if_pos ⟨main, isLent⟩)) (by decide) (by decide)
  · rw [if_neg (fun h => kept h.2)] at standing
    exact refuse (standing.trans (if_pos ⟨main, isRx⟩)) (by decide) (by decide)
  rw [if_neg (fun h => (kept h.1).1 h.2), if_neg (fun h => (kept h.1).2 h.2)] at standing
  refine ⟨fun wait => ?_, fun ready partner => ?_⟩
  · rw [run, issueBundle_of_held offered atPc (gate_of_mustWait standing wait)]
  have gate := gate_eq_readGate standing ready partner
  have found : (s.env i).readFound.site = s.site := Env.readFound_site (retry_of_canOffer offered)
  refine ⟨fun needed => ?_, fun sparse hard => ?_⟩
  · exact stops offered atPc (gate.trans (readGate_of_needed needed))
      (stoppedAs_halted offered found (by decide) (by decide))
  · obtain ⟨u, leaf, b, same, held⟩ := readGate_of_leaf_hard sparse hard
    refine stops offered atPc (gate.trans held) (stoppedAs_settle offered (same.trans found) ?_ fun _ => ?_)
    · rw [leafFails_site, mark_site]
      rfl
    · exact (StickyKept.leafFails _ leaf b).marked (by decide) (by decide)
end

section
/-!
SUPPORT. What the vector slots of a bundle write: the destinations of V0 and V1, and any predicate that each step of
their effects keeps (R49, R54, R61, R62, R83).
-/

namespace Sys2Proof.Machine

/-! ### Lengths of the lists that the lanes write -/

theorem pieces_length_le {α : Type} (n fuel : Nat) (l : List α) : (pieces n fuel l).length ≤ fuel := by
  induction fuel generalizing l with
  | zero => simp [pieces]
  | succ fuel ih =>
    cases l with
    | nil => simp [pieces]
    | cons x t => simpa [pieces] using ih _

theorem cut_length_le {α : Type} (n : Nat) (l : List α) : (cut n l).length ≤ l.length := pieces_length_le n _ l

@[simp] theorem active_length (e : Env) (km : BitVec 3) : (e.active km).length = e.vl := by
  simp [Env.active, maskBits]

theorem policy_length_le (e : Env) (act : List Bool) (vals : List Nat) : (e.policy act vals).length ≤ act.length := by
  simp [Env.policy]

theorem policy_active_length_le (e : Env) (km : BitVec 3) (vals : List Nat) :
    (e.policy (e.active km) vals).length ≤ e.vl := by
  simpa using policy_length_le e (e.active km) vals

theorem selected_length_le (e : Env) : e.selected.length ≤ e.vl := by
  simp [Env.selected]

theorem packed_length {e : Env} {vals : List Nat} (h : vals.length ≤ e.vl) : (e.packed vals).length = e.vl := by
  simp only [Env.packed, List.length_append, List.length_map, List.length_replicate]
  omega

theorem spread_length (m : Option Nat) (l : List Bool) : ∀ vs : List (Res Nat), (spread m l vs).length = l.length := by
  induction l with
  | nil => exact fun _ => rfl
  | cons b t ih =>
    intro vs
    cases b with
    | false => simp [spread, ih]
    | true => cases vs <;> simp [spread, ih]

@[simp] theorem clashed_length (n : Nat) (elems scales : List (Option Nat)) :
    (clashed n elems scales).length = scales.length := by
  simp [clashed]

theorem splitLanes_length {α : Type} (l : List (Option (Res α))) : (splitLanes l).1.length = l.length := by
  simp [splitLanes]

theorem lanesOf_length_le (cf : CF) (f : Fmt) (act : List Bool) (cs : List Nat) :
    (lanesOf cf f act cs).length ≤ act.length := by
  simp [lanesOf]

theorem length_le_of_mem_pieces {α : Type} {n fuel : Nat} {l p : List α} (h : p ∈ pieces n fuel l) : p.length ≤ n := by
  induction fuel generalizing l with
  | zero => simp [pieces] at h
  | succ fuel ih =>
    cases l with
    | nil => simp [pieces] at h
    | cons x t =>
      rcases List.mem_cons.mp h with rfl | h
      · simp
      · exact ih h

theorem mergeBytes_length_le (w : Nat) (old : List Byte) (vals : List (Option Nat)) :
    (mergeBytes w old vals).length ≤ vals.length * w := by
  have piece : ∀ n ∈ ((cut w old).zip vals).map (fun p => (match p.2 with
      | some v => leBytes w v
      | none => p.1).length), n ≤ w := by
    intro n hn
    obtain ⟨p, hp, rfl⟩ := List.mem_map.mp hn
    split
    · exact (leBytes_length ..).le
    · exact length_le_of_mem_pieces (List.of_mem_zip hp).1
  unfold mergeBytes
  rw [List.length_flatMap]
  refine (List.sum_le_card_nsmul _ w piece).trans ?_
  rw [smul_eq_mul]
  refine Nat.mul_le_mul_right w ?_
  simp

/-! ### Writes of the hoops, step by step -/

/-- What holds of a state and is kept by each slab that the run touches holds after the run is written. -/
theorem writeTo_closed {Q : State → Prop} {s t : State} {st : Stream} {f : BitVec 8} {w : Nat} {vals : List (Option Nat)}
    (step : ∀ (t : State) (j h k : Nat) (bs : List Byte) (on : Nat → Bool), f.getLsbD 7 = false →
      s.vlmaxAt w * j < vals.length → s.resolve st (Opnd.of f).h ((Opnd.of f).k + j) = some (h, k) →
      bs.length ≤ s.vlmaxAt w * w → Q t → Q (t.mergeSlab h k bs on))
    (q : Q t) : Q (writeTo s t st f w vals) := by
  unfold writeTo
  extract_lets o vm
  split
  · exact q
  next cond =>
    simp only [Bool.or_eq_true, decide_eq_true_eq, not_or, Bool.not_eq_true] at cond
    obtain ⟨writes, room⟩ := cond
    refine List.foldlRecOn _ _ q fun t q p hp => ?_
    obtain ⟨part, j⟩ := p
    have at_j : (cut vm vals)[j]? = some part := by simpa using List.mem_zipIdx_iff_getElem?.mp hp
    rw [cut_getElem? (by omega)] at at_j
    split at at_j
    next below =>
      cases at_j
      dsimp only
      split
      · next h k hr =>
        refine step t j h k _ _ writes below hr ?_ q
        refine (mergeBytes_length_le ..).trans (Nat.mul_le_mul_right w ?_)
        exact List.length_take_le ..
      · exact q
    next => cases at_j

theorem putSlab_closed {Q : State → Prop} {e : Env} {t : State} {f : BitVec 8} {bs : List Byte}
    (step : ∀ h k, e.s.resolve e.st (Opnd.of f).h (Opnd.of f).k = some (h, k) → Q (t.writeSlab h k bs)) (q : Q t) :
    Q (e.putSlab t f bs) := by
  unfold Env.putSlab
  dsimp only
  split
  · next h k hr => exact step h k hr
  · exact q

/-! ### Destination runs -/

theorem Fmt.bytes_cases (f : Fmt) : f.bytes = 1 ∨ f.bytes = 2 ∨ f.bytes = 4 := by
  cases f <;> simp [Fmt.bytes]

theorem v0Uses_dst {ew : Nat} {v : V0Slot} (major : v.major = 1) (writes : v.d.getLsbD 7 = false) :
    elemUse 0 ew v.d (fmtOf v.dfmt).bytes false true v.km ∈ v0Uses ew v := by
  have issued : v.isNop = false := by
    by_contra nop
    simp only [Bool.not_eq_false] at nop
    exact absurd (major.symm.trans (V0Slot.major_of_isNop nop)) (by decide)
  have bit : v.d[7] = false := by simpa using writes
  simp [v0Uses, issued, bit]

theorem V1Slot.isNop_of_major {v : V1Slot} (h : v.major.toNat ≠ 0) : v.isNop = false := by
  by_contra nop
  simp only [Bool.not_eq_false] at nop
  exact h (by rw [V1Slot.major_of_isNop nop]; rfl)

/-- The majors of V1 whose destination is a run of elements of the destination format. -/
def elementwise : List Nat := [1, 2, 3, 5, 6, 7, 8, 9, 10, 11]

theorem v1Uses_dst {ew : Nat} {v : V1Slot} (major : v.major.toNat ∈ elementwise) (writes : v.dst.getLsbD 7 = false) :
    elemUse 1 ew v.dst (fmtOf v.dfmt).bytes false true v.km ∈ v1Uses ew v := by
  simp only [elementwise, List.mem_cons, List.not_mem_nil, or_false] at major
  have bit : v.dst[7] = false := by simpa using writes
  unfold v1Uses
  rcases major with h | h | h | h | h | h | h | h | h | h <;> simp [h, bit]

theorem v1Uses_red {ew : Nat} {v : V1Slot} (major : v.major.toNat = 4) (writes : v.dst.getLsbD 7 = false) :
    ∃ u ∈ v1Uses ew v, u.wr = true ∧ u.o = Opnd.of v.dst ∧ u.run = runLen ew (fmtOf v.dfmt).bytes := by
  have nw : ¬ v.dst.getLsbD 7 = true := by rw [writes]; decide
  unfold v1Uses
  simp only [major]
  rw [if_neg nw, if_neg nw]
  by_cases each : v.fn.getLsbD 4 = true
  · rw [if_pos each]
    refine ⟨_, List.mem_append_right _ (List.mem_singleton_self _), ?_⟩
    exact ⟨rfl, rfl, rfl⟩
  · rw [if_neg each]
    refine ⟨_, List.mem_append_right _ (List.mem_singleton_self _), ?_⟩
    exact ⟨rfl, rfl, rfl⟩

/-- A legal CVT to an MX format names its scales by SRC2. -/
theorem V1Slot.fn_of_cvt_mx {v : V1Slot} (legal : v.legal = true) (major : v.major.toNat = 3)
    (mx : (fmtOf v.dfmt).isMx = true) : v.fn = 2 := by
  have issued : v.isNop = false := V1Slot.isNop_of_major (by omega)
  unfold V1Slot.legal at legal
  rw [issued, Bool.false_or] at legal
  split at legal
  next sf df hs hd =>
    have format : fmtOf v.dfmt = df := by simp [fmtOf, hd]
    rw [format] at mx
    simp only [major, mx, Bool.not_true, Bool.and_false, Bool.false_and] at legal
    split at legal
    · simp at legal
    · simp at legal
    · next two => exact BitVec.eq_of_toNat_eq two
    · simp at legal
  next => cases legal

/-- The majors that move elements keep their format. -/
theorem V1Slot.format_of_moves {v : V1Slot} (legal : v.legal = true) (major : v.major.toNat ∈ [7, 8, 9, 10]) :
    fmtOf v.dfmt = fmtOf v.sfmt := by
  simp only [List.mem_cons, List.not_mem_nil, or_false] at major
  have issued : v.isNop = false := V1Slot.isNop_of_major (by omega)
  unfold V1Slot.legal at legal
  rw [issued, Bool.false_or] at legal
  split at legal
  next sf df hs hd =>
    have same : df = sf := by
      rcases major with h | h | h | h <;> simp only [h, Bool.and_eq_true, beq_iff_eq] at legal <;> tauto
    simp [fmtOf, hs, hd, same]
  next => cases legal

/-! ### What a GCMP writes -/

theorem bits_lt_two_pow (x : Word) (hi lo : Nat) : bits x hi lo < 2 ^ (hi + 1 - lo) :=
  Nat.mod_lt _ (Nat.two_pow_pos _)

/-- A fold of steps that lengthen a list by one each. -/
theorem foldl_length_succ {σ α : Type} {f : σ → α → σ} {len : σ → Nat} (h : ∀ s a, len (f s a) = len s + 1)
    (l : List α) (s : σ) : len (l.foldl f s) = len s + l.length := by
  induction l generalizing s with
  | nil => rfl
  | cons a l ih => rw [List.foldl_cons, ih, h, List.length_cons]; omega

theorem slabWords_length_le {e : Env} (wf : SMap.wf 0 e.s.hoops = true) (f : BitVec 8) :
    (e.slabWords f).length ≤ 1024 := by
  unfold Env.slabWords
  dsimp only
  split
  · next h k _ =>
    have bytes : (e.s.slabBytes h k 4096).length = 4096 := by
      rw [State.slabBytes, slice_eq_getBytes _ _ wf]
      simp [getBytes]
    rw [bytesToWords, List.length_map]
    by_contra more
    have cell := cut_getElem? (n := 4) (by decide) (e.s.slabBytes h k 4096) 1024
    rw [bytes, if_neg (by decide), List.getElem?_eq_none_iff] at cell
    exact more cell
  · exact List.length_replicate.le

theorem topkStep_out (e : Env) (blk : Nat) (a : TopK) (p : (Bool × Nat × Nat) × Nat) :
    (topkStep e blk a p).out.length = a.out.length + 1 := by
  unfold topkStep
  extract_lets i g h x tau r kept keep
  split
  · rfl
  · split
    · rfl
    · split
      · rfl
      · split <;> rfl

/-- `a` counts `n` old pairs and its own, no more than 1,022 where it has any. -/
def TopK.fits (n : Nat) (a : TopK) : Prop := a.count = n + a.pairs.length ∧ (a.pairs = [] ∨ a.count ≤ 1022)

theorem topkStep_fits {e : Env} {blk n : Nat} {a : TopK} {p : (Bool × Nat × Nat) × Nat} (h : TopK.fits n a) :
    TopK.fits n (topkStep e blk a p) := by
  unfold topkStep
  extract_lets i g hh x tau r kept keep
  split
  · exact h
  · split
    · exact h
    · split
      · exact h
      next room =>
        split
        · exact h
        · obtain ⟨count, -⟩ := h
          refine ⟨?_, .inr ?_⟩
          · simp only [List.length_cons]
            omega
          · dsimp only
            omega

theorem signStep_words (e : Env) (first : Nat) (a : SignAcc) (p : (Bool × Nat × Nat) × Nat) :
    (signStep e first a p).words.length = a.words.length := by
  unfold signStep
  extract_lets i g h r b k neg k' wi old bit x s res
  split
  · rfl
  · split
    · rfl
    · simp

theorem signStep_out (e : Env) (first : Nat) (a : SignAcc) (p : (Bool × Nat × Nat) × Nat) :
    (signStep e first a p).out.length = a.out.length + 1 := by
  unfold signStep
  extract_lets i g h r b k neg k' wi old bit x s res
  split
  · rfl
  · split <;> rfl

/-! ### What the lanes may do to a state -/

/-- Field `f` names a destination run of V0 or V1, as wide as elements of `w` bytes need it. -/
def Env.LaneDest (e : Env) (f : BitVec 8) (w : Nat) : Prop :=
  (w = 1 ∨ w = 2 ∨ w = 4) ∧ (f.getLsbD 7 = false →
    ∃ u ∈ v0Uses e.ctx.ew.bytes e.b.v0 ++ v1Uses e.ctx.ew.bytes e.b.v1,
      u.wr = true ∧ u.o = Opnd.of f ∧ runLen e.ctx.ew.bytes w ≤ u.run)

theorem Env.LaneDest.of_v0 {e : Env} (major : e.b.v0.major = 1) : e.LaneDest e.b.v0.d (fmtOf e.b.v0.dfmt).bytes :=
  ⟨Fmt.bytes_cases _, fun writes => ⟨_, List.mem_append_left _ (v0Uses_dst major writes), rfl, rfl, le_rfl⟩⟩

theorem Env.LaneDest.of_use {e : Env} {f : BitVec 8} {w : Nat} (hw : w = 1 ∨ w = 2 ∨ w = 4) {u : SlabUse}
    (mem : f.getLsbD 7 = false → u ∈ v1Uses e.ctx.ew.bytes e.b.v1) (wr : u.wr = true) (field : u.o = Opnd.of f)
    (run : runLen e.ctx.ew.bytes w ≤ u.run) : e.LaneDest f w :=
  ⟨hw, fun writes => ⟨u, List.mem_append_right _ (mem writes), wr, field, run⟩⟩

theorem Env.LaneDest.of_v1 {e : Env} (major : e.b.v1.major.toNat ∈ elementwise) : e.LaneDest e.b.v1.dst (fmtOf e.b.v1.dfmt).bytes :=
  .of_use (Fmt.bytes_cases _) (v1Uses_dst major) rfl rfl le_rfl

/-- Mask `k` is a destination of V0 or V1. -/
def Env.LaneMask (e : Env) (k : Nat) : Prop :=
  (e.b.v0.major = 1 ∧ e.b.v0.hasCmp = true ∧ k = e.b.v0.kd.toNat) ∨
    ((e.b.v1.major.toNat = 11 ∨ e.b.v1.major.toNat = 12) ∧ k = e.b.v1.aux.toNat)

/-- `Q` does not see sticky bits, flags, counters, the darn log and the numbers drawn. -/
structure AsideClosed (Q : State → Prop) : Prop where
  aside : ∀ {t : State} (pages : Vector PageHdr 16) (trouble : TroubleUnit) (n : Nat), Q t →
    Q { t with pages := pages, trouble := trouble, freeCount := n }

section
variable {Q : State → Prop} (c : AsideClosed Q) {t : State}
include c

theorem AsideClosed.mark (p b : Nat) (q : Q t) : Q (t.mark p b) := c.aside _ t.trouble t.freeCount q

theorem AsideClosed.markIf (cond : Bool) (p b : Nat) (q : Q t) : Q (t.markIf cond p b) := by
  cases cond
  · exact q
  · exact c.mark p b q

theorem AsideClosed.bump (x : Ctr) (n : Nat) (q : Q t) : Q (t.bump x n) := by
  unfold State.bump
  split
  · exact q
  · exact c.markIf _ _ _ (c.aside t.pages _ t.freeCount q)

theorem AsideClosed.raise (k : Nat) (r : Raises) (q : Q t) : Q (t.raise k r) := by
  unfold State.raise
  extract_lets _ u v
  have flagged : Q v := c.bump _ _ (c.bump _ _ (c.aside t.pages _ t.freeCount q))
  split
  · unfold State.guardRaise
    split
    · exact c.mark _ _ flagged
    · split
      · exact flagged
      · exact c.mark _ _ (c.aside v.pages _ v.freeCount flagged)
  · exact flagged

theorem AsideClosed.goneOnce (q : Q t) : Q t.goneOnce := c.bump _ _ (c.mark _ _ q)

end

/-- `Q` is kept by each step that the vector slots of a bundle are made of. -/
structure LaneClosed (e : Env) (Q : State → Prop) : Prop extends AsideClosed Q where
  run : ∀ {t : State} {f : BitVec 8} {w : Nat} {vals : List (Option Nat)}, e.LaneDest f w → vals.length ≤ e.vl → Q t →
    Q (writeTo e.s t e.st f w vals)
  slab : ∀ {t : State} {bs : List Byte}, e.b.v1.major.toNat = 12 → (SMap.wf 0 e.s.hoops = true → bs.length ≤ 4096) →
    Q t → Q (e.putSlab t e.b.v1.dst bs)
  mask : ∀ {t : State} {k : Nat} (m : BitVec 4096), e.LaneMask k → Q t → Q (t.setMask k m)
  carry : e.b.v1.major.toNat = 5 ∨ e.b.v1.major.toNat = 6 → ∀ {t : State} (c : Vector Carry 4), Q t →
    Q { t with carries := c }
  scale : e.b.v1.major.toNat = 3 → ∀ {t : State} (x : ScaleUnit), x.spareFree = t.scale.spareFree → Q t →
    Q { t with scale := x }
  slots : e.b.v1.major.toNat = 3 → ∀ {t : State}, Q t → Q t.slotErrs
  mirror : e.b.v1.major.toNat = 14 → ∀ {t : State} (m : MirrorUnit) (n : NetUnit), Q t →
    Q { t with mirror := m, net := n }

section
variable {e : Env} {Q : State → Prop} (c : LaneClosed e Q) {t : State}
include c

/-! ### Each effect -/

theorem LaneClosed.chain (q : Q t) : Q (chainEffect e t) := by
  unfold chainEffect
  extract_lets v act as bs cs kd src res t1 t2
  split
  · exact q
  next runs =>
    simp only [Bool.or_eq_true, decide_eq_true_eq, not_or, not_not] at runs
    obtain ⟨major, -⟩ := runs
    have written : Q t1 := c.run (.of_v0 major) (policy_active_length_le ..) q
    have masked : Q t2 := by
      unfold t2
      split
      next cmp => exact c.mask _ (.inl ⟨major, cmp, rfl⟩) written
      next => exact written
    exact c.raise _ _ masked

theorem LaneClosed.finishFunc {km : BitVec 3} {out gates : List (Res Nat)} (major : e.b.v1.major.toNat ∈ elementwise) (q : Q t) :
    Q (finishFunc e t (e.active km) out gates) := by
  unfold Sys2Proof.Machine.finishFunc
  dsimp only
  split
  · exact c.raise _ _ q
  · exact c.raise _ _ (c.run (.of_v1 major) (policy_active_length_le ..) q)

theorem LaneClosed.emptySlot {km : BitVec 3} {gates : List (Res Nat)} (major : e.b.v1.major.toNat ∈ elementwise) (q : Q t) :
    Q (emptySlot e t (e.active km) gates) :=
  c.raise _ _ (c.mark _ _ (c.run (.of_v1 major) (policy_active_length_le ..) q))

theorem LaneClosed.func (major : e.b.v1.major.toNat = 1) (q : Q t) : Q (funcEffect e t) := by
  have dst : e.b.v1.major.toNat ∈ elementwise := by simp [elementwise, major]
  unfold funcEffect
  dsimp only
  split
  · exact q
  · split
    · exact c.emptySlot dst q
    · exact c.finishFunc dst q

theorem LaneClosed.gact (major : e.b.v1.major.toNat = 2) (q : Q t) : Q (gactEffect e t) := by
  have dst : e.b.v1.major.toNat ∈ elementwise := by simp [elementwise, major]
  unfold gactEffect
  dsimp only
  split
  · exact q
  · split
    · exact c.emptySlot dst q
    · exact c.finishFunc dst q

theorem LaneClosed.setSlot (major : e.b.v1.major.toNat = 3) (i : Nat) (x : ScaleSlot) (q : Q t) : Q (t.setSlot i x) :=
  c.scale major _ rfl q

theorem LaneClosed.scaleExp (major : e.b.v1.major.toNat = 3) (q : Q t) : Q (e.scaleExp t).2 := by
  unfold Env.scaleExp
  extract_lets v sf df tid quant emax
  split
  · exact c.mark _ _ (c.scale major _ rfl q)
  · extract_lets x k
    split
    · exact q
    · split
      · exact c.setSlot major _ _ q
      · exact c.markIf _ _ _ q

theorem LaneClosed.cvtPlain (major : e.b.v1.major.toNat = 3) (q : Q t) : Q (cvtPlain e t) := by
  have dst : e.b.v1.major.toNat ∈ elementwise := by simp [elementwise, major]
  have scaled : Q (if (e.b.v1.fn == 1) = true then e.scaleExp t.slotErrs else (0, t)).2 := by
    split
    · exact c.scaleExp major (c.slots major q)
    · exact q
  unfold Sys2Proof.Machine.cvtPlain
  dsimp only
  refine c.raise _ _ ?_
  have written {vals : List Nat} : Q (writeTo e.s (if (e.b.v1.fn == 1) = true then e.scaleExp t.slotErrs else (0, t)).2
      e.st e.b.v1.dst (fmtOf e.b.v1.dfmt).bytes (e.policy (e.active e.b.v1.km) vals)) :=
    c.run (.of_v1 dst) (policy_active_length_le ..) scaled
  split
  · split
    · exact written
    · exact c.setSlot major _ _ written
  · exact written

theorem LaneClosed.cvtToMx (major : e.b.v1.major.toNat = 3) {mt : MxElt} (format : fmtOf e.b.v1.dfmt = .mx mt)
    (legal : e.b.v1.legal = true) (q : Q t) : Q (cvtToMx e t mt) := by
  have fn : e.b.v1.fn = 2 := V1Slot.fn_of_cvt_mx legal major (by rw [format]; rfl)
  have dst : e.LaneDest e.b.v1.dst 1 := by
    have d : e.LaneDest e.b.v1.dst (fmtOf e.b.v1.dfmt).bytes := .of_v1 (by simp [elementwise, major])
    rwa [format] at d
  have scalesDst : e.LaneDest e.b.v1.src2 1 :=
    .of_use (u := scaleUse 1 e.b.v1.src2 (fmtOf e.b.v1.sfmt).isMx (fmtOf e.b.v1.dfmt).isMx e.b.v1.km) (.inl rfl)
      (fun _ => by simp [v1Uses, major, fn]) (by simp [scaleUse, wholeUse, format, Fmt.isMx]) rfl
      (by cases e.ctx.ew <;> rfl)
  unfold Sys2Proof.Machine.cvtToMx
  extract_lets v act src nw blocks live scales out elems t1 t2 nan
  have short : scales.length ≤ e.vl := by
    have cells : (act.zip src).length ≤ e.vl := by simp [act]
    simpa [scales, live] using (cut_length_le 32 (act.zip src)).trans cells
  have written : Q t1 := c.run dst (policy_active_length_le ..) q
  have scaled : Q t2 := by
    unfold t2
    split
    · exact c.run scalesDst (by simpa using short) (c.aside t1.pages t1.trouble _ written)
    · exact c.run scalesDst short written
  exact c.raise _ _ scaled

theorem LaneClosed.cvt (major : e.b.v1.major.toNat = 3) (legal : e.b.v1.legal = true) (q : Q t) : Q (cvtEffect e t) := by
  unfold cvtEffect
  split
  · exact q
  · split
    · next format => exact c.cvtToMx major format legal q
    · exact c.cvtPlain major q

theorem LaneClosed.red (major : e.b.v1.major.toNat = 4) (q : Q t) : Q (redEffect e t) := by
  have dst : e.LaneDest e.b.v1.dst (fmtOf e.b.v1.dfmt).bytes :=
    ⟨Fmt.bytes_cases _, fun writes => by
      obtain ⟨u, mem, wr, field, run⟩ := v1Uses_red (ew := e.ctx.ew.bytes) major writes
      exact ⟨u, List.mem_append_right _ mem, wr, field, run.ge⟩⟩
  unfold redEffect
  extract_lets v op sf df cf act loaded _ carry final nw
  have lanes : loaded.length ≤ e.vl := by
    unfold loaded
    split
    · simp [act]
    · rw [List.length_map]
      exact (lanesOf_length_le ..).trans (active_length ..).le
  split
  · exact q
  · split
    next items r0 split_eq =>
      have short : items.length ≤ e.vl := by
        have same := splitLanes_length loaded
        rw [split_eq] at same
        exact same.le.trans lanes
      extract_lets segs res rs per each out
      split
      · exact c.raise _ _ q
      · split
        · exact c.raise _ _ (c.run dst (policy_active_length_le ..) q)
        · refine c.raise _ _ (c.run dst ?_ q)
          simpa [out, res, segs] using (cut_length_le _ _).trans short

theorem LaneClosed.scanFinish (major : e.b.v1.major.toNat = 5 ∨ e.b.v1.major.toNat = 6) {cf : CF} {op : Nat}
    {km : BitVec 3} {r0 : Raises} {y : Res (List (Option Lane) × Option Lane)} (q : Q t) :
    Q (scanFinish e t cf op (e.active km) r0 y) := by
  have dst : e.b.v1.major.toNat ∈ elementwise := by
    rcases major with h | h <;> simp [elementwise, h]
  exact c.raise _ _ (c.carry major _ (c.run (.of_v1 dst) (policy_active_length_le ..) q))

theorem LaneClosed.scan (major : e.b.v1.major.toNat = 5) (q : Q t) : Q (scanEffect e t) := by
  unfold scanEffect
  dsimp only
  split
  · exact q
  · exact c.scanFinish (.inl major) q

theorem LaneClosed.lscan (major : e.b.v1.major.toNat = 6) (q : Q t) : Q (lscanEffect e t) := by
  unfold lscanEffect
  dsimp only
  split
  · exact q
  · exact c.scanFinish (.inr major) q

theorem LaneClosed.moveBy (major : e.b.v1.major.toNat ∈ [7, 8]) (legal : e.b.v1.legal = true) {l : List Nat}
    (q : Q t) : Q (moveBy e t l) := by
  have dst : e.LaneDest e.b.v1.dst (fmtOf e.b.v1.sfmt).bytes := by
    rw [← V1Slot.format_of_moves legal (by simp at major ⊢; omega)]
    exact .of_v1 (by simp [elementwise] at major ⊢; omega)
  exact c.raise _ _ (c.bump _ _ (c.markIf _ _ _ (c.run dst (policy_active_length_le ..) q)))

theorem LaneClosed.perm (major : e.b.v1.major.toNat = 7) (legal : e.b.v1.legal = true) (q : Q t) :
    Q (permEffect e t) := by
  unfold permEffect
  split
  · exact q
  · exact c.moveBy (by simp [major]) legal q

theorem LaneClosed.xpose (major : e.b.v1.major.toNat = 8) (legal : e.b.v1.legal = true) (q : Q t) :
    Q (xposeEffect e t) := by
  unfold xposeEffect
  dsimp only
  split
  · exact q
  · exact c.moveBy (by simp [major]) legal q

theorem LaneClosed.cprs (major : e.b.v1.major.toNat = 9) (legal : e.b.v1.legal = true) (q : Q t) :
    Q (cprsEffect e t) := by
  have dst : e.LaneDest e.b.v1.dst (fmtOf e.b.v1.sfmt).bytes := by
    rw [← V1Slot.format_of_moves legal (by simp [major])]
    exact .of_v1 (by simp [elementwise, major])
  unfold cprsEffect
  extract_lets v f out
  split
  · exact q
  · have short : (out.map (·.val)).length ≤ e.vl := by
      rw [List.length_map]
      exact (List.length_filterMap_le _ _).trans (by simpa using .inl (selected_length_le e))
    exact c.raise _ _ (c.run dst (packed_length short).le q)

theorem LaneClosed.expd (major : e.b.v1.major.toNat = 10) (legal : e.b.v1.legal = true) (q : Q t) :
    Q (expdEffect e t) := by
  have dst : e.LaneDest e.b.v1.dst (fmtOf e.b.v1.sfmt).bytes := by
    rw [← V1Slot.format_of_moves legal (by simp [major])]
    exact .of_v1 (by simp [elementwise, major])
  unfold expdEffect
  dsimp only
  split
  · exact q
  · exact c.raise _ _ (c.run dst ((spread_length ..).trans_le (selected_length_le e)) q)

theorem LaneClosed.tsel (major : e.b.v1.major.toNat = 11) (q : Q t) : Q (tselEffect e t) := by
  unfold tselEffect
  extract_lets v f df act src gated hits vals t1
  split
  · exact q
  · have short : vals.length ≤ e.vl := by
      refine (List.length_filterMap_le _ _).trans ?_
      simp [hits, act]
    have written : Q t1 := c.run (.of_v1 (by simp [elementwise, major])) (packed_length short).le q
    exact c.raise _ _ (c.mask _ (.inr ⟨.inl major, rfl⟩) written)

theorem LaneClosed.gdec (major : e.b.v1.major.toNat = 13) (q : Q t) : Q (gdecEffect e t) := by
  have dst : e.LaneDest e.b.v1.dst 4 :=
    .of_use (u := elemUse 1 e.ctx.ew.bytes e.b.v1.dst 4 true true e.b.v1.km) (.inr (.inr rfl))
      (fun _ => by simp [v1Uses, major]) rfl rfl le_rfl
  unfold gdecEffect
  extract_lets v w act out
  split
  · exact q
  · split
    · exact c.raise _ _ (c.mark _ _ (c.run dst (policy_active_length_le ..) q))
    · refine c.raise _ _ (c.run dst ?_ q)
      simp [out, act]

theorem LaneClosed.putResiduals (major : e.b.v1.major.toNat = 12) {vals : List (Option Nat)}
    (short : vals.length ≤ e.vl) (q : Q t) : Q (e.putResiduals t vals) := by
  have dst : e.LaneDest e.b.v1.src1 2 :=
    .of_use (u := elemUse 1 e.ctx.ew.bytes e.b.v1.src1 2 true true e.b.v1.km) (.inr (.inl rfl))
      (fun _ => by simp [v1Uses, major]) rfl rfl le_rfl
  unfold Env.putResiduals
  dsimp only
  split
  · exact c.run dst (by simpa using short) (c.aside t.pages t.trouble _ q)
  · exact c.run dst short q

theorem LaneClosed.gcmpTopk (major : e.b.v1.major.toNat = 12) (q : Q t) : Q (gcmpTopk e t) := by
  unfold Sys2Proof.Machine.gcmpTopk
  extract_lets v old fresh w n act src a w0 body words t1 t2 t3
  have fits : TopK.fits n a := List.foldlRecOn _ _ ⟨rfl, .inl rfl⟩ fun _ h _ _ => topkStep_fits h
  have residuals : a.out.reverse.length ≤ e.vl := by
    rw [List.length_reverse, foldl_length_succ (len := fun x : TopK => x.out.length) (topkStep_out e _)]
    simp [src, act]
  have whole (wf : SMap.wf 0 e.s.hoops = true) : (wordsToBytes words).length ≤ 4096 := by
    have old_le : old.length ≤ 1024 := slabWords_length_le wf _
    have w_le : w.length ≤ 1024 := by
      unfold w
      split
      · rw [List.length_append, List.length_replicate]
        exact le_rfl
      · exact old_le
    have n_lt : n < 1024 := bits_lt_two_pow _ 9 0
    have body_le : body.length ≤ 1024 := by
      obtain ⟨count, room⟩ := fits
      have size : body.length ≤ 1 + min (1 + n) (w.length - 1) + a.pairs.length := by simp [body]
      rcases room with none | room
      · rw [none] at size
        simp at size
        omega
      · omega
    have size : words.length = body.length + (w.length - body.length) := by simp [words]
    rw [wordsToBytes_length]
    omega
  have put : Q t1 := c.slab major whole q
  have masked : Q t3 := c.mask _ (.inr ⟨.inr major, rfl⟩) (c.putResiduals major residuals put)
  exact c.raise _ _ (c.bump _ _ (c.markIf _ _ _ (c.markIf _ _ _ masked)))

theorem LaneClosed.gcmpSign (major : e.b.v1.major.toNat = 12) (q : Q t) : Q (gcmpSign e t) := by
  unfold Sys2Proof.Machine.gcmpSign
  extract_lets v old fresh w act src a w0 t1
  have residuals : a.out.reverse.length ≤ e.vl := by
    rw [List.length_reverse, foldl_length_succ (len := fun x : SignAcc => x.out.length) (signStep_out e _)]
    simp [src, act]
  have whole (wf : SMap.wf 0 e.s.hoops = true) : (wordsToBytes (a.words.set 0 w0)).length ≤ 4096 := by
    have old_le : old.length ≤ 1024 := slabWords_length_le wf _
    have w_le : w.length ≤ 1024 := by
      unfold w
      split
      · rw [List.length_append, List.length_replicate]
        exact le_rfl
      · exact old_le
    have size : a.words.length = w.length :=
      foldl_keeps (fun x : SignAcc => x.words.length) _ (signStep_words e _) _ _
    rw [wordsToBytes_length, List.length_set]
    omega
  exact c.raise _ _ (c.markIf _ _ _ (c.putResiduals major residuals (c.slab major whole q)))

theorem LaneClosed.gcmp (major : e.b.v1.major.toNat = 12) (q : Q t) : Q (gcmpEffect e t) := by
  unfold gcmpEffect
  split
  · exact q
  · split
    · exact c.gcmpTopk major q
    · exact c.gcmpSign major q

/-! ### UPD and its mirror records -/

theorem LaneClosed.mirrorPush (major : e.b.v1.major.toNat = 14) (rs : List MirrorRec) (q : Q t) : Q (t.mirrorPush rs) := by
  unfold State.mirrorPush
  split
  · exact c.mirror major _ t.net q
  · exact c.markIf _ _ _ (c.bump _ _ (c.goneOnce (c.mirror major _ _ q)))

theorem LaneClosed.pushDesc (major : e.b.v1.major.toNat = 14) (d : List Word) (q : Q t) : Q (t.pushDesc d) := by
  unfold State.pushDesc
  extract_lets _ u
  have listed : Q u := c.mirror major _ t.net q
  split
  · unfold State.sendDesc
    split
    · exact listed
    · exact c.mirrorPush major _ (c.mirror major _ u.net listed)
  · exact listed

theorem LaneClosed.updMirror (major : e.b.v1.major.toNat = 14) (praw : List Word) (q : Q t) : Q (updMirror e t praw) := by
  unfold Sys2Proof.Machine.updMirror
  extract_lets v ctx g row rec_ n recs d t1
  have pushed : Q t1 := c.mirrorPush major _ q
  exact c.pushDesc major _ (c.mirror major _ t1.net pushed)

theorem LaneClosed.updRun (major : e.b.v1.major.toNat = 14) (q : Q t) : Q (updRun e t) := by
  have weights : e.LaneDest e.b.v1.dst (fmtOf e.b.v1.dfmt).bytes :=
    .of_use (u := elemUse 1 e.ctx.ew.bytes e.b.v1.dst (fmtOf e.b.v1.dfmt).bytes true true e.b.v1.km) (Fmt.bytes_cases _)
      (fun _ => by simp [v1Uses, major]) rfl rfl le_rfl
  have first : e.LaneDest e.b.v1.src2 2 :=
    .of_use (u := elemUse 1 e.ctx.ew.bytes e.b.v1.src2 2 true true e.b.v1.km) (.inr (.inl rfl))
      (fun _ => by simp [v1Uses, major]) rfl rfl le_rfl
  have second (two : e.b.v1.fn = 1) : e.LaneDest (e.b.v1.src2 + 1) 2 :=
    .of_use (u := elemUse 1 e.ctx.ew.bytes (e.b.v1.src2 + 1) 2 true true e.b.v1.km) (.inr (.inl rfl))
      (fun _ => by simp [v1Uses, major, two]) rfl rfl le_rfl
  unfold Sys2Proof.Machine.updRun
  extract_lets v one leaf act sf df src
  split
  next ps praw _ =>
    extract_lets p k1 k2 out nans vals t1 t2 t3 t4
    have short : vals.length ≤ e.vl := by simp [vals, out, src, act]
    have moments : Q t2 := c.run first (by simpa using short) (c.run weights (by simpa using short) q)
    have written : Q t3 := by
      unfold t3
      split
      next two => exact c.run (second two) (by simpa using short) moments
      next => exact moments
    exact c.updMirror major _ (c.raise _ _ (c.markIf _ _ _ (c.bump _ _ written)))

theorem LaneClosed.upd (major : e.b.v1.major.toNat = 14) (q : Q t) : Q (updEffect e t) := by
  unfold updEffect
  split
  · exact q
  · split
    · exact c.updRun major q
    · exact c.mark _ _ (c.bump _ _ q)
    · exact c.mark _ _ (c.bump _ _ q)

/-- What every step of the lanes keeps, the vector slots of a legal bundle keep. -/
theorem LaneClosed.v1 (legal : e.b.v1.legal = true) (q : Q t) : Q (v1Effect e t) := by
  unfold v1Effect
  split
  next major => exact c.func major q
  next major => exact c.gact major q
  next major => exact c.cvt major legal q
  next major => exact c.red major q
  next major => exact c.scan major q
  next major => exact c.lscan major q
  next major => exact c.perm major legal q
  next major => exact c.xpose major legal q
  next major => exact c.cprs major legal q
  next major => exact c.expd major legal q
  next major => exact c.tsel major q
  next major => exact c.gcmp major q
  next major => exact c.gdec major q
  next major => exact c.upd major q
  next => exact q

end

end Sys2Proof.Machine
end

section
/-!
SUPPORT. What the M slot of a bundle writes: any predicate that each step of its effects keeps (R101, R114).
-/

namespace Sys2Proof.Machine

theorem Tile.slab_length (x : Tile) (k : Nat) : (x.slab k).length = 1024 := by
  unfold Sys2Proof.Machine.Tile.slab
  rw [List.length_map, List.length_range]

/-! ### What the M slot may do to a state -/

/-- Bytes that a MOVS, a KST or an NRECV writes from the start of its slab. -/
def Env.slabWidth (e : Env) : Nat :=
  if e.b.m.major.toNat = 9 then (fmtOf e.b.m.mfmt).bytes else if e.b.m.major.toNat = 11 then 512 else 4096

/-- `Q` is kept by each step that the M slot of a bundle is made of. -/
structure PortClosed (e : Env) (Q : State → Prop) : Prop extends AsideClosed Q where
  ctx : e.b.m.major.toNat = 10 ∨ e.b.m.pi = 1 → ∀ {t : State} (f : Ctx → Ctx), Q t → Q (t.modCtx e.st f)
  xfer : e.b.m.major.toNat ∈ [1, 2, 3, 4, 13, 15, 16, 17, 18] → ∀ {t : State} (l : List Xfer), Q t →
    Q { t with xfers := l }
  acc : e.b.m.major.toNat = 5 ∨ e.b.m.major.toNat = 6 → ∀ {t : State} {vals : List (Option Nat)}, vals.length = 1024 →
    Q t → Q (writeTo e.s t e.st e.b.m.hs 4 vals)
  slab : e.b.m.major.toNat ∈ [8, 9, 11] → ∀ {t : State} {bs : List Byte},
    (SMap.wf 0 e.s.hoops = true → bs.length ≤ e.slabWidth) → Q t → Q (e.putSlab t e.b.m.hs bs)
  tiles : e.b.m.major.toNat = 6 → ∀ {t : State} (l : List Tile), Q t →
    Q { t with edging := { t.edging with tiles := l } }
  port : e.b.m.major.toNat ∈ [7, 8] → ∀ {t : State} (n : NetUnit) (l : List (BitVec 15)), Q t →
    Q { t with net := n, partner := { t.partner with recent := l } }
  keyed : e.b.m.major.toNat = 7 → ∀ {t : State} (k : SealUnit), Q t → Q { t with keys := k }
  mask : e.b.m.major.toNat = 12 → ∀ {t : State} (m : BitVec 4096), Q t → Q (t.setMask (e.b.m.imm.toNat % 8) m)
  table : e.b.m.major.toNat ∈ [13, 14] → ∀ {t : State} (x : Motif) (k : SealUnit), x.spares = t.motif.spares → Q t →
    Q { t with motif := x, keys := k }

section
variable {e : Env} {Q : State → Prop} (c : PortClosed e Q) {t : State}
include c

/-! ### Handing a transfer or a record -/

theorem PortClosed.push (major : e.b.m.major.toNat ∈ [1, 2, 3, 4, 13, 15, 16, 17, 18]) (op : XferOp) (l : List Nat)
    (q : Q t) : Q (e.push t op l) := c.xfer major _ q

theorem PortClosed.exchanged (major : e.b.m.major.toNat ∈ [7, 8]) (p : BitVec 15) (q : Q t) : Q (t.exchanged p) := by
  unfold State.exchanged
  split
  · exact q
  · exact c.port major t.net _ q

theorem PortClosed.sealKey (major : e.b.m.major.toNat = 7) (p : Nat) (q : Q t) : Q (t.sealKey p).2 := by
  unfold State.sealKey
  split
  · exact q
  · split
    · exact c.keyed major _ (c.keyed major _ (c.keyed major _ q))
    · exact c.mark _ _ q
  · exact c.mark _ _ q

theorem PortClosed.sendRecord (major : e.b.m.major.toNat = 7) {h : List Word} (own : hdrMirror h = false)
    (body : List Byte) (st : Stream) (n : Nat) (q : Q t) : Q (t.sendRecord h body st n) := by
  have sealed : Q (t.sealKey 0).2 := c.sealKey major 0 q
  unfold State.sendRecord
  simp only [own, Bool.false_eq_true, if_false]
  split
  next u hu =>
    rw [hu] at sealed
    have discarded : u.discardOut false = u.bump .sendDiscard 1 := rfl
    rw [discarded]
    exact c.bump _ _ sealed
  next k u hu =>
    rw [hu] at sealed
    refine c.exchanged (by simp [major]) _ ?_
    exact c.port (by simp [major]) _ u.partner.recent (c.keyed major _ sealed)

theorem PortClosed.nsend (major : e.b.m.major.toNat = 7) (q : Q t) : Q (nsendEffect e t false) := by
  have net {u : State} (n : NetUnit) (q : Q u) : Q { u with net := n } := c.port (by simp [major]) n u.partner.recent q
  by_cases far : Config.maxPackage < (addrPackage e.netAddr).toNat
  · rw [nsendEffect_far t far]
    exact c.bump _ _ (c.mark _ _ q)
  · cases reach : t.reachable (addrPackage e.netAddr) with
    | false =>
      rw [nsendEffect_gone (Nat.not_lt.mp far) reach]
      exact net _ (c.bump _ _ (c.goneOnce q))
    | true =>
      rw [nsendEffect_sent (Nat.not_lt.mp far) reach]
      exact net _ (c.sendRecord major (hdrMirror_headerWords ..) _ _ _ (net _ q))

theorem PortClosed.hand (q : Q t) : Q (mHand e .normal t) := by
  unfold mHand
  dsimp only
  split
  next major _ => exact c.push (by simp [major]) _ _ q
  next major _ => exact c.push (by simp [major]) _ _ q
  next major _ =>
    refine c.push (by simp [major]) _ _ ?_
    split
    · exact c.aside t.pages t.trouble _ q
    · exact q
  next major _ => exact c.push (by simp [major]) _ _ q
  next major => exact c.push (by simp [major]) _ _ q
  next major => exact c.push (by simp [major]) _ _ q
  next major => exact c.nsend major q
  next major => exact c.push (by simp [major]) _ _ q
  next major => exact c.push (by simp [major]) _ _ q
  next major => exact c.push (by simp [major]) _ _ q
  next major => exact c.push (by simp [major]) _ _ q
  next major => exact c.push (by simp [major]) _ _ q
  next => exact q

/-! ### Tables -/

theorem PortClosed.setMslot (major : e.b.m.major.toNat ∈ [13, 14]) (i : Nat) (x : MotifSlot) (q : Q t) :
    Q (t.setMslot i x) := c.table major _ t.keys rfl q

theorem PortClosed.measCancel (major : e.b.m.major.toNat ∈ [13, 14]) (x : MeasTarget) (q : Q t) :
    Q (t.measCancel x) := by
  unfold State.measCancel State.measNext
  dsimp only
  split
  · exact c.table major t.motif _ rfl q
  · exact c.table major t.motif _ rfl q

theorem PortClosed.beginLoad (q : Q t) : Q (t.beginLoad e.b.m) := by
  unfold State.beginLoad
  extract_lets i b
  split
  next starts =>
    have major : e.b.m.major.toNat ∈ [13, 14] := by
      simp only [Bool.and_eq_true, decide_eq_true_eq] at starts
      simp [starts.1]
    refine c.measCancel major _ ?_
    unfold State.startLoad
    dsimp only
    split
    · exact q
    · exact c.setMslot major _ _ q
  · exact q

theorem PortClosed.decideSwap (major : e.b.m.major.toNat ∈ [13, 14]) (i : Nat) (q : Q t) : Q (t.decideSwap i) := by
  unfold State.decideSwap
  dsimp only
  split
  · exact c.mark _ _ (c.setMslot major _ _ q)
  · exact q

theorem PortClosed.requestSwap (major : e.b.m.major.toNat ∈ [13, 14]) (i : Nat) (q : Q t) : Q (t.requestSwap i) := by
  unfold State.requestSwap
  extract_lets x u
  split
  · exact c.mark _ _ q
  · have asked : Q u := c.setMslot major _ _ q
    split
    · exact asked
    · exact c.decideSwap major i asked

/-! ### Writeback -/

theorem PortClosed.putAcc (major : e.b.m.major.toNat = 5 ∨ e.b.m.major.toNat = 6) {ws : List Word}
    (len : ws.length = 1024) (q : Q t) : Q (e.putAcc t ws) :=
  c.acc major (by rw [List.length_map, len]) q

theorem PortClosed.mova (major : e.b.m.major.toNat = 5) (q : Q t) : Q (movaEffect e t) := by
  unfold movaEffect
  split
  · exact c.putAcc (.inl major) (Tile.slab_length ..) q
  · exact q

theorem PortClosed.popq (major : e.b.m.major.toNat = 6) (b : Bool) (q : Q t) : Q (popqEffect e t b) := by
  unfold popqEffect
  split
  · exact c.mark _ _ q
  · split
    · split
      · exact c.goneOnce q
      · exact c.tiles major _ (c.putAcc (.inr major) (Tile.slab_length ..) q)
    · exact c.goneOnce q

theorem PortClosed.nrecv (major : e.b.m.major.toNat = 8) (b : Bool) (q : Q t) : Q (nrecvEffect e t b) := by
  have net {u : State} (n : NetUnit) (q : Q u) : Q { u with net := n } := c.port (by simp [major]) n u.partner.recent q
  unfold nrecvEffect
  extract_lets a
  split
  · exact c.mark _ _ q
  · split
    · exact c.goneOnce (net _ q)
    · split
      next k x _ =>
        dsimp only
        split
        · exact c.goneOnce (net _ q)
        · refine c.exchanged (by simp [major]) _ (c.slab (by simp [major]) (fun wf => ?_) (net _ q))
          rw [State.slabBytes, slice_eq_getBytes _ _ wf]
          simp [getBytes, Env.slabWidth, major]
      · exact c.goneOnce q

theorem PortClosed.movs (major : e.b.m.major.toNat = 9) (q : Q t) : Q (movsEffect e t) :=
  c.slab (by simp [major]) (fun _ => by rw [leBytes_length, Env.slabWidth, if_pos major]) q

theorem PortClosed.gets (major : e.b.m.major.toNat = 10) (q : Q t) : Q (getsEffect e t) := by
  unfold getsEffect
  exact c.ctx (.inl major) _ q

theorem PortClosed.kst (major : e.b.m.major.toNat = 11) (q : Q t) : Q (kstEffect e t) :=
  c.slab (by simp [major]) (fun _ => by rw [leBytes_length, Env.slabWidth, major]; rfl) q

theorem PortClosed.kld (major : e.b.m.major.toNat = 12) (q : Q t) : Q (kldEffect e t) := c.mask major _ q

theorem PortClosed.rest (o : MOut) (q : Q t) : Q (mRest e o t) := by
  unfold mRest
  extract_lets m u mx n n'
  have done : Q u := by
    unfold u
    split
    next major => exact c.mova major q
    next major => exact c.popq major _ q
    next major => exact c.nrecv major _ q
    next major => exact c.movs major q
    next major => exact c.gets major q
    next major => exact c.kst major q
    next major => exact c.kld major q
    next major => exact c.requestSwap (.tail _ (List.mem_singleton.mpr major)) _ q
    next => exact q
  split
  next pi => exact c.ctx (.inr pi) _ done
  next => exact done

end

end Sys2Proof.Machine
end

section
/-!
SUPPORT. The frame of an executing bundle, by kind of state (R34, R111, R114, R189, R279, R296). Settles O13.
-/

namespace Sys2Proof.Machine

/-! ### A field that the lanes or the port do not see -/

theorem slotErrs_keeps {α : Type} (P : State → α)
    (h : ∀ (t : State) (ecc : List EccErr) (x : ScaleUnit) (n : Word) (p : Vector PageHdr 16) (u : TroubleUnit),
      P { t with ecc := ecc, scale := x, capGen := n, pages := p, trouble := u } = P t) (s : State) :
    P s.slotErrs = P s := by
  have mark (t : State) (p b : Nat) : P (t.mark p b) = P t := h t t.ecc t.scale t.capGen _ t.trouble
  have bump (t : State) (c : Ctr) (n : Nat) : P (t.bump c n) = P t := by
    unfold State.bump State.markIf
    extract_lets v _ u
    have counted : P u = P t := h t t.ecc t.scale t.capGen t.pages _
    split
    · rfl
    · split
      · exact (mark u _ _).trans counted
      · exact counted
  have logDarn (t : State) (k c n : Nat) : P (t.logDarn k c n) = P t := by
    unfold State.logDarn
    split
    · exact (bump _ _ _).trans (mark _ _ _)
    · exact (mark _ _ _).trans (h t t.ecc t.scale t.capGen t.pages _)
  have settleCap (t u : State) : P (State.settleCap t u) = P u := by
    unfold State.settleCap
    split
    · rfl
    · exact (mark _ _ _).trans (h u u.ecc u.scale _ u.pages u.trouble)
  refine foldl_keeps P _ (fun t e => ?_) _ _
  unfold State.slotErr
  extract_lets i u
  have found : P u = P t := h t _ t.scale t.capGen t.pages t.trouble
  have slot (x : ScaleUnit) : P { u with scale := x } = P t := (h u u.ecc x u.capGen u.pages u.trouble).trans found
  split
  · exact found
  · split
    · exact (mark _ _ _).trans (slot _)
    · split
      · exact (settleCap _ _).trans ((logDarn _ _ _ _).trans ((mark _ _ _).trans (slot _)))
      · exact (mark _ _ _).trans (slot _)

theorem LaneClosed.of_field {α : Type} {e : Env} (P : State → α) (a : α)
    (h : ∀ (t : State) (pages : Vector PageHdr 16) (trouble : TroubleUnit) (n : Nat) (hoops : SMap Byte)
      (ecc : List EccErr), P { t with pages := pages, trouble := trouble, freeCount := n, hoops := hoops, ecc := ecc } = P t)
    (mask : ∀ (t : State) (k : Nat) (m : BitVec 4096), e.LaneMask k → P (t.setMask k m) = P t)
    (carry : e.b.v1.major.toNat = 5 ∨ e.b.v1.major.toNat = 6 → ∀ (t : State) c, P { t with carries := c } = P t)
    (scale : e.b.v1.major.toNat = 3 → ∀ (t : State) x, P { t with scale := x } = P t)
    (slots : e.b.v1.major.toNat = 3 → ∀ t : State, P t.slotErrs = P t)
    (mirror : e.b.v1.major.toNat = 14 → ∀ (t : State) m n, P { t with mirror := m, net := n } = P t) :
    LaneClosed e (fun t => P t = a) where
  aside {t} pages trouble n q := (h t pages trouble n t.hoops t.ecc).trans q
  run {_ _ _ _} _ _ q := writeTo_closed (Q := fun u => P u = a)
    (fun t _ _ _ _ _ _ _ _ _ q => (h t t.pages t.trouble t.freeCount _ _).trans q) q
  slab {t _} _ _ q := putSlab_closed (Q := fun u => P u = a)
    (fun _ _ _ => (h t t.pages t.trouble t.freeCount _ _).trans q) q
  mask {t k} m dst q := (mask t k m dst).trans q
  carry major {t} c q := (carry major t c).trans q
  scale major {t} x _ q := (scale major t x).trans q
  slots major {t} q := (slots major t).trans q
  mirror major {t} m n q := (mirror major t m n).trans q

theorem PortClosed.of_field {α : Type} {e : Env} (P : State → α) (a : α)
    (h : ∀ (t : State) (pages : Vector PageHdr 16) (trouble : TroubleUnit) (n : Nat),
      P { t with pages := pages, trouble := trouble, freeCount := n } = P t)
    (hoops : e.b.m.quiet = false → ∀ (t : State) l ecc, P { t with hoops := l, ecc := ecc } = P t)
    (ctx : ∀ (t : State) (f : Ctx → Ctx), P (t.modCtx e.st f) = P t)
    (xfer : e.b.m.major.toNat ∈ [1, 2, 3, 4, 13, 15, 16, 17, 18] → ∀ (t : State) l, P { t with xfers := l } = P t)
    (tiles : e.b.m.major.toNat = 6 → ∀ (t : State) l, P { t with edging := { t.edging with tiles := l } } = P t)
    (port : e.b.m.major.toNat ∈ [7, 8] → ∀ (t : State) n l,
      P { t with net := n, partner := { t.partner with recent := l } } = P t)
    (keyed : e.b.m.major.toNat = 7 → ∀ (t : State) k, P { t with keys := k } = P t)
    (mask : e.b.m.major.toNat = 12 → ∀ (t : State) m, P (t.setMask (e.b.m.imm.toNat % 8) m) = P t)
    (table : e.b.m.major.toNat ∈ [13, 14] → ∀ (t : State) (x : Motif) k, x.spares = t.motif.spares →
      P { t with motif := x, keys := k } = P t) :
    PortClosed e (fun t => P t = a) where
  aside {t} pages trouble n q := (h t pages trouble n).trans q
  ctx _ {t} f q := (ctx t f).trans q
  xfer major {t} l q := (xfer major t l).trans q
  acc major {_ _} _ q := writeTo_closed (Q := fun u => P u = a)
    (fun t _ _ _ _ _ _ _ _ _ q =>
      (hoops (by rcases major with h | h <;> simp [MSlot.quiet, h]) t _ _).trans q) q
  slab major {t _} _ q := putSlab_closed (Q := fun u => P u = a)
    (fun _ _ _ => (hoops (by simp at major; rcases major with h | h | h <;> simp [MSlot.quiet, h]) t _ _).trans q) q
  tiles major {t} l q := (tiles major t l).trans q
  port major {t} n l q := (port major t n l).trans q
  keyed major {t} k q := (keyed major t k).trans q
  mask major {t} m q := (mask major t m).trans q
  table major {t} x k spares q := (table major t x k spares).trans q

theorem vectored_closed {s : State} {i : Issue} {Q : State → Prop} (c : LaneClosed (s.env i) Q)
    (legal : i.bundle.v1.legal = true) (q : Q s) : Q (s.vectored i) := c.v1 legal (c.chain q)

theorem beforeS_closed {s : State} {i : Issue} {Q : State → Prop} (c : PortClosed (s.env i) Q) (q : Q (s.vectored i)) :
    Q (s.beforeS i) := c.rest _ (c.beginLoad (c.hand q))

/-! ### The fields that only one slot writes -/

theorem vectored_carries {s : State} {i : Issue} (legal : i.bundle.v1.legal = true)
    (h5 : i.bundle.v1.major.toNat ≠ 5) (h6 : i.bundle.v1.major.toNat ≠ 6) : (s.vectored i).carries = s.carries :=
  vectored_closed (LaneClosed.of_field State.carries s.carries (fun _ _ _ _ _ _ => rfl)
    (fun t k m _ => State.setMask_carries t k m) (fun h => (h.elim h5 h6).elim) (fun _ _ _ => rfl)
    (fun _ => slotErrs_keeps State.carries fun _ _ _ _ _ _ => rfl) (fun _ _ _ _ => rfl)) legal rfl

theorem vectored_scale {s : State} {i : Issue} (legal : i.bundle.v1.legal = true)
    (h3 : i.bundle.v1.major.toNat ≠ 3) : (s.vectored i).scale = s.scale :=
  vectored_closed (LaneClosed.of_field State.scale s.scale (fun _ _ _ _ _ _ => rfl)
    (fun t k m _ => State.setMask_scale t k m) (fun _ _ _ => rfl) (fun h => absurd h h3)
    (fun h => absurd h h3) (fun _ _ _ _ => rfl)) legal rfl

theorem vectored_mirror {s : State} {i : Issue} (h : i.bundle.v1.major.toNat ≠ 14) :
    (s.vectored i).mirror = s.mirror :=
  congrArg (fun o : NetUnit × MirrorUnit × Nat => o.2.1) ((v1Effect_outgoing (e := s.env i) (chainEffect (s.env i) s)
    (fun major => h (by rw [show i.bundle.v1.major = 14 from major]; rfl))).trans (chainEffect_outgoing (s.env i) s))

theorem mask_setMask_of_ne (s : State) {j k : Nat} (h : j ≠ k) (m : BitVec 4096) :
    (s.setMask j m).mask k = s.mask k := by
  unfold State.setMask
  split
  · rfl
  · simp only [State.mask, Vector.getElem?_setIfInBounds_ne h]

theorem vectored_mask {s : State} {i : Issue} (legal : i.bundle.v1.legal = true) {k : Nat}
    (other : ¬ (s.env i).LaneMask k) : (s.vectored i).mask k = s.mask k :=
  vectored_closed (LaneClosed.of_field (fun t => t.mask k) (s.mask k) (fun _ _ _ _ _ _ => rfl)
    (fun t j m dst => mask_setMask_of_ne t (fun same => other (by rwa [same] at dst)) m) (fun _ _ _ => rfl) (fun _ _ _ => rfl)
    (fun _ => slotErrs_keeps (fun t => t.mask k) fun _ _ _ _ _ _ => rfl) (fun _ _ _ _ => rfl)) legal rfl

theorem beforeS_mask {s : State} {i : Issue} {k : Nat}
    (other : i.bundle.m.major.toNat = 12 → i.bundle.m.imm.toNat % 8 ≠ k) :
    (s.beforeS i).mask k = (s.vectored i).mask k :=
  beforeS_closed (PortClosed.of_field (fun t => t.mask k) ((s.vectored i).mask k) (fun _ _ _ _ => rfl)
    (fun _ _ _ _ => rfl) (fun t f => by cases (s.env i).st <;> rfl) (fun _ _ _ => rfl) (fun _ _ _ => rfl)
    (fun _ _ _ _ => rfl) (fun _ _ _ => rfl) (fun major t m => mask_setMask_of_ne t (other major) m)
    (fun _ _ _ _ _ => rfl)) rfl

/-- What no M slot writes: CAP_GEN, the carries, the scale slots, the mirror and the spare leaves. -/
def State.laneOnly (s : State) : Word × Vector Carry 4 × ScaleUnit × MirrorUnit × Vector SpareLeaf 4 :=
  (s.capGen, s.carries, s.scale, s.mirror, s.motif.spares)

theorem beforeS_laneOnly (s : State) (i : Issue) : (s.beforeS i).laneOnly = (s.vectored i).laneOnly :=
  beforeS_closed (PortClosed.of_field State.laneOnly (s.vectored i).laneOnly (fun _ _ _ _ => rfl)
    (fun _ _ _ _ => rfl) (fun t f => by cases (s.env i).st <;> rfl) (fun _ _ _ => rfl) (fun _ _ _ => rfl)
    (fun _ _ _ _ => rfl) (fun _ _ _ => rfl) (fun _ t m => by unfold State.setMask; split <;> rfl)
    (fun _ t x k spares => by simp only [State.laneOnly, spares])) rfl

theorem beforeS_motif {s : State} {i : Issue} (h : i.bundle.m.major.toNat ∉ [13, 14]) :
    (s.beforeS i).motif = (s.vectored i).motif :=
  beforeS_closed (PortClosed.of_field State.motif (s.vectored i).motif (fun _ _ _ _ => rfl)
    (fun _ _ _ _ => rfl) (fun _ _ => State.modCtx_motif ..) (fun _ _ _ => rfl) (fun _ _ _ => rfl)
    (fun _ _ _ _ => rfl) (fun _ _ _ => rfl) (fun _ _ _ => State.setMask_motif ..)
    (fun major => absurd major h)) rfl

theorem beforeS_net {s : State} {i : Issue} (h : i.bundle.m.major.toNat ∉ [7, 8]) :
    (s.beforeS i).net = (s.vectored i).net :=
  beforeS_closed (PortClosed.of_field State.net (s.vectored i).net (fun _ _ _ _ => rfl)
    (fun _ _ _ _ => rfl) (fun _ _ => State.modCtx_net ..) (fun _ _ _ => rfl) (fun _ _ _ => rfl)
    (fun major => absurd major h) (fun _ _ _ => rfl) (fun _ _ _ => State.setMask_net ..)
    (fun _ _ _ _ _ => rfl)) rfl

theorem beforeS_keys {s : State} {i : Issue} (h : i.bundle.m.major.toNat ∉ [7, 13, 14]) :
    (s.beforeS i).keys = (s.vectored i).keys := by
  obtain ⟨h7, h13⟩ := not_or.mp (fun x => h (List.mem_cons.mpr x))
  exact beforeS_closed (PortClosed.of_field State.keys (s.vectored i).keys (fun _ _ _ _ => rfl)
    (fun _ _ _ _ => rfl) (fun _ _ => State.modCtx_keys ..) (fun _ _ _ => rfl) (fun _ _ _ => rfl)
    (fun _ _ _ _ => rfl) (fun major => absurd major h7) (fun _ _ _ => State.setMask_keys ..)
    (fun major => absurd major h13)) rfl

theorem beforeS_xfers {s : State} {i : Issue} (h : i.bundle.m.major.toNat ∉ [1, 2, 3, 4, 13, 15, 16, 17, 18]) :
    (s.beforeS i).xfers = (s.vectored i).xfers :=
  beforeS_closed (PortClosed.of_field State.xfers (s.vectored i).xfers (fun _ _ _ _ => rfl)
    (fun _ _ _ _ => rfl) (fun _ _ => State.modCtx_xfers ..) (fun major => absurd major h) (fun _ _ _ => rfl)
    (fun _ _ _ _ => rfl) (fun _ _ _ => rfl) (fun _ _ _ => State.setMask_xfers ..) (fun _ _ _ _ _ => rfl)) rfl

theorem beforeS_hoops {s : State} {i : Issue} (h : i.bundle.m.quiet = true) :
    (s.beforeS i).hoops = (s.vectored i).hoops :=
  beforeS_closed (PortClosed.of_field State.hoops (s.vectored i).hoops (fun _ _ _ _ => rfl)
    (fun writes => absurd (h.symm.trans writes) (by decide)) (fun _ _ => State.modCtx_hoops ..) (fun _ _ _ => rfl)
    (fun _ _ _ => rfl) (fun _ _ _ _ => rfl) (fun _ _ _ => rfl) (fun _ _ _ => State.setMask_hoops ..)
    (fun _ _ _ _ _ => rfl)) rfl

/-! ### CAP_GEN -/

theorem mem_soundBytes {l : List EccErr} {t : EccTarget} {on : Nat → Bool} {x : EccErr} (h : x ∈ soundBytes l t on) :
    ∃ y ∈ l, y.target = x.target := by
  unfold soundBytes at h
  obtain ⟨y, hy, hx⟩ := List.mem_filterMap.mp h
  refine ⟨y, hy, ?_⟩
  dsimp only at hx
  split at hx
  · split at hx
    · cases hx
    · cases hx
      rfl
  · cases hx
    rfl

theorem mergeSlab_ecc (s : State) (h k : Nat) (bs : List Byte) (on : Nat → Bool) :
    ∃ written, (s.mergeSlab h k bs on).ecc = soundBytes s.ecc .hoop written := by
  unfold State.mergeSlab
  dsimp only
  exact ⟨_, rfl⟩

theorem writeSlab_ecc (s : State) (h k : Nat) (bs : List Byte) :
    ∃ written, (s.writeSlab h k bs).ecc = soundBytes s.ecc .hoop written := by
  unfold State.writeSlab
  dsimp only
  exact ⟨_, rfl⟩

/-- A state of the figure CAP_GEN counts, in which a CVT finds no error of a scale slot. -/
def CapKept (e : Env) (s t : State) : Prop :=
  (t.capGen = s.capGen ∧ t.scale.spareFree = s.scale.spareFree) ∧
    (e.b.v1.major.toNat = 3 → ∀ x ∈ t.ecc, x.target ≠ .scale)

theorem slotErrs_of_sound {t : State} (h : ∀ x ∈ t.ecc, x.target ≠ .scale) : t.slotErrs = t := by
  have none : (t.ecc.filter fun e => e.target == .scale) = [] := by
    rw [List.filter_eq_nil_iff]
    exact fun x hx => by simpa using h x hx
  unfold State.slotErrs
  rw [none]
  rfl

theorem CapKept.mergeSlab {e : Env} {s t : State} (q : CapKept e s t) (h k : Nat) (bs : List Byte) (on : Nat → Bool) :
    CapKept e s (t.mergeSlab h k bs on) := by
  unfold CapKept
  rw [State.mergeSlab_capGen, State.mergeSlab_scale]
  refine ⟨q.1, fun cvt x hx scale => ?_⟩
  obtain ⟨_, sound⟩ := mergeSlab_ecc t h k bs on
  rw [sound] at hx
  obtain ⟨y, hy, same⟩ := mem_soundBytes hx
  exact q.2 cvt y hy (same.trans scale)

theorem CapKept.writeSlab {e : Env} {s t : State} (q : CapKept e s t) (h k : Nat) (bs : List Byte) :
    CapKept e s (t.writeSlab h k bs) := by
  unfold CapKept
  rw [State.writeSlab_capGen, State.writeSlab_scale]
  refine ⟨q.1, fun cvt x hx scale => ?_⟩
  obtain ⟨_, sound⟩ := writeSlab_ecc t h k bs
  rw [sound] at hx
  obtain ⟨y, hy, same⟩ := mem_soundBytes hx
  exact q.2 cvt y hy (same.trans scale)

theorem laneClosed_capKept (e : Env) (s : State) : LaneClosed e (CapKept e s) where
  aside _ _ _ q := q
  run _ _ q := writeTo_closed (fun _ _ _ _ _ _ _ _ _ _ q => q.mergeSlab ..) q
  slab _ _ q := putSlab_closed (fun _ _ _ => q.writeSlab ..) q
  mask _ _ q := by
    unfold CapKept
    rw [State.setMask_capGen, State.setMask_scale, State.setMask_ecc]
    exact q
  carry _ _ _ q := q
  scale _ _ _ same q := ⟨⟨q.1.1, same.trans q.1.2⟩, q.2⟩
  slots cvt _ q := by
    rw [slotErrs_of_sound (q.2 cvt)]
    exact q
  mirror _ _ _ _ q := q

/-- Unless a CVT finds an error of a scale slot, the vector slots change no figure and leave CAP_GEN. -/
theorem vectored_capKept {s : State} {i : Issue} (legal : i.bundle.v1.legal = true)
    (sound : i.bundle.v1.major.toNat ≠ 3 ∨ ∀ x ∈ s.ecc, x.target ≠ .scale) : CapKept (s.env i) s (s.vectored i) :=
  vectored_closed (laneClosed_capKept (s.env i) s) legal
    ⟨⟨rfl, rfl⟩, fun cvt => sound.elim (fun other => absurd cvt other) id⟩

/-! ### The S slot and the settling -/

/-- A field that neither the contexts, the positions nor the sticky bits are part of. -/
theorem sEffect_keeps {α : Type} (P : State → α) (e : Env)
    (aside : ∀ (t : State) (x : IssueUnit) (p : Vector PageHdr 16) (u : TroubleUnit),
      P { t with issue := x, pages := p, trouble := u } = P t)
    (ctx : ∀ (t : State) (f : Ctx → Ctx), P (t.modCtx e.st f) = P t)
    (run : e.st = .edge → ∀ (t : State) (f : Run → Run), P (t.modRun f) = P t)
    (dir : e.b.s.major.toNat = 0x1C → ∀ (t : State) (f : Ctx → Ctx), P (t.modCtx .main f) = P t)
    (reg : e.b.s.major.toNat = 0x1D → ∀ (t : State) (o : Nat) (v : Word), P (t.setReg 1 o v) = P t) (t : State) :
    P (sEffect e t) = P t := by
  have issue (t : State) (f : IssueUnit → IssueUnit) : P (t.modIssue f) = P t := aside t _ t.pages t.trouble
  have mark (t : State) (p b : Nat) : P (t.mark p b) = P t := aside t t.issue _ t.trouble
  have markIf (t : State) (c : Bool) (p b : Nat) : P (t.markIf c p b) = P t := by
    cases c
    · rfl
    · exact mark t p b
  have bump (t : State) (c : Ctr) (n : Nat) : P (t.bump c n) = P t := by
    unfold State.bump
    split
    · rfl
    · exact (markIf _ _ _ _).trans (aside t t.issue t.pages _)
  have setPc (t : State) (n : Nat) : P (t.setPc e.st n) = P t := by
    unfold State.setPc
    split
    · exact issue _ _
    next st => exact run st _ _
  have setWait (t : State) (w : Option Wait) : P (t.setWait e.st w) = P t := by
    unfold State.setWait
    split
    · exact issue _ _
    next st => exact run st _ _
  have passEnd (t : State) : P (t.passEnd e.st) = P t := by
    unfold State.passEnd
    split
    · split
      · exact (mark _ _ _).trans (issue _ _)
      · rfl
    next st => exact run st _ _
  have goTo (t : State) (n : Nat) : P (t.goTo e.st n) = P t := (passEnd _).trans (setPc t n)
  have raise (t : State) (r : Raises) : P (t.raise 3 r) = P t :=
    (bump _ _ _).trans ((bump _ _ _).trans (aside t t.issue t.pages _))
  have wait (t : State) (a : BitVec 64) : P (waitEffect e t a) = P t := by
    unfold waitEffect
    extract_lets v go hold
    have gone (x : BitVec 64) : P (go x) = P t := (passEnd _).trans (ctx _ _)
    have held (k : WaitKind) : P (hold k) = P t := setWait _ _
    split
    · exact held _
    · split
      · exact held _
      · exact gone _
    · exact held _
    · split
      · exact held _
      · exact gone _
  unfold sEffect
  extract_lets v pc a b on x u
  have goes (u : State) (h : P u = P t) : P (on u) = P t := (goTo u _).trans h
  split
  · exact goes _ ((raise _ _).trans (ctx _ _))
  · split
    · exact goes _ ((markIf _ _ _ _).trans ((markIf _ _ _ _).trans (ctx _ _)))
    · exact goes _ ((markIf _ _ _ _).trans (ctx _ _))
    · exact goes _ (ctx _ _)
    · exact goes _ (ctx _ _)
    · exact goes _ (ctx _ _)
    · exact goes _ (ctx _ _)
    · exact goTo _ _
    · split
      · exact goes _ rfl
      · split
        · exact goes _ (ctx _ _)
        · exact (goTo _ _).trans (ctx _ _)
    · exact (wait _ _).trans (setPc _ _)
    · split
      · exact goes _ (issue _ _)
      · exact goes _ ((bump _ _ _).trans ((mark _ _ _).trans (ctx _ _)))
    next major =>
      split
      · unfold State.takeDir State.setPc
        exact (issue _ _).trans ((dir major _ _).trans (issue _ _))
      · split
        · exact (setWait _ _).trans (setPc _ _)
        · exact goes _ ((mark _ _ _).trans (ctx _ _))
    next major => exact goes _ (reg major _ _ _)
    · exact (issue _ _)
    · exact goes _ rfl

theorem goTo_contexts (s : State) (st : Stream) (n : Nat) :
    (s.goTo st n).ctx = s.ctx ∧ (s.goTo st n).edging.run.map (·.ctx) = s.edging.run.map (·.ctx) := by
  cases st with
  | main =>
    unfold State.goTo State.passEnd
    dsimp only
    split <;> exact ⟨rfl, rfl⟩
  | edge =>
    refine ⟨rfl, ?_⟩
    simp only [State.goTo, State.passEnd, State.setPc, State.modRun, Option.map_map]
    congr 1
    funext r
    simp only [Function.comp_apply]
    split <;> rfl

theorem settleCap_offScalar (s t : State) : (State.settleCap s t).offScalar = t.offScalar := by
  unfold State.settleCap
  split
  · rfl
  · exact (mark_offScalar _ _ _).trans rfl

theorem settleDown_offScalar (s : State) : (State.settleDown s).offScalar = s.offScalar := by
  unfold State.settleDown
  split
  · unfold State.refuseTriggers
    split
    · rfl
    · exact (mark_offScalar _ _ _).trans rfl
  · rfl

theorem settleFirst_offScalar (s t : State) : (State.settleFirst s t).offScalar = t.offScalar := by
  have first (x : Word) (y : BitVec 48) :
      ({ t with trouble := { t.trouble with first := x, firstStep := y } } : State).offScalar = t.offScalar := rfl
  unfold State.settleFirst
  split
  · rfl
  · split
    · rfl
    · exact first _ _

/-- Settling writes nothing but the fields that the scalar slot may write too. -/
theorem settle_offScalar (s t : State) : (State.settle s t).offScalar = t.offScalar := by
  rw [settle_eq]
  split
  · rfl
  · rw [settleFirst_offScalar, settleDown_offScalar, settleCap_offScalar]

/-- An executing bundle leaves what its S slot does not write as the other slots have left it. -/
theorem executed_offScalar (s : State) (i : Issue) : (s.executed i).offScalar = (s.beforeS i).offScalar := by
  rw [executed_eq]
  split
  · rw [modIssue_offScalar, sEffect_offScalar]
  · exact sEffect_offScalar ..

theorem offPort_offScalar_of_offScalar (s : State) : s.offScalar.offPort.offScalar = s.offPort.offScalar := by
  simp [State.offScalar, State.offPort, State.offLane, Vector.map_map, Function.comp_def, List.filter_filter]

theorem offLane_offScalar_of_offScalar (s : State) : s.offScalar.offLane.offScalar = s.offLane.offScalar := by
  simp [State.offScalar, State.offLane, Vector.map_map, Function.comp_def, List.filter_filter]

/-! ### The bytes of the hoops -/

/-- `t` has the bytes of `s` but for those in `inside`, at the same places, in canonical form. -/
def HoopsKept (s : State) (inside : Nat → Prop) (t : State) : Prop :=
  SMap.wf 0 t.hoops = true ∧ t.hoopMeta = s.hoopMeta ∧ ∀ a, ¬ inside a → t.hoops.get 0 a = s.hoops.get 0 a

theorem HoopsKept.of_splice {s t u : State} {inside : Nat → Prop} {h k : Nat} {bs : List Byte} (q : HoopsKept s inside t)
    (hoops : u.hoops = splice t.hoops (t.slabBase h k) bs) (same : u.hoopMeta = t.hoopMeta)
    (lies : ∀ a, s.slabBase h k ≤ a → a < s.slabBase h k + bs.length → inside a) : HoopsKept s inside u := by
  obtain ⟨wf, spare, bytes⟩ := q
  have base : t.slabBase h k = s.slabBase h k := by simp only [State.slabBase, State.physSlab, spare]
  rw [base] at hoops
  refine ⟨hoops ▸ splice_wf _ _ wf, same.trans spare, fun a out => ?_⟩
  rw [hoops, get_splice _ _ wf, if_neg fun r => out (lies a r.1 r.2), bytes a out]

theorem HoopsKept.mergeSlab {s t : State} {inside : Nat → Prop} {h k : Nat} {bs : List Byte} {on : Nat → Bool}
    (q : HoopsKept s inside t) (lies : ∀ a, s.slabBase h k ≤ a → a < s.slabBase h k + bs.length → inside a) :
    HoopsKept s inside (t.mergeSlab h k bs on) := q.of_splice (bs := bs) rfl rfl lies

theorem HoopsKept.writeSlab {s t : State} {inside : Nat → Prop} {h k : Nat} {bs : List Byte}
    (q : HoopsKept s inside t) (lies : ∀ a, s.slabBase h k ≤ a → a < s.slabBase h k + bs.length → inside a) :
    HoopsKept s inside (t.writeSlab h k bs) := q.of_splice (bs := bs) rfl rfl lies

theorem HoopsKept.of_fields {s t u : State} {inside : Nat → Prop} (q : HoopsKept s inside t) (hoops : u.hoops = t.hoops)
    (spare : u.hoopMeta = t.hoopMeta) : HoopsKept s inside u := by
  unfold HoopsKept
  rw [hoops, spare]
  exact q

/-! ### Where a run lies -/

theorem EW.bytes_cases (w : EW) : w.bytes = 1 ∨ w.bytes = 2 ∨ w.bytes = 4 := by
  cases w <;> simp [EW.bytes]

/-- The parts of a run of `n` elements of width `w`, within VLMAX at `ew`, fall into the slabs of the run. -/
theorem part_lt_runLen {s : State} {ew w n j : Nat} (hew : ew = 1 ∨ ew = 2 ∨ ew = 4) (hw : w = 1 ∨ w = 2 ∨ w = 4)
    (room : n ≤ s.vlmaxAt ew) (starts : s.vlmaxAt w * j < n) : j < runLen ew w := by
  have below : 64 * s.active * (4 / w * j) < 64 * s.active * (4 / ew) := by
    rw [← Nat.mul_assoc]
    exact starts.trans_le room
  have parts : 4 / w * j < 4 / ew := Nat.lt_of_mul_lt_mul_left below
  unfold runLen
  rcases hew with rfl | rfl | rfl <;> rcases hw with rfl | rfl | rfl <;> simp at parts ⊢ <;> omega

theorem vlmaxAt_bytes_le {s : State} {w : Nat} (few : s.active ≤ 16) (hw : w = 1 ∨ w = 2 ∨ w = 4) :
    s.vlmaxAt w * w ≤ 4096 := by
  unfold State.vlmaxAt
  rcases hw with rfl | rfl | rfl <;> omega

theorem lies_of_resolve {s : State} {st : Stream} {u : SlabUse} {j h k a : Nat} (hj : j < u.run)
    (at_j : s.resolve st u.o.h (u.o.k + j) = some (h, k)) (low : s.slabBase h k ≤ a)
    (high : a < s.slabBase h k + 4096) : u.lies s st a :=
  ⟨h, k, List.mem_map.mpr ⟨j, List.mem_range.mpr hj, at_j⟩, low, high⟩

theorem v0Uses_slot {ew : Nat} {v : V0Slot} : ∀ u ∈ v0Uses ew v, u.slot = 0 := by
  have opt (c : Bool) (x : SlabUse) (h : x.slot = 0) : ∀ u ∈ (if c = true then [x] else []), u.slot = 0 := by
    cases c <;> simp [h]
  unfold v0Uses
  split
  · simp
  · simp only [List.forall_mem_append, List.forall_mem_singleton]
    refine ⟨⟨⟨rfl, opt _ _ rfl⟩, opt _ _ rfl⟩, ?_⟩
    split
    · simp
    · simp [elemUse]

theorem v1Uses_slot {ew : Nat} {v : V1Slot} : ∀ u ∈ v1Uses ew v, u.slot = 1 := by
  have nil : ∀ u ∈ ([] : List SlabUse), u.slot = 1 := fun _ h => nomatch h
  have one {x : SlabUse} (h : x.slot = 1) : ∀ u ∈ [x], u.slot = 1 := List.forall_mem_singleton.mpr h
  have two {x y : SlabUse} (h : x.slot = 1) (k : y.slot = 1) : ∀ u ∈ [x, y], u.slot = 1 :=
    List.forall_mem_cons.mpr ⟨h, one k⟩
  have three {x y z : SlabUse} (h : x.slot = 1) (k : y.slot = 1) (l : z.slot = 1) : ∀ u ∈ [x, y, z], u.slot = 1 :=
    List.forall_mem_cons.mpr ⟨h, two k l⟩
  have app {l m : List SlabUse} (h : ∀ u ∈ l, u.slot = 1) (k : ∀ u ∈ m, u.slot = 1) : ∀ u ∈ l ++ m, u.slot = 1 :=
    List.forall_mem_append.mpr ⟨h, k⟩
  have opt {c : Prop} [Decidable c] {l m : List SlabUse} (h : ∀ u ∈ l, u.slot = 1) (k : ∀ u ∈ m, u.slot = 1) :
      ∀ u ∈ (if c then l else m), u.slot = 1 := by
    split
    · exact h
    · exact k
  unfold v1Uses
  extract_lets sf df src dst
  have dsts : ∀ u ∈ dst, u.slot = 1 := opt nil (one rfl)
  split
  · exact nil
  · exact app (two rfl rfl) dsts
  · exact app (two rfl rfl) dsts
  · exact app (two rfl rfl) dsts
  · exact app (app (one rfl) dsts) (opt (one rfl) nil)
  · exact app (app (one rfl) (opt (one rfl) nil)) (opt nil (opt dsts (one rfl)))
  · exact app (two rfl rfl) dsts
  · exact app (one rfl) dsts
  · exact app (one rfl) dsts
  · exact three rfl rfl rfl
  · exact two rfl rfl
  · exact app (three rfl rfl rfl) (two rfl rfl)
  · exact app (one rfl) dsts

/-- Byte `a` lies in a slab that the bundle of an issue writes as it executes. -/
def State.writtenBy (s : State) (i : Issue) (a : Nat) : Prop :=
  ∃ u ∈ slabUses s (s.ctxOf i.stream).ew.bytes i.bundle,
    u.wr = true ∧ (u.slot = 2 → i.bundle.m.quiet = false) ∧ u.lies s i.stream a

theorem writtenBy_of_lane {s : State} {i : Issue} {a : Nat} {u : SlabUse}
    (mem : u ∈ v0Uses (s.ctxOf i.stream).ew.bytes i.bundle.v0 ++ v1Uses (s.ctxOf i.stream).ew.bytes i.bundle.v1)
    (wr : u.wr = true) (lies : u.lies s i.stream a) : s.writtenBy i a := by
  refine ⟨u, List.mem_append_left _ mem, wr, fun two => ?_, lies⟩
  rcases List.mem_append.mp mem with h | h
  · exact absurd ((v0Uses_slot u h).symm.trans two) (by decide)
  · exact absurd ((v1Uses_slot u h).symm.trans two) (by decide)

theorem writtenBy_of_port {s : State} {i : Issue} {a : Nat} {u : SlabUse}
    (mem : u ∈ mUses s (s.ctxOf i.stream).ew.bytes i.bundle.m) (wr : u.wr = true) (loud : i.bundle.m.quiet = false)
    (lies : u.lies s i.stream a) : s.writtenBy i a :=
  ⟨u, List.mem_append_right _ mem, wr, fun _ => loud, lies⟩

/-! ### The lanes' writes -/

theorem laneClosed_hoopsKept {s : State} {i : Issue} (wf : SMap.wf 0 s.hoops = true) (few : s.active ≤ 16)
    (within : s.within (s.ctxOf i.stream)) : LaneClosed (s.env i) (HoopsKept s (s.writtenBy i)) where
  aside _ _ _ q := q
  run {_ f w vals} dest short q := by
    obtain ⟨hw, dest⟩ := dest
    refine writeTo_closed (fun t j h k bs on writes starts at_j len q => q.mergeSlab fun a low high => ?_) q
    obtain ⟨u, mem, wr, field, run⟩ := dest writes
    have room : vals.length ≤ s.vlmaxAt (s.ctxOf i.stream).ew.bytes := short.trans within.1
    have hj : j < u.run := (part_lt_runLen (EW.bytes_cases _) hw room starts).trans_le run
    refine writtenBy_of_lane mem wr (lies_of_resolve hj (by rw [field]; exact at_j) low ?_)
    have fits : bs.length ≤ 4096 := len.trans (vlmaxAt_bytes_le few hw)
    omega
  slab {_ bs} major len q := by
    refine putSlab_closed (fun h k at_0 => q.writeSlab fun a low high => ?_) q
    refine writtenBy_of_lane (u := wholeUse 1 i.bundle.v1.dst 4096 true true)
      (List.mem_append_right _ ?_) rfl (lies_of_resolve (j := 0) Nat.one_pos at_0 low ?_)
    · have major' : i.bundle.v1.major.toNat = 12 := major
      simp [v1Uses, major']
    · have fits := len wf
      omega
  mask _ _ q := q.of_fields (State.setMask_hoops ..) (State.setMask_hoopMeta ..)
  carry _ _ _ q := q
  scale _ _ _ _ q := q
  slots _ _ q := q.of_fields (slotErrs_keeps State.hoops (fun _ _ _ _ _ _ => rfl) _)
    (slotErrs_keeps State.hoopMeta (fun _ _ _ _ _ _ => rfl) _)
  mirror _ _ _ _ q := q

/-! ### The M slot's writes -/

theorem portClosed_hoopsKept {s : State} {i : Issue} {inside : Nat → Prop} (wf : SMap.wf 0 s.hoops = true)
    (acc : i.bundle.m.major.toNat = 5 ∨ i.bundle.m.major.toNat = 6 → ∀ a,
      s.inRun i.stream i.bundle.m.hs 4 ((1024 + s.vlmaxAt 4 - 1) / s.vlmaxAt 4) a → inside a)
    (slab : i.bundle.m.major.toNat ∈ [8, 9, 11] → ∀ h k,
      s.resolve i.stream (Opnd.of i.bundle.m.hs).h (Opnd.of i.bundle.m.hs).k = some (h, k) →
        ∀ a, s.slabBase h k ≤ a → a < s.slabBase h k + (s.env i).slabWidth → inside a) :
    PortClosed (s.env i) (HoopsKept s inside) where
  aside _ _ _ q := q
  ctx _ _ _ q := q.of_fields (State.modCtx_hoops ..) (State.modCtx_hoopMeta ..)
  xfer _ _ _ q := q
  acc major {_ vals} len q := by
    refine writeTo_closed (fun t j h k bs on _ starts at_j fits q => q.mergeSlab fun a low high => ?_) q
    have starts : s.vlmaxAt 4 * j < 1024 := starts.trans_eq len
    have fits : bs.length ≤ s.vlmaxAt 4 * 4 := fits
    refine acc major a ⟨j, ?_, h, k, at_j, low, by omega⟩
    have some_panel : 0 < s.vlmaxAt 4 := by omega
    rw [Nat.lt_div_iff_mul_lt some_panel, Nat.mul_comm]
    omega
  slab major {_ bs} len q :=
    putSlab_closed (fun h k at_0 => q.writeSlab fun a low high =>
      slab major h k at_0 a low (high.trans_le (Nat.add_le_add_left (len wf) _))) q
  tiles _ _ _ q := q
  port _ _ _ _ q := q
  keyed _ _ _ q := q
  mask _ _ _ q := q.of_fields (State.setMask_hoops ..) (State.setMask_hoopMeta ..)
  table _ _ _ _ _ q := q

/-! ### An executing bundle, slot by slot -/

theorem exec_of_clear {c : Instr} {row : Row} {i : Issue} {s : State} (h : c.row = some (row, i)) (wf : c.wf = true)
    (clear : Clear s i) : exec c s = .next (s.settle (s.executed i)) := by
  rw [exec_of_row h wf, issueBundle_of_clear clear]
  rfl

theorem legal_of_clear {s : State} {i : Issue} (h : Clear s i) : i.bundle.v1.legal = true := by
  have legal := h.legal
  simp only [State.legalHere, Bundle.legal, Bool.and_eq_true] at legal
  tauto

/-- An edging run's bundle holds no WAITDIR (R38). -/
theorem not_waitdir_of_clear {s : State} {i : Issue} (h : Clear s i) (edge : i.stream = .edge) :
    i.bundle.s.major.toNat ≠ 0x1C := by
  have legal := h.legal
  have offered := h.offered
  rw [edge] at legal offered
  obtain ⟨r, run, -⟩ := run_of_canOffer offered
  simp only [State.legalHere, Bool.and_eq_true] at legal
  intro major
  simp [State.sOk, run, major] at legal

theorem executed_keeps {α : Type} (P : State → α)
    (scalar : ∀ t : State, P t.offScalar = P t) (s : State) (i : Issue) : P (s.executed i) = P (s.beforeS i) := by
  rw [← scalar, executed_offScalar, scalar]

theorem vectored_keeps {α : Type} (P : State → α) (lane : ∀ t : State, P t.offLane = P t) (s : State) (i : Issue) :
    P (s.vectored i) = P s := by
  rw [← lane, vectored_offLane, lane]

/-! ### CAP_GEN -/

theorem executed_capGen (s : State) (i : Issue) : (s.executed i).capGen = (s.beforeS i).capGen := by
  have effect : (sEffect (s.env i) (s.beforeS i)).capGen = (s.beforeS i).capGen :=
    sEffect_keeps State.capGen (s.env i) (fun _ _ _ _ => rfl) (fun _ _ => State.modCtx_capGen ..) (fun _ _ _ => rfl)
      (fun _ _ _ => rfl) (fun _ _ _ _ => rfl) _
  rw [executed_eq]
  split
  · exact effect
  · exact effect

theorem settle_capGen_of_figures {s t : State} (h : t.figures = s.figures) : (State.settle s t).capGen = t.capGen := by
  rw [settle_eq]
  split
  · rfl
  · rw [settleFirst_capGen, settleDown_capGen, State.settleCap, if_pos (.inl h)]

theorem executed_capKept {s : State} {i : Issue} (clear : Clear s i)
    (sound : i.bundle.v1.major.toNat ≠ 3 ∨ ∀ x ∈ s.ecc, x.target ≠ .scale) :
    (State.settle s (s.executed i)).capGen = s.capGen := by
  obtain ⟨⟨capGen, spareFree⟩, -⟩ := vectored_capKept (legal_of_clear clear) sound
  have off := beforeS_offPort s i
  have lanes := beforeS_laneOnly s i
  simp only [State.laneOnly, Prod.mk.injEq] at lanes
  obtain ⟨capGen', -, scale, -, spares⟩ := lanes
  have figures : (s.executed i).figures = s.figures := by
    have panelMap : (s.beforeS i).panelMap = s.panelMap := beforeS_panelMap s i
    have panels : (s.beforeS i).panels = s.panels :=
      (congrArg State.panels off : (s.beforeS i).offPort.panels = s.offPort.panels)
    have hoopMeta : (s.beforeS i).hoopMeta = s.hoopMeta :=
      (congrArg State.hoopMeta off : (s.beforeS i).offPort.hoopMeta = s.offPort.hoopMeta)
    have motif : (s.vectored i).motif = s.motif := vectored_keeps State.motif (fun _ => rfl) s i
    rw [executed_keeps State.figures (fun _ => rfl)]
    simp only [State.figures, State.active, panelMap, panels, hoopMeta, spares, motif, scale, spareFree]
  rw [settle_capGen_of_figures figures, executed_capGen, capGen', capGen]

/-! ### Registers and contexts -/

theorem executed_regs {s : State} {i : Issue} (h : i.bundle.s.major.toNat ≠ 0x1D) : (s.executed i).regs = s.regs := by
  have effect : (sEffect (s.env i) (s.beforeS i)).regs = s.regs :=
    (sEffect_keeps State.regs (s.env i) (fun _ _ _ _ => rfl) (fun _ _ => State.modCtx_regs ..) (fun _ _ _ => rfl)
      (fun _ _ _ => rfl) (fun major => absurd major h) _).trans (beforeS_regs s i)
  rw [executed_eq]
  split
  · exact effect
  · exact effect

theorem executed_ctx_of_edge {s : State} {i : Issue} (clear : Clear s i) (edge : i.stream = .edge) :
    (s.executed i).ctx = s.ctx := by
  have st : (s.env i).st = .edge := edge
  have before : (s.beforeS i).ctx = s.ctx := by
    have streams := beforeS_streams s i
    rw [edge] at streams
    exact congrArg Prod.fst streams
  rw [executed_eq, edge, if_neg (by decide)]
  exact (sEffect_keeps State.ctx (s.env i) (fun _ _ _ _ => rfl) (fun t f => by rw [st]; rfl) (fun _ _ _ => rfl)
    (fun major => absurd major (not_waitdir_of_clear clear edge)) (fun _ _ _ _ => rfl) _).trans before

theorem sEffect_of_major_zero {e : Env} (t : State) (h : e.b.s.major = 0) :
    sEffect e t = t.goTo e.st (e.s.pcOf e.st + 1) := by
  unfold sEffect scalarValue
  dsimp only
  rw [h]
  rfl

/-- Without a scalar instruction, a post-increment or a GETS the contexts are as before. -/
theorem executed_contexts {s : State} {i : Issue} (scalar : i.bundle.s.major = 0) (pi : i.bundle.m.pi = 0)
    (gets : i.bundle.m.major.toNat ≠ 10) :
    (s.executed i).ctx = s.ctx ∧ (s.executed i).edging.run.map (·.ctx) = s.edging.run.map (·.ctx) := by
  have same : (s.env i).mCtx = fun c => c := by
    funext c
    rw [Env.mCtx, if_neg (show ¬ (s.env i).b.m.major.toNat = 10 from gets), Env.postCtx, if_neg (by rw [show (s.env i).b.m.pi = 0 from pi]; decide)]
  have streams : (s.beforeS i).streams = s.streams := by rw [beforeS_streams, same, modCtx_id]
  obtain ⟨ctx, run⟩ := goTo_contexts (s.beforeS i) i.stream (s.pcOf i.stream + 1)
  have effect := sEffect_of_major_zero (e := s.env i) (s.beforeS i) scalar
  have before : (s.beforeS i).ctx = s.ctx ∧ (s.beforeS i).edging.run = s.edging.run :=
    ⟨congrArg Prod.fst streams, congrArg Prod.snd streams⟩
  rw [before.1] at ctx
  rw [before.2] at run
  rw [executed_eq, effect]
  split
  · exact ⟨ctx, run⟩
  · exact ⟨ctx, run⟩

/-! ### The state without the port's fields, and without the lanes' -/

theorem settled_offPort (s : State) (i : Issue) :
    (State.settle s (s.executed i)).offPort.offScalar = s.offPort.offScalar := by
  rw [← offPort_offScalar_of_offScalar, settle_offScalar, executed_offScalar, offPort_offScalar_of_offScalar,
    beforeS_offPort]

theorem beforeS_of_isNop {s : State} {i : Issue} (h : i.bundle.m.isNop = true) : s.beforeS i = s.vectored i := by
  have zero := of_decide_eq_true h
  have b : (s.env i).b.m = i.bundle.m := rfl
  unfold State.beforeS mRest mHand State.beginLoad
  simp only [b, zero]
  rfl

theorem settled_offLane {s : State} {i : Issue} (h : i.bundle.m.isNop = true) :
    (State.settle s (s.executed i)).offLane.offScalar = s.offLane.offScalar := by
  rw [← offLane_offScalar_of_offScalar, settle_offScalar, executed_offScalar, offLane_offScalar_of_offScalar,
    beforeS_of_isNop h, vectored_offLane]

/-! ### Hoops -/

theorem State.canon_hoops {s : State} (h : s.canon = true) : SMap.wf 0 s.hoops = true := by
  simp only [State.canon, Bool.and_eq_true] at h
  tauto

theorem executed_hoops (s : State) (i : Issue) : (s.executed i).hoops = (s.beforeS i).hoops :=
  executed_keeps State.hoops (fun _ => rfl) s i

/-- The bytes that the M slot's own slab operand covers. -/
theorem beforeS_hoops_inside {s : State} {i : Issue} {h k a : Nat} (wf : SMap.wf 0 s.hoops = true)
    (vectors : s.vectored i = s) (at_0 : s.resolve i.stream (Opnd.of i.bundle.m.hs).h (Opnd.of i.bundle.m.hs).k = some (h, k))
    (out : ¬ if i.bundle.m.major.toNat = 5 ∨ i.bundle.m.major.toNat = 6 then
        s.inRun i.stream i.bundle.m.hs 4 ((1024 + s.vlmaxAt 4 - 1) / s.vlmaxAt 4) a
      else s.slabBase h k ≤ a ∧ a < s.slabBase h k + (s.env i).slabWidth) :
    (s.beforeS i).hoops.get 0 a = s.hoops.get 0 a := by
  refine (beforeS_closed (Q := HoopsKept s (fun a => if i.bundle.m.major.toNat = 5 ∨ i.bundle.m.major.toNat = 6 then
        s.inRun i.stream i.bundle.m.hs 4 ((1024 + s.vlmaxAt 4 - 1) / s.vlmaxAt 4) a
      else s.slabBase h k ≤ a ∧ a < s.slabBase h k + (s.env i).slabWidth))
    (portClosed_hoopsKept wf (fun major b run => ?_) (fun major h' k' at_0' b low high => ?_))
    (vectors.symm ▸ ⟨wf, rfl, fun _ _ => rfl⟩)).2.2 a out
  · rw [if_pos major]
    exact run
  · obtain ⟨rfl, rfl⟩ : h = h' ∧ k = k' := by simpa using at_0.symm.trans at_0'
    rw [if_neg (by simp at major; omega)]
    exact ⟨low, high⟩

/-- No byte outside the slabs that the bundle writes changes. -/
theorem beforeS_hoops_written {s : State} {i : Issue} {a : Nat} (clear : Clear s i) (wf : SMap.wf 0 s.hoops = true)
    (few : s.active ≤ 16) (within : s.within (s.ctxOf i.stream)) (out : ¬ s.writtenBy i a) :
    (s.beforeS i).hoops.get 0 a = s.hoops.get 0 a := by
  refine (beforeS_closed (Q := HoopsKept s (s.writtenBy i))
    (portClosed_hoopsKept wf (fun major b run => ?_) (fun major h k at_0 b low high => ?_))
    (vectored_closed (laneClosed_hoopsKept wf few within) (legal_of_clear clear) ⟨wf, rfl, fun _ _ => rfl⟩)).2.2 a out
  · obtain ⟨j, hj, h, k, at_j, low, high⟩ := run
    have room : s.vlmaxAt 4 * 4 ≤ 4096 := vlmaxAt_bytes_le few (.inr (.inr rfl))
    have panels : s.vlmaxAt 4 ≠ 0 := by
      intro none
      rw [none] at high
      omega
    refine writtenBy_of_port (u := { wholeUse 2 i.bundle.m.hs 0 false true with
      run := s.accRun, align := pow2Above s.accRun }) ?_ rfl ?_ (lies_of_resolve (j := j) ?_ at_j low (by omega))
    · rcases major with h | h <;> simp [mUses, h]
    · rcases major with h | h <;> simp [MSlot.quiet, h]
    · rw [show s.accRun = (1024 + s.vlmaxAt 4 - 1) / s.vlmaxAt 4 from if_neg panels]
      exact hj
  · simp only [List.mem_cons, List.not_mem_nil, or_false] at major
    have width : (s.env i).slabWidth ≤ 4096 := by
      unfold Env.slabWidth
      split
      · rcases Fmt.bytes_cases (fmtOf (s.env i).b.m.mfmt) with h | h | h <;> omega
      · split <;> decide
    refine writtenBy_of_port (u := wholeUse 2 i.bundle.m.hs 0 false true) ?_ rfl ?_
      (lies_of_resolve (j := 0) Nat.one_pos at_0 low (by omega))
    · rcases major with h | h | h <;> simp [mUses, h]
    · rcases major with h | h | h <;> simp [MSlot.quiet, h]

end Sys2Proof.Machine
open Sys2Proof Sys2Proof.Machine

/-- Settles O13: the bundle executes and the state settles; each clause is the frame of that kind of state, slot by
slot. -/
theorem bundleFrame : Obligations.BundleFrame := by
  unfold Obligations.BundleFrame
  intro c row i s t hrow wf clear hx b v m
  obtain rfl : s.settle (s.executed i) = t := Host.Outcome.next.inj ((exec_of_clear hrow wf clear).symm.trans hx)
  have legal := legal_of_clear clear
  have lanes := beforeS_laneOnly s i
  simp only [State.laneOnly, Prod.mk.injEq] at lanes
  obtain ⟨-, carries, scale, mirror, -⟩ := lanes
  refine ⟨settled_offPort s i, ?_, executed_capKept clear, fun h => ?_, settled_offLane, fun h pi gets => ?_, fun edge => ?_,
    fun k h0 h1 hm => ?_, fun h5 h6 => ?_, fun h3 => ?_, fun h14 => ?_, fun hm => ?_, fun hm => ?_, fun hm => ?_,
    fun hm => ?_, fun v0 v1 => ⟨fun quiet => ?_, fun h k canon at_0 => ?_⟩, fun canon few within a out => ?_⟩
  · rw [settle_fabric, executed_keeps State.fabric (fun _ => rfl)]
    exact (congrArg State.fabric (beforeS_offPort s i) : (s.beforeS i).offPort.fabric = s.offPort.fabric)
  · rw [settle_regs, executed_regs (fun major => h (BitVec.eq_of_toNat_eq major))]
  · rw [settle_ctx, settle_edging_run]
    exact executed_contexts h pi gets
  · rw [settle_ctx, executed_ctx_of_edge clear edge]
  · have other : ¬ (s.env i).LaneMask k.toNat := by
      rintro (⟨major, cmp, same⟩ | ⟨major, same⟩)
      · exact h0 major cmp (BitVec.eq_of_toNat_eq same)
      · exact h1 major (BitVec.eq_of_toNat_eq same)
    have port : m = 12 → i.bundle.m.imm.toNat % 8 ≠ k.toNat := fun major same =>
      hm major (BitVec.eq_of_toNat_eq (by simpa using same.symm))
    have settled : (s.settle (s.executed i)).mask k.toNat = (s.executed i).mask k.toNat := by
      unfold State.mask
      rw [settle_masks]
    rw [settled, executed_keeps (fun t => t.mask k.toNat) (fun _ => rfl), beforeS_mask port, vectored_mask legal other]
  · rw [settle_carries, executed_keeps State.carries (fun _ => rfl), carries, vectored_carries legal h5 h6]
  · rw [settle_scale, executed_keeps State.scale (fun _ => rfl), scale, vectored_scale legal h3]
  · rw [settle_mirror, executed_keeps State.mirror (fun _ => rfl), mirror, vectored_mirror h14]
  · rw [settle_motif, executed_keeps State.motif (fun _ => rfl), beforeS_motif hm]
    exact vectored_keeps State.motif (fun _ => rfl) s i
  · rw [settle_net, settle_mirror, executed_keeps State.net (fun _ => rfl), executed_keeps State.mirror (fun _ => rfl),
      mirror, beforeS_net hm, vectored_net]
  · rw [settle_keys, executed_keeps State.keys (fun _ => rfl), beforeS_keys hm]
    exact vectored_keeps State.keys (fun _ => rfl) s i
  · rw [settle_xfers, executed_keeps State.xfers (fun _ => rfl), beforeS_xfers hm]
    exact vectored_keeps State.xfers (fun _ => rfl) s i
  · rw [settle_hoops, executed_hoops, beforeS_hoops quiet, vectored_of_isNop v0 v1]
  · intro n inside a out
    rw [settle_hoops, executed_hoops]
    exact beforeS_hoops_inside (State.canon_hoops canon) (vectored_of_isNop v0 v1) at_0 out
  · rw [settle_hoops, executed_hoops]
    refine beforeS_hoops_written clear (State.canon_hoops canon) few within fun written => ?_
    obtain ⟨u, mem, wr, loud, lies⟩ := written
    exact out u mem wr loud lies
end

section
/-!
SUPPORT. The canonical form of the sparse arrays (log 36): which functions of the model leave it, and which write an array
by `SMap.set`, `setBytes` or `splice`, which keep it.
-/

namespace Sys2Proof.Machine

/-! ### The eleven arrays -/

/-- An update that names none of the arrays leaves their form. -/
@[simp] theorem canon_update (s : State) {pending wz package powered resetting resetHeld lastReset rest transit restRefused
    capGen ecc ctx masks carries issue xfers panelMap panels hoopMeta arb motif scale twist edging partner net mirror clock
    keys trouble freeCount testEnable testLocal pages mmioOut maskOut outbox}
    (hp : partner.reach = s.partner.reach) (hs : scale.slots = s.scale.slots) (he : edging.entries = s.edging.entries)
    (hn : net.credit = s.net.credit) (hh : hoopMeta.ceCount = s.hoopMeta.ceCount) (ht : trouble.stage = s.trouble.stage) :
    State.canon ⟨pending, wz, package, powered, resetting, resetHeld, lastReset, rest, transit, restRefused, capGen,
      s.hoops, s.fabric, s.pstore, s.estore, s.regs, ecc, ctx, masks, carries, issue, xfers, panelMap, panels, hoopMeta, arb,
      motif, scale, twist, edging, partner, net, mirror, clock, keys, trouble, freeCount, testEnable, testLocal, pages,
      mmioOut, maskOut, outbox⟩ = s.canon := by
  simp only [State.canon, hp, hs, he, hn, hh, ht]

/-- The arrays of a state in canonical form. -/
theorem canon_arrays {s : State} (wf : s.canon = true) :
    SMap.wf 0 s.hoops = true ∧ SMap.wf 0 s.fabric = true ∧ SMap.wf 0 s.pstore = true ∧ SMap.wf 0 s.estore = true ∧
      SMap.wf 0 s.regs = true ∧ SMap.wf 0 s.partner.reach = true ∧ SMap.wf ScaleSlot.reset s.scale.slots = true ∧
      SMap.wf LedgerEntry.reset s.edging.entries = true ∧ SMap.wf 0 s.net.credit = true ∧
      SMap.wf 0 s.hoopMeta.ceCount = true ∧ SMap.wf 0 s.trouble.stage = true := by
  simp only [State.canon, Bool.and_eq_true, and_assoc] at wf
  exact wf

/-- A state whose arrays are in canonical form. -/
theorem canon_of_arrays {s : State} (hoops : SMap.wf 0 s.hoops = true) (fabric : SMap.wf 0 s.fabric = true)
    (pstore : SMap.wf 0 s.pstore = true) (estore : SMap.wf 0 s.estore = true) (regs : SMap.wf 0 s.regs = true)
    (reach : SMap.wf 0 s.partner.reach = true) (slots : SMap.wf ScaleSlot.reset s.scale.slots = true)
    (entries : SMap.wf LedgerEntry.reset s.edging.entries = true) (credit : SMap.wf 0 s.net.credit = true)
    (ceCount : SMap.wf 0 s.hoopMeta.ceCount = true) (stage : SMap.wf 0 s.trouble.stage = true) : s.canon = true := by
  simp only [State.canon, hoops, fabric, pstore, estore, regs, reach, slots, entries, credit, ceCount, stage,
    Bool.and_self]

@[simp] theorem setPage_canon (s : State) (p : Nat) (h : PageHdr) : (s.setPage p h).canon = s.canon := rfl

@[simp] theorem mark_canon (s : State) (p b : Nat) : (s.mark p b).canon = s.canon := rfl

@[simp] theorem markIf_canon (s : State) (c : Bool) (p b : Nat) : (s.markIf c p b).canon = s.canon := by
  cases c <;> rfl

@[simp] theorem setReg_canon {s : State} (p off : Nat) (v : Word) (wf : s.canon = true) :
    (s.setReg p off v).canon = true := by
  obtain ⟨h1, h2, h3, h4, h5, h6, h7, h8, h9, h10, h11⟩ := canon_arrays wf
  exact canon_of_arrays h1 h2 h3 h4 (SMap.set_wf _ _ h5) h6 h7 h8 h9 h10 h11

theorem emptyStage_canon {s : State} (wf : s.canon = true) :
    ({ s with trouble := { s.trouble with stage := [] } } : State).canon = true := by
  obtain ⟨h1, h2, h3, h4, h5, h6, h7, h8, h9, h10, -⟩ := canon_arrays wf
  exact canon_of_arrays h1 h2 h3 h4 h5 h6 h7 h8 h9 h10 rfl

@[simp] theorem settleCap_canon (s t : State) : (State.settleCap s t).canon = t.canon := by
  simp [State.settleCap, apply_ite State.canon]

theorem foldl_canon {α : Type} {f : State → α → State} (h : ∀ s a, (f s a).canon = s.canon) (l : List α) (s : State) :
    (l.foldl f s).canon = s.canon := foldl_keeps State.canon f h l s

theorem foldl_keeps_canon {α : Type} {f : State → α → State} (h : ∀ s a, s.canon = true → (f s a).canon = true)
    (l : List α) {s : State} (wf : s.canon = true) : (l.foldl f s).canon = true :=
  List.foldlRecOn l f wf fun s wf a _ => h s a wf

theorem foldl_wf {α β : Type} [DecidableEq α] {d : α} {f : SMap α → β → SMap α}
    (h : ∀ m b, SMap.wf d m = true → SMap.wf d (f m b) = true) (l : List β) {m : SMap α} (wf : SMap.wf d m = true) :
    SMap.wf d (l.foldl f m) = true :=
  List.foldlRecOn l f wf fun m wf b _ => h m b wf

theorem ite_wf {α : Type} [DecidableEq α] {d : α} {c : Prop} [Decidable c] {m n : SMap α} (hm : SMap.wf d m = true)
    (hn : SMap.wf d n = true) : SMap.wf d (if c then m else n) = true := by
  split
  · exact hm
  · exact hn

@[simp] theorem storeBusy_canon (s : State) (p : Nat) : (s.storeBusy p).canon = s.canon := by
  unfold State.storeBusy
  split <;> simp

@[simp] theorem bump_canon (s : State) (c : Ctr) (n : Nat) : (s.bump c n).canon = s.canon := by
  simp [State.bump, apply_ite State.canon]

@[simp] theorem bump_stage (s : State) (c : Ctr) (n : Nat) : (s.bump c n).trouble.stage = s.trouble.stage := by
  unfold State.bump State.markIf
  dsimp only
  repeat' split
  all_goals rfl

@[simp] theorem guardRaise_canon (s : State) : s.guardRaise.canon = s.canon := by
  unfold State.guardRaise
  split <;> simp [apply_ite State.canon]

@[simp] theorem raise_canon (s : State) (cls : Nat) (r : Raises) : (s.raise cls r).canon = s.canon := by
  simp [State.raise, apply_ite State.canon]

@[simp] theorem raiseNv_canon (s : State) (cls : Nat) : (s.raiseNv cls).canon = s.canon := by
  simp [State.raiseNv]

@[simp] theorem modCtx_canon (s : State) (st : Stream) (f : Ctx → Ctx) : (s.modCtx st f).canon = s.canon := by
  cases st <;> simp [State.modCtx]

@[simp] theorem setMask_canon (s : State) (k : Nat) (m : BitVec 4096) : (s.setMask k m).canon = s.canon := by
  simp [State.setMask, apply_ite State.canon]

@[simp] theorem writeSlab_canon {s : State} (h k : Nat) (bs : List Byte) (wf : s.canon = true) :
    (s.writeSlab h k bs).canon = true := by
  obtain ⟨h1, h2, h3, h4, h5, h6, h7, h8, h9, h10, h11⟩ := canon_arrays wf
  exact canon_of_arrays (splice_wf _ _ h1) h2 h3 h4 h5 h6 h7 h8 h9 h10 h11

@[simp] theorem soundHalf_canon (s : State) (t : EccTarget) (i : Nat) : (s.soundHalf t i).canon = s.canon := rfl

@[simp] theorem mergeSlab_canon {s : State} (h k : Nat) (bs : List Byte) (on : Nat → Bool) (wf : s.canon = true) :
    (s.mergeSlab h k bs on).canon = true := by
  obtain ⟨h1, h2, h3, h4, h5, h6, h7, h8, h9, h10, h11⟩ := canon_arrays wf
  exact canon_of_arrays (splice_wf _ _ h1) h2 h3 h4 h5 h6 h7 h8 h9 h10 h11

@[simp] theorem logDarn_canon (s : State) (kind cause unit : Nat) : (s.logDarn kind cause unit).canon = s.canon := by
  simp [State.logDarn, apply_ite State.canon]

@[simp] theorem arbNext_canon (s : State) : s.arbNext.canon = s.canon := by
  unfold State.arbNext
  dsimp only
  repeat' split
  all_goals simp

@[simp] theorem startStruct_canon (s : State) (x : Start) : (s.startStruct x).canon = s.canon := by
  unfold State.startStruct
  split <;> simp [apply_ite State.canon]

@[simp] theorem endStruct_canon (s : State) : s.endStruct.canon = s.canon := by
  simp [State.endStruct]

@[simp] theorem freeRecords_canon (s : State) : s.freeRecords.canon = s.canon := by
  unfold State.freeRecords
  split
  · split <;> simp
  · simp

@[simp] theorem retireHoop_canon (s : State) (h cause : Nat) (log : Bool) :
    (s.retireHoop h cause log).canon = s.canon := by
  simp [State.retireHoop, apply_ite State.canon]

@[simp] theorem needSpareIn_canon (s : State) (h k cause : Nat) : (s.needSpareIn h k cause).canon = s.canon := by
  unfold State.needSpareIn
  split
  · rfl
  · split <;> simp [apply_ite State.canon]

@[simp] theorem hoopErr_canon {s : State} (e : EccErr) (wf : s.canon = true) : (s.hoopErr e).canon = true := by
  have counted (n key : Nat) (ecc : List EccErr) : ({ s with
      ecc := ecc, hoopMeta := { s.hoopMeta with ceCount := s.hoopMeta.ceCount.set 0 key n } } : State).canon = true := by
    obtain ⟨h1, h2, h3, h4, h5, h6, h7, h8, h9, h10, h11⟩ := canon_arrays wf
    exact canon_of_arrays h1 h2 h3 h4 h5 h6 h7 h8 h9 (SMap.set_wf _ _ h10) h11
  simp [State.hoopErr, apply_ite State.canon, counted, wf]

theorem hoopErrList_canon {s : State} (l : List EccErr) (wf : s.canon = true) : (l.foldl State.hoopErr s).canon = true :=
  foldl_keeps_canon (fun _ e => hoopErr_canon e) l wf

@[simp] theorem loseTarget_canon (s : State) (t : Target) : (s.loseTarget t).canon = s.canon := rfl

@[simp] theorem goneOnce_canon (s : State) : s.goneOnce.canon = s.canon := by
  simp [State.goneOnce]

@[simp] theorem exchanged_canon (s : State) (p : BitVec 15) : (s.exchanged p).canon = s.canon := by
  simp [State.exchanged, apply_ite State.canon]

@[simp] theorem writeTo_canon (s : State) {t : State} (st : Stream) (f : BitVec 8) (w : Nat) (vals : List (Option Nat))
    (wf : t.canon = true) : (writeTo s t st f w vals).canon = true :=
  writeTo_closed (Q := fun t => t.canon = true) (fun _ _ h k bs on _ _ _ _ wf => mergeSlab_canon h k bs on wf) wf

@[simp] theorem setMslot_canon (s : State) (i : Nat) (x : MotifSlot) : (s.setMslot i x).canon = s.canon := rfl

@[simp] theorem decideSwap_canon (s : State) (i : Nat) : (s.decideSwap i).canon = s.canon := by
  simp [State.decideSwap, apply_ite State.canon]

@[simp] theorem requestSwap_canon (s : State) (i : Nat) : (s.requestSwap i).canon = s.canon := by
  simp [State.requestSwap, apply_ite State.canon]

@[simp] theorem leafVerdict_canon (s : State) (i : Nat) (b good : Bool) (reason : BitVec 4) :
    (s.leafVerdict i b good reason).canon = s.canon := by
  simp [State.leafVerdict, apply_ite State.canon]

@[simp] theorem doSwap_canon (s : State) (i : Nat) : (s.doSwap i).canon = s.canon := by
  simp [State.doSwap, apply_ite State.canon]

@[simp] theorem startLoad_canon (s : State) (i : Nat) : (s.startLoad i).canon = s.canon := by
  simp [State.startLoad, apply_ite State.canon]

@[simp] theorem mirrorDiscard_canon (s : State) (n : Nat) : (s.mirrorDiscard n).canon = s.canon := by
  simp [State.mirrorDiscard]

@[simp] theorem mirrorPush_canon (s : State) (rs : List MirrorRec) : (s.mirrorPush rs).canon = s.canon := by
  simp [State.mirrorPush, apply_ite State.canon]

@[simp] theorem sendDesc_canon (s : State) : s.sendDesc.canon = s.canon := by
  unfold State.sendDesc
  split <;> simp

@[simp] theorem pushDesc_canon (s : State) (d : List Word) : (s.pushDesc d).canon = s.canon := by
  simp [State.pushDesc, apply_ite State.canon]

@[simp] theorem setKey_canon (s : State) (k : Nat) (x : KeySlot) : (s.setKey k x).canon = s.canon := rfl

@[simp] theorem setInbound_canon (s : State) (p : Nat) (l : List (BitVec 22)) :
    (s.setInbound p l).canon = s.canon := rfl

@[simp] theorem useInbound_canon (s : State) (p : Nat) (a : BitVec 22) : (s.useInbound p a).canon = s.canon := rfl

@[simp] theorem promote_canon (s : State) (p : Nat) : (s.promote p).canon = s.canon := by
  simp [State.promote]

@[simp] theorem spend_canon (s : State) (p : Nat) : (s.spend p).canon = s.canon := by
  simp [State.spend, apply_ite State.canon]

@[simp] theorem discardOut_canon (s : State) (mirror : Bool) : (s.discardOut mirror).canon = s.canon := by
  simp [State.discardOut, apply_ite State.canon]

theorem sealKey_canon (s : State) (p : Nat) : (s.sealKey p).2.canon = s.canon := by
  unfold State.sealKey
  split
  · rfl
  · split <;> simp
  · simp

@[simp] theorem sendRecord_canon (s : State) (h : List Word) (body : List Byte) (st : Stream) (index : Nat) :
    (s.sendRecord h body st index).canon = s.canon := by
  have sealed := sealKey_canon s (if hdrMirror h then 1 else 0)
  unfold State.sendRecord
  dsimp only
  split
  · next t e => rw [e] at sealed; simpa using sealed
  · next t e => rw [e] at sealed; simpa using sealed

@[simp] theorem measNext_canon (s : State) : s.measNext.canon = s.canon := by
  unfold State.measNext
  split <;> simp

@[simp] theorem measRequest_canon (s : State) (t : MeasTarget) : (s.measRequest t).canon = s.canon := by
  simp [State.measRequest, apply_ite State.canon]

@[simp] theorem measCancel_canon (s : State) (t : MeasTarget) : (s.measCancel t).canon = s.canon := by
  simp [State.measCancel]

@[simp] theorem setBank_canon (s : State) (k : Nat) (x : Bank) : (s.setBank k x).canon = s.canon := rfl

@[simp] theorem setEntry_canon {s : State} (i : Nat) (x : LedgerEntry) (wf : s.canon = true) :
    (s.setEntry i x).canon = true := by
  obtain ⟨h1, h2, h3, h4, h5, h6, h7, h8, h9, h10, h11⟩ := canon_arrays wf
  exact canon_of_arrays h1 h2 h3 h4 h5 h6 h7 (SMap.set_wf _ _ h8) h9 h10 h11

@[simp] theorem dropGone_canon (s : State) (a : BitVec 37) : (s.dropGone a).canon = s.canon := rfl

@[simp] theorem freeSlot_canon (s : State) (k : Nat) : (s.freeSlot k).canon = s.canon := rfl

@[simp] theorem releaseTile_canon (s : State) : s.releaseTile.canon = s.canon := by
  unfold State.releaseTile
  split <;> simp

@[simp] theorem beginLoad_canon (s : State) (m : MSlot) : (s.beginLoad m).canon = s.canon := by
  simp [State.beginLoad, apply_ite State.canon]

@[simp] theorem modIssue_canon (s : State) (f : IssueUnit → IssueUnit) : (s.modIssue f).canon = s.canon := by
  simp [State.modIssue]

@[simp] theorem modRun_canon (s : State) (f : Run → Run) : (s.modRun f).canon = s.canon := by
  simp [State.modRun]

@[simp] theorem setPc_canon (s : State) (st : Stream) (n : Nat) : (s.setPc st n).canon = s.canon := by
  unfold State.setPc
  split <;> simp

@[simp] theorem stopAt_canon (s : State) (why : StopReason) (at_ : Nat) : (s.stopAt why at_).canon = s.canon := rfl

@[simp] theorem abortRun_canon (s : State) (why : RunStatus) : (s.abortRun why).canon = s.canon :=
  modRun_canon s _

@[simp] theorem passEnd_canon (s : State) (st : Stream) : (s.passEnd st).canon = s.canon := by
  cases st
  · simp [State.passEnd, apply_ite State.canon]
  · exact modRun_canon s _

@[simp] theorem goTo_canon (s : State) (st : Stream) (n : Nat) : (s.goTo st n).canon = s.canon := by
  simp [State.goTo]

@[simp] theorem setWait_canon (s : State) (st : Stream) (w : Option Wait) : (s.setWait st w).canon = s.canon := by
  unfold State.setWait
  split <;> simp

@[simp] theorem endWait_canon (s : State) (st : Stream) (v : BitVec 64) : (s.endWait st v).canon = s.canon := by
  unfold State.endWait
  split <;> simp

@[simp] theorem abandonWait_canon (s : State) (st : Stream) : (s.abandonWait st).canon = s.canon := by
  unfold State.abandonWait
  split <;> simp

@[simp] theorem takeDir_canon (s : State) (sd : BitVec 5) (w : Word) : (s.takeDir sd w).canon = s.canon := by
  simp [State.takeDir]

@[simp] theorem dropPicot_canon (s : State) (st : Stream) (sd : BitVec 5) : (s.dropPicot st sd).canon = s.canon := by
  simp [State.dropPicot]

@[simp] theorem waitEffect_canon (e : Env) (t : State) (a : BitVec 64) : (waitEffect e t a).canon = t.canon := by
  unfold waitEffect
  dsimp only
  split <;> simp [apply_ite State.canon]

@[simp] theorem setSlot_canon {s : State} (i : Nat) (x : ScaleSlot) (wf : s.canon = true) :
    (s.setSlot i x).canon = true := by
  obtain ⟨h1, h2, h3, h4, h5, h6, h7, h8, h9, h10, h11⟩ := canon_arrays wf
  exact canon_of_arrays h1 h2 h3 h4 h5 h6 (SMap.set_wf _ _ h7) h8 h9 h10 h11

@[simp] theorem dupCheck_canon (s : State) (i : Nat) : (s.dupCheck i).canon = s.canon := by
  unfold State.dupCheck
  dsimp only
  split <;> simp

@[simp] theorem mapSlots_canon {s : State} (f : ScaleSlot → ScaleSlot) (wf : s.canon = true) :
    (s.mapSlots f).canon = true :=
  foldl_keeps_canon (fun _ _ => setSlot_canon _ _) _ wf

@[simp] theorem spareSlot_canon {s : State} (i : Nat) (wf : s.canon = true) :
    (s.spareSlot i).canon = true := by
  simp [State.spareSlot, wf]

@[simp] theorem pinSlot_canon {s : State} (i : Nat) (wf : s.canon = true) :
    (s.pinSlot i).canon = true := by
  simp [State.pinSlot, wf]

@[simp] theorem slotErr_canon {s : State} (e : EccErr) (wf : s.canon = true) : (s.slotErr e).canon = true := by
  simp [State.slotErr, apply_ite State.canon, wf]

theorem slotErrList_canon {s : State} (l : List EccErr) (wf : s.canon = true) : (l.foldl State.slotErr s).canon = true :=
  foldl_keeps_canon (fun _ e => slotErr_canon e) l wf

@[simp] theorem slotErrs_canon {s : State} (wf : s.canon = true) : s.slotErrs.canon = true := slotErrList_canon _ wf

@[simp] theorem loadScale_canon {s : State} (ws : List Word) (wf : s.canon = true) : (s.loadScale ws).canon = true := by
  unfold State.loadScale
  split
  · split
    · simpa using wf
    · dsimp only
      rw [foldl_canon dupCheck_canon]
      refine foldl_keeps_canon (fun t p wf => ?_) _ wf
      split <;> simp [wf]
  · simpa using wf

@[simp] theorem slotStore_canon {s : State} (i : Nat) (r : SlotReg) (v : Word) (wf : s.canon = true) :
    (s.slotStore i r v).canon = true := by
  have errs := slotErrList_canon (s.ecc.filter fun e => e.target == .scale && e.word / 2 == i) wf
  unfold State.slotStore
  cases r <;> simp [apply_ite State.canon, errs]

@[simp] theorem flip_canon (s : State) (t : EccTarget) (w : Nat) (m : BitVec 72) :
    (s.flip t w m).canon = s.canon := rfl

@[simp] theorem doHeld_canon {s : State} (x : HeldWrite) (wf : s.canon = true) : (s.doHeld x).canon = true := by
  unfold State.doHeld
  split
  · simpa using wf
  · next h k i v =>
    have written : ({ s with hoops := setBytes s.hoops (slabKey h (s.physSlab h k) + 4 * i) (leBytes 4 v.toNat) } :
        State).canon = true := by
      obtain ⟨h1, h2, h3, h4, h5, h6, h7, h8, h9, h10, h11⟩ := canon_arrays wf
      exact canon_of_arrays (setBytes_wf _ _ h1) h2 h3 h4 h5 h6 h7 h8 h9 h10 h11
    simpa using written
  · simp [wf]
  · simpa using wf

@[simp] theorem holdOr_canon {s : State} (x : HeldWrite) (wf : s.canon = true) : (s.holdOr x).canon = true := by
  unfold State.holdOr
  split <;> simp [wf]

@[simp] theorem inject_canon {s : State} (t : EccTarget) (w : Nat) (m : BitVec 72) (wf : s.canon = true) : (s.inject t w m).canon = true := by
  unfold State.inject
  split <;> simp [wf]

@[simp] theorem releaseHeld_canon {s : State} (wf : s.canon = true) : s.releaseHeld.canon = true :=
  foldl_keeps_canon (fun _ x => doHeld_canon x) _ (by simpa using wf)

@[simp] theorem dropEcc_canon (s : State) (es : List EccErr) : (s.dropEcc es).canon = s.canon := rfl

@[simp] theorem halted_canon (s : State) (st : Stream) (why : StopReason) (page bit : Nat) (run : RunStatus) :
    (s.halted st why page bit run).canon = s.canon := by
  unfold State.halted
  split <;> simp

@[simp] theorem loseLeaf_canon (s : State) (i : Nat) (b : Bool) : (s.loseLeaf i b).canon = s.canon := by
  simp [State.loseLeaf]

@[simp] theorem leafLost_canon (s : State) (i : Nat) (b : Bool) : (s.leafLost i b).canon = s.canon := by
  simp [State.leafLost]

@[simp] theorem leafFails_canon (s : State) (i : Nat) (b : Bool) : (s.leafFails i b).canon = s.canon := by
  simp [State.leafFails, apply_ite State.canon]

@[simp] theorem recordLane_canon (e : Env) (t : State) (errs : List LaneErr) : (e.recordLane t errs).canon = t.canon := by
  unfold Env.recordLane
  cases errs.getLast? <;> simp

@[simp] theorem setPanel_canon (s : State) (p : Nat) (x : PanelState) : (s.setPanel p x).canon = s.canon := rfl

@[simp] theorem mapSpare_canon (s : State) (p sp : Nat) : (s.mapSpare p sp).canon = s.canon := by
  simp [State.mapSpare]

@[simp] theorem proofEnds_canon (s : State) (result failed arg : Nat) :
    (s.proofEnds result failed arg).canon = s.canon := by
  simp [State.proofEnds]

@[simp] theorem moveSlab_canon {s : State} (h k : Nat) (wf : s.canon = true) : (s.moveSlab h k).canon = true := by
  have moved (lo : Nat) (bs : List Byte) (ecc : List EccErr) (spare : Vector SpareSlab 6) (key : Nat) : ({ s with
      hoops := splice s.hoops lo bs, ecc := ecc
      hoopMeta := { s.hoopMeta with spare := spare, ceCount := s.hoopMeta.ceCount.set 0 key 0 } } : State).canon = true := by
    obtain ⟨h1, h2, h3, h4, h5, h6, h7, h8, h9, h10, h11⟩ := canon_arrays wf
    exact canon_of_arrays (splice_wf _ _ h1) h2 h3 h4 h5 h6 h7 h8 h9 (SMap.set_wf _ _ h10) h11
  simp [State.moveSlab, moved]

@[simp] theorem moveLeaf_canon (s : State) (i : Nat) (b : Bool) : (s.moveLeaf i b).canon = s.canon := by
  simp [State.moveLeaf, apply_ite State.canon]

@[simp] theorem noteSkip_canon (s : State) (i : Nat) : (s.noteSkip i).canon = s.canon := rfl

@[simp] theorem dropTaken_canon (s : State) (x : Option Taken) : (s.dropTaken x).canon = s.canon := by
  unfold State.dropTaken
  split <;> simp

@[simp] theorem spareBad_canon (s : State) (h cause : Nat) : (s.spareBad h cause).canon = s.canon := by
  simp [State.spareBad]

@[simp] theorem scrubErr_canon (h phys : Nat) {s : State} (e : EccErr) (wf : s.canon = true) :
    (State.scrubErr h phys s e).canon = true := by
  simp [State.scrubErr, apply_ite State.canon, wf]

@[simp] theorem scrubSlab_canon {s : State} (h : Nat) (wf : s.canon = true) : (s.scrubSlab h).canon = true := by
  have scrubbed (h phys : Nat) (l : List EccErr) : (l.foldl (State.scrubErr h phys) s).canon = true :=
    foldl_keeps_canon (fun _ e => scrubErr_canon h phys e) l wf
  unfold State.scrubSlab
  split
  · exact wf
  · simp [apply_ite State.canon, scrubbed, wf]

@[simp] theorem proofingDone_canon (s : State) (bad16 bad17 : Bool) (badSlabs : BitVec 6) :
    (s.proofingDone bad16 bad17 badSlabs).canon = s.canon := by
  unfold State.proofingDone
  split
  · dsimp only
    rw [endStruct_canon, proofEnds_canon, foldl_canon (fun t h => spareBad_canon t h 3),
      foldl_canon fun t p => by simp]
  · rfl

@[simp] theorem startStaged_canon {s : State} (src : ActSrc) (wf : s.canon = true) :
    (s.startStaged src).canon = true := by
  unfold State.startStaged
  split
  · exact emptyStage_canon wf
  · simpa using wf

@[simp] theorem writeFabric_canon {s : State} (a : Nat) (bs : List Byte) (lost : List LostTarget) (got : Option Nat)
    (wf : s.canon = true) : (s.writeFabric a bs lost got).1.canon = true := by
  obtain ⟨h1, h2, h3, h4, h5, h6, h7, h8, h9, h10, h11⟩ := canon_arrays wf
  exact canon_of_arrays h1 (foldl_wf (fun m p wf => ite_wf (SMap.set_wf _ _ wf) wf) _ h2) h3 h4 h5 h6 h7 h8 h9 h10 h11

@[simp] theorem noteFabric_canon (s : State) (range gone : Bool) : (s.noteFabric range gone).canon = s.canon := by
  simp [State.noteFabric, apply_ite State.canon]

@[simp] theorem finishLoad_canon {s : State} (els : List LoadEl) (zeros : List Nat) (range : Bool) (both : List Nat)
    (lost : List LostTarget) (got : Option Nat) (wf : s.canon = true) :
    (s.finishLoad els zeros range both lost got).canon = true := by
  obtain ⟨h1, h2, h3, h4, h5, h6, h7, h8, h9, h10, h11⟩ := canon_arrays wf
  unfold State.finishLoad
  dsimp only
  rw [noteFabric_canon]
  exact canon_of_arrays (foldl_wf (fun m p wf => setBytes_wf _ _ wf) _ h1) h2 h3 h4 h5 h6 h7 h8 h9 h10 h11

@[simp] theorem finishStore_canon {s : State} (els : List StoreEl) (range : Bool)
    (lost : List LostTarget) (got : Option Nat) (wf : s.canon = true) :
    (s.finishStore els range lost got).canon = true := by
  obtain ⟨h1, h2, h3, h4, h5, h6, h7, h8, h9, h10, h11⟩ := canon_arrays wf
  unfold State.finishStore
  dsimp only
  rw [noteFabric_canon]
  exact canon_of_arrays h1 (foldl_wf (fun m p wf => ite_wf (setBytes_wf _ _ wf) wf) _ h2) h3 h4 h5 h6 h7 h8 h9 h10 h11

@[simp] theorem mergeRecord_canon {s : State} (first : Nat) (ws : List Word) (wf : s.canon = true) :
    (s.mergeRecord first ws).canon = true := by
  have entries : ∀ (l : List (Nat × LedgerEntry)), (l.foldl (fun (t : State) p => t.setEntry (first + p.1) p.2) s).canon =
      true := fun l => foldl_keeps_canon (fun t p wf => setEntry_canon _ _ wf) l wf
  have longs : ∀ (l : List (Nat × LedgerEntry)), (l.foldl (fun (t : State) p =>
      if p.2.nonempty then t.setEntry (first + p.1) { t.entry (first + p.1) with long := true } else t) s).canon =
      true := fun l => foldl_keeps_canon (fun t p wf => by simp [apply_ite State.canon, wf]) l wf
  have merged : ∀ (l : List (Nat × LedgerEntry)), (l.foldl (fun (t : State) p =>
      (t.setEntry (first + p.1) (mergeEntry (t.entry (first + p.1)) p.2).1).markIf
        (mergeEntry (t.entry (first + p.1)) p.2).2 7 4) s).canon = true := fun l =>
    foldl_keeps_canon (fun t p wf => by simp [wf]) l wf
  simp [State.mergeRecord, apply_ite State.canon, entries, longs, merged, wf]

@[simp] theorem perform_canon {s : State} (op : XferOp) (lost : List LostTarget) (got : Option Nat) (wf : s.canon = true) :
    (s.perform op lost got).canon = true := by
  cases op <;> simp [State.perform, wf]

@[simp] theorem popXfer_canon (s : State) : s.popXfer.canon = s.canon := by
  simp [State.popXfer]

@[simp] theorem takeImage_canon (s : State) (i : Nat) (b : Bool) (ws : List Word) :
    (s.takeImage i b ws).canon = s.canon := by
  simp [State.takeImage, apply_ite State.canon]

@[simp] theorem transferDone_canon {s : State} (got : Option Nat) (wf : s.canon = true) :
    (s.transferDone got).canon = true := by
  unfold State.transferDone
  split
  · exact wf
  · simp only [apply_ite State.canon, wf]
    split <;> simp [wf]

@[simp] theorem tbldDone_canon (s : State) : s.tbldDone.canon = s.canon := by
  unfold State.tbldDone
  split <;> simp [apply_ite State.canon]

@[simp] theorem verdict_canon (s : State) (t : MeasTarget) (good : Bool) (reason : BitVec 4) :
    (s.verdict t good reason).canon = s.canon := by
  unfold State.verdict
  dsimp only
  repeat' split
  all_goals simp

@[simp] theorem verdictTimeout_canon (s : State) (t : MeasTarget) : (s.verdictTimeout t).canon = s.canon := by
  simp [State.verdictTimeout, apply_ite State.canon]

@[simp] theorem streamEnd_canon (s : State) : s.streamEnd.canon = s.canon := by
  unfold State.streamEnd
  split <;> simp

@[simp] theorem swapNow_canon (s : State) (i : Nat) : (s.swapNow i).canon = s.canon := by
  simp [State.swapNow, apply_ite State.canon]

@[simp] theorem setBindRep_canon (s : State) (b : Nat) (x : BindRep) : (s.setBindRep b x).canon = s.canon := rfl

@[simp] theorem writeBCtl_canon {s : State} (b : Nat) (v : Word) (wf : s.canon = true) :
    (s.writeBCtl b v).canon = true := by
  unfold State.writeBCtl
  extract_lets w off why t
  have written (v : Word) : (s.setReg 7 off v).canon = true := setReg_canon 7 off v wf
  split
  · exact written w
  · split
    · simpa using wf
    · split
      · exact (canon_update (s.setReg 7 off _) rfl rfl rfl rfl rfl rfl).trans (written _)
      · exact (setBindRep_canon ..).trans (written w)

@[simp] theorem addTrigger_canon (s : State) (t : Trigger) : (s.addTrigger t).canon = s.canon := rfl

@[simp] theorem tileCompletion_canon (s : State) (tag : Word) (stream : BitVec 16) (data : List (Nat × Word)) :
    (s.tileCompletion tag stream data).canon = s.canon := by
  unfold State.tileCompletion
  repeat' split
  all_goals simp

@[simp] theorem writeDrop_canon {s : State} (b bank : Nat) (wf : s.canon = true) :
    (s.writeDrop b bank).canon = true := by
  simp [State.writeDrop, wf]

@[simp] theorem mapBank_canon {s : State} (k : Nat) (f : LedgerEntry → LedgerEntry) (wf : s.canon = true) :
    (s.mapBank k f).canon = true :=
  foldl_keeps_canon (fun _ _ => setEntry_canon _ _) _ wf

@[simp] theorem foldRows_canon {s : State} (b k : Nat) (slabs : List (Nat × Nat)) (wf : s.canon = true) :
    (s.foldRows b k slabs).canon = true :=
  foldl_keeps_canon (fun t r wf => by dsimp only; split <;> simp [wf]) _ wf

@[simp] theorem emitRecord_canon (s : State) (b k : Nat) : (s.emitRecord b k).canon = s.canon := rfl

@[simp] theorem clearOcc_canon (s : State) (k : Nat) : (s.clearOcc k).canon = s.canon := rfl

@[simp] theorem bandDone_canon {s : State} (b k : Nat) (tag : Word) (src : BitVec 64) (wf : s.canon = true) :
    (s.bandDone b k tag src).canon = true := by
  simp [State.bandDone, apply_ite State.canon, wf]

@[simp] theorem recordRun_canon (s : State) (r : Run) (st : RunStatus) : (s.recordRun r st).canon = s.canon := by
  unfold State.recordRun
  split <;> simp

@[simp] theorem nextCompletion_canon (s : State) : s.nextCompletion.canon = s.canon := by
  unfold State.nextCompletion
  repeat' split
  all_goals simp

@[simp] theorem ledgerRelease_canon {s : State} (k : Nat) (wf : s.canon = true) : (s.ledgerRelease k).canon = true := by
  unfold State.ledgerRelease
  extract_lets x
  split
  · rw [setBank_canon, mapBank_canon k _ wf]
  · exact wf

@[simp] theorem maskRequest_canon {s : State} (m : BitVec 2) (row col : Word) (wf : s.canon = true) :
    (s.maskRequest m row col).canon = true := by
  unfold State.maskRequest
  split
  · exact (canon_update (_ : State) rfl rfl rfl rfl rfl rfl).trans (hoopErrList_canon (s.rowErrs m row) wf)
  · exact wf

@[simp] theorem modMirror_canon (s : State) (f : MirrorUnit → MirrorUnit) : (s.modMirror f).canon = s.canon := rfl

@[simp] theorem setHalf_canon (s : State) (p : Nat) (h : LogHalf) : (s.setHalf p h).canon = s.canon := rfl

@[simp] theorem handMirror_canon (s : State) (r : MirrorRec) : (s.handMirror r).canon = s.canon := by
  simp [State.handMirror, apply_ite State.canon]

@[simp] theorem nextRegion_canon (s : State) (op : MirrorOp) (d : RegionTodo) (rest : List RegionTodo) :
    (s.nextRegion op d rest).canon = s.canon := by
  unfold State.nextRegion
  dsimp only
  split
  · split <;> simp only [mirrorPush_canon, modMirror_canon, noteFabric_canon]
  · simp only [mirrorPush_canon, modMirror_canon, noteFabric_canon]

@[simp] theorem mirrorFill_canon (s : State) : s.mirrorFill.canon = s.canon := by
  unfold State.mirrorFill
  repeat' split
  all_goals simp

@[simp] theorem mirrorSend_canon (s : State) : s.mirrorSend.canon = s.canon := by
  unfold State.mirrorSend
  split
  · rfl
  · dsimp only
    split <;> simp

@[simp] theorem descTimer_canon (s : State) : s.descTimer.canon = s.canon := by
  simp [State.descTimer, apply_ite State.canon]

@[simp] theorem opEnd_canon (s : State) (op : MirrorOp) (status : Nat) : (s.opEnd op status).canon = s.canon := rfl

@[simp] theorem opRefuse_canon (s : State) (op : MirrorOp) (status : Nat) :
    (s.opRefuse op status).canon = s.canon := rfl

@[simp] theorem opStart_canon (s : State) (op : MirrorOp) (todo : List RegionTodo) :
    (s.opStart op todo).canon = s.canon := rfl

@[simp] theorem restartMseq_canon (s : State) : s.restartMseq.canon = s.canon := by
  simp [State.restartMseq]

@[simp] theorem startFlush_canon (s : State) : s.startFlush.canon = s.canon := by
  simp [State.startFlush, apply_ite State.canon]

@[simp] theorem startBase_canon (s : State) : s.startBase.canon = s.canon := by
  simp [State.startBase, apply_ite State.canon]

@[simp] theorem startRestore_canon (s : State) : s.startRestore.canon = s.canon := by
  simp [State.startRestore, apply_ite State.canon]

@[simp] theorem startFold_canon (s : State) (p : Nat) : (s.startFold p).canon = s.canon := rfl

@[simp] theorem mirrorCtl_canon {s : State} {f : State → State} (wf : s.canon = true) (h : (f s).canon = true) :
    (s.mirrorCtl f).canon = true := by
  simp [State.mirrorCtl, apply_ite State.canon, wf, h]

@[simp] theorem foldRequest_canon (s : State) : s.foldRequest.canon = s.canon := by
  unfold State.foldRequest
  split <;> simp

@[simp] theorem opDone_canon (s : State) (op : MirrorOp) (mkind : Nat) : (s.opDone op mkind).canon = s.canon := by
  simp [State.opDone, apply_ite State.canon]

@[simp] theorem mirrorAcked_canon (s : State) (m : Word) : (s.mirrorAcked m).canon = s.canon := by
  simp [State.mirrorAcked, apply_ite State.canon]

@[simp] theorem ackTimeout_canon (s : State) (m : Word) : (s.ackTimeout m).canon = s.canon := by
  simp [State.ackTimeout, apply_ite State.canon]

@[simp] theorem ack_canon (s : State) (m : Word) : (s.ack m).canon = s.canon := rfl

@[simp] theorem noteMseq_canon (s : State) (m : Word) : (s.noteMseq m).canon = s.canon := rfl

theorem seeMseq_canon (s : State) (m : Word) : (s.seeMseq m).2.canon = s.canon := modMirror_canon s _

@[simp] theorem logRecord_canon (s : State) (h : List Word) (body : List Byte) : (s.logRecord h body).canon = s.canon := by
  simp only [State.logRecord, State.seeMseq, apply_ite State.canon, modMirror_canon, setHalf_canon, ite_self]

@[simp] theorem damageHalf_canon (s : State) (p : Nat) : (s.damageHalf p).canon = s.canon := by
  simp only [State.damageHalf, apply_ite State.canon, mark_canon, modMirror_canon, setHalf_canon, ite_self]

@[simp] theorem logWriteDone_canon {s : State} (wf : s.canon = true) : s.logWriteDone.canon = true := by
  unfold State.logWriteDone
  split
  · simp [apply_ite State.canon, wf]
  · exact wf

@[simp] theorem writeRegion_canon {s : State} (r : Region) (pos : Nat) (body : List Byte) (wf : s.canon = true) :
    (s.writeRegion r pos body).canon = true := by
  simp [State.writeRegion, wf]

@[simp] theorem baseRecord_canon {s : State} (h : List Word) (body : List Byte) (last : Bool) (wf : s.canon = true) :
    (s.baseRecord h body last).canon = true := by
  unfold State.baseRecord
  extract_lets m t fresh u r v
  have started : u.canon = true := by
    simp only [u, t, apply_ite State.canon, modMirror_canon, seeMseq_canon, ite_self, wf]
  clear_value u
  cases last <;> simp [v, apply_ite State.canon, started]

@[simp] theorem restoreRecord_canon {s : State} (h : List Word) (body : List Byte) (last : Bool) (wf : s.canon = true) :
    (s.restoreRecord h body last).canon = true := by
  unfold State.restoreRecord
  split
  · exact wf
  · extract_lets m t u r v
    have started : u.canon = true := by
      simp only [u, t, apply_ite State.canon, modMirror_canon, seeMseq_canon, ite_self, wf]
    clear_value u
    cases last <;> simp [v, apply_ite State.canon, started]

@[simp] theorem takeMirror_canon {s : State} (h : List Word) (body : List Byte) (wf : s.canon = true) :
    (s.takeMirror h body).canon = true := by
  unfold State.takeMirror
  split <;> simp [wf]

@[simp] theorem foldOne_canon (base : Nat) {s : State} (k : Nat) (wf : s.canon = true) :
    (State.foldOne base s k).canon = true := by
  unfold State.foldOne
  dsimp only
  split <;> simp [wf]

@[simp] theorem mirrorFoldDone_canon {s : State} (wf : s.canon = true) : s.mirrorFoldDone.canon = true := by
  have folded (base : Nat) (l : List Nat) : (l.foldl (State.foldOne base) s).canon = true :=
    foldl_keeps_canon (fun _ k => foldOne_canon base k) l wf
  unfold State.mirrorFoldDone
  split
  · simp [apply_ite State.canon, folded, wf]
  · exact wf

@[simp] theorem commitHalf_canon (s : State) (step : BitVec 48) : (s.commitHalf step).canon = s.canon := by
  unfold State.commitHalf
  dsimp only
  repeat' split
  all_goals simp

@[simp] theorem abortHalf_canon (s : State) (step : BitVec 48) : (s.abortHalf step).canon = s.canon := by
  simp [State.abortHalf, apply_ite State.canon]

@[simp] theorem mirrorOpen_canon (s : State) : s.mirrorOpen.canon = s.canon := by
  simp [State.mirrorOpen, apply_ite State.canon]

@[simp] theorem writeRCtl_canon {s : State} (img : Bool) (i : Nat) (v : Word) (wf : s.canon = true) :
    (s.writeRCtl img i v).canon = true := by
  simp [State.writeRCtl, apply_ite State.canon, wf]

@[simp] theorem modNet_canon (s : State) {f : NetUnit → NetUnit} (h : (f s.net).credit = s.net.credit) :
    (s.modNet f).canon = s.canon := by
  simp [State.modNet, h]

@[simp] theorem planStep_canon (s : State) (n : Nat) : (s.planStep n).canon = s.canon := by
  unfold State.planStep
  split <;> simp [apply_ite State.canon]

@[simp] theorem arrivalEvent_canon (s : State) (a : BitVec 37) (tag : Word) :
    (s.arrivalEvent a tag).canon = s.canon := by
  unfold State.arrivalEvent
  split <;> simp [apply_ite State.canon]

@[simp] theorem setArrival_canon (s : State) (k : Nat) (x : Option Arrival) :
    (s.setArrival k x).canon = s.canon := rfl

@[simp] theorem addGone_canon (s : State) (a : BitVec 37) (n : Nat) : (s.addGone a n).canon = s.canon := by
  simp [State.addGone]

@[simp] theorem markMissed_canon (s : State) : s.markMissed.canon = s.canon :=
  foldl_canon (fun t p => by simp only [apply_ite State.canon, mark_canon, setArrival_canon, ite_self]) _ _

theorem releaseNext_canon {s t : State} (h : s.releaseNext = some t) : t.canon = s.canon := by
  unfold State.releaseNext at h
  dsimp only at h
  split at h
  · split at h
    · cases h
    · cases h
      simp only [apply_ite State.canon, planStep_canon, arrivalEvent_canon, setArrival_canon, ite_self]
  · split at h
    · cases h
    · split at h <;> cases h <;> simp

@[simp] theorem releaseLoop_canon (n : Nat) (s : State) : (State.releaseLoop n s).canon = s.canon := by
  induction n generalizing s with
  | zero => rfl
  | succ n ih =>
    unfold State.releaseLoop
    split
    · next t h => exact (ih t).trans (releaseNext_canon h)
    · rfl

@[simp] theorem runPlan_canon (s : State) : s.runPlan.canon = s.canon := by
  simp [State.runPlan]

@[simp] theorem resetPlan_canon (s : State) : s.resetPlan.canon = s.canon := by
  unfold State.resetPlan
  split <;> simp

@[simp] theorem freeArrivals_canon (s : State) : s.freeArrivals.canon = s.canon := by
  unfold State.freeArrivals
  dsimp only
  split
  · split
    · exact (canon_update (s.freeRecords.modNet _) rfl rfl rfl rfl rfl rfl).trans
        ((modNet_canon _ rfl).trans (freeRecords_canon s))
    · simp
  · simp

@[simp] theorem staleDrop_canon (s : State) : s.staleDrop.canon = s.canon := by
  simp [State.staleDrop]

@[simp] theorem placeArrival_canon {s : State} (k : Nat) (h : List Word) (body : List Byte) (early : Bool)
    (wf : s.canon = true) : (s.placeArrival k h body early).canon = true := by
  simp [State.placeArrival, wf]

theorem takeExchange_canon {s t : State} (h : List Word) (body : List Byte) (wf : s.canon = true) (k : t.canon = true) :
    (s.takeExchange t h body).canon = true := by
  unfold State.takeExchange
  split
  · simp [k]
  · split <;> simp [k, wf]

theorem takeMirrorRec_canon {s t : State} (h : List Word) (body : List Byte) (wf : s.canon = true) (k : t.canon = true) :
    (s.takeMirrorRec t h body).canon = true := by
  unfold State.takeMirrorRec
  dsimp only
  repeat' split
  all_goals simp [wf, k]

theorem verify_canon (s : State) (r : WireRec) : (s.verify r).2.canon = s.canon := by
  unfold State.verify
  generalize (if hdrMirror r.hdr then 1 else 0 : Nat) = p
  dsimp only
  split
  · simp
  · split <;> simp

@[simp] theorem recordVerified_canon {s : State} (r : WireRec) (wf : s.canon = true) :
    (s.recordVerified r).canon = true := by
  have k := (verify_canon s r).trans wf
  unfold State.recordVerified
  split
  · exact wf
  · split
    · next t e => rw [e] at k; exact k
    · next body t e =>
      rw [e] at k
      split
      · simpa using k
      · split
        · exact takeMirrorRec_canon _ _ wf k
        · exact takeExchange_canon _ _ wf k

@[simp] theorem wakeMirror_canon {s : State} (wf : s.canon = true) : s.wakeMirror.canon = true :=
  foldl_keeps_canon (fun t r wf => by split <;> simp [apply_ite State.canon, wf]) _ (by simpa using wf)

@[simp] theorem wakeHeld_canon {s : State} (wf : s.canon = true) : s.wakeHeld.canon = true :=
  wakeMirror_canon (foldl_keeps_canon (fun t p wf => by
    dsimp only
    repeat' split
    all_goals simp [wf]) _ wf)

@[simp] theorem foldDone_canon {s : State} (wf : s.canon = true) : s.foldDone.canon = true := by
  simp [State.foldDone, wf]

@[simp] theorem logDone_canon {s : State} (wf : s.canon = true) : s.logDone.canon = true := by
  unfold State.logDone
  dsimp only
  split <;> simp [wf]

@[simp] theorem recordLeaves_canon (s : State) : s.recordLeaves.canon = s.canon := by
  unfold State.recordLeaves
  split <;> simp

@[simp] theorem dropUnacked_canon (s : State) (o : OutRec) : (s.dropUnacked o).canon = s.canon := by
  simp [State.dropUnacked, apply_ite State.canon]

@[simp] theorem addCredit_canon {s : State} (p : BitVec 15) (n : Nat) (wf : s.canon = true) :
    (s.addCredit p n).canon = true := by
  unfold State.addCredit
  split
  · obtain ⟨h1, h2, h3, h4, h5, h6, h7, h8, h9, h10, h11⟩ := canon_arrays wf
    exact canon_of_arrays h1 h2 h3 h4 h5 h6 h7 h8 (SMap.set_wf _ _ h9) h10 h11
  · exact wf

@[simp] theorem planClosed_canon {s : State} {f : State → State} (wf : s.canon = true) (h : (f s).canon = true) :
    (s.planClosed f).canon = true := by
  unfold State.planClosed
  split <;> simp [wf, h]

@[simp] theorem writeRx_canon (s : State) (v : Word) : (s.writeRx v).canon = s.canon := rfl

@[simp] theorem writePlanSrc_canon {s : State} (i : Nat) (v : Word) (wf : s.canon = true) :
    (s.writePlanSrc i v).canon = true := by
  simp [State.writePlanSrc, apply_ite State.canon, wf]

@[simp] theorem modPartner_canon (s : State) {f : PartnerUnit → PartnerUnit} (h : (f s.partner).reach = s.partner.reach) :
    (s.modPartner f).canon = s.canon := by
  simp [State.modPartner, h]

@[simp] theorem clearAccPort_canon (s : State) : s.clearAccPort.canon = s.canon := rfl

@[simp] theorem startRoll_canon (s : State) : s.startRoll.canon = s.canon := by
  simp [State.startRoll, apply_ite State.canon]

@[simp] theorem unbindMe_canon (s : State) (lost : Byte → Bool) : (s.unbindMe lost).canon = s.canon := rfl

@[simp] theorem endTileWaits_canon (s : State) : s.endTileWaits.canon = s.canon := by
  unfold State.endTileWaits
  split
  · rfl
  · refine foldl_canon (fun t st => ?_) _ _
    split <;> simp [apply_ite State.canon]

@[simp] theorem coreAbsent_canon (s : State) : s.coreAbsent.canon = s.canon := by
  unfold State.coreAbsent
  extract_lets t u
  have ended : u.canon = s.canon := by
    simp only [u]
    split <;> simp [t, apply_ite State.canon]
  exact (modIssue_canon _ _).trans ((foldl_canon (fun t p => dropPicot_canon t _ _) _ u).trans ended)

@[simp] theorem meAbsent_canon (s : State) : s.meAbsent.canon = s.canon := by
  simp [State.meAbsent]

@[simp] theorem markAbsent_canon (s : State) (p : Partner) : (s.markAbsent p).canon = s.canon := by
  unfold State.markAbsent
  split <;> simp [apply_ite State.canon]

@[simp] theorem partnerEvent_canon (s : State) (p : Partner) : (s.partnerEvent p).canon = s.canon := by
  simp [State.partnerEvent, apply_ite State.canon]

@[simp] theorem discardTo_canon (s : State) (p : BitVec 15) : (s.discardTo p).canon = s.canon :=
  (foldl_canon (fun t o => by simp) _ _).trans (modNet_canon s rfl)

@[simp] theorem buddyAbsent_canon (s : State) : s.buddyAbsent.canon = s.canon :=
  (foldl_canon (fun t _ => mirrorDiscard_canon t 1) _ _).trans (by simp)

@[simp] theorem reachNotice_canon {s : State} (p : BitVec 15) (on : Bool) (wf : s.canon = true) :
    (s.reachNotice p on).canon = true := by
  have noted (k : Nat) (v : Word) : (s.modPartner fun q => { q with reach := q.reach.set 0 k v }).canon = true := by
    obtain ⟨h1, h2, h3, h4, h5, h6, h7, h8, h9, h10, h11⟩ := canon_arrays wf
    exact canon_of_arrays h1 h2 h3 h4 h5 (SMap.set_wf _ _ h6) h7 h8 h9 h10 h11
  unfold State.reachNotice
  extract_lets w bit was t buddy u
  have changed : t.canon = true := noted _ _
  have left : u.canon = true := (discardTo_canon _ p).trans ((modPartner_canon t rfl).trans changed)
  clear_value t u
  repeat' split
  all_goals simp [changed, left, wf]

@[simp] theorem probeTimeout_canon (s : State) (p : Probe) : (s.probeTimeout p).canon = s.canon := by
  simp [State.probeTimeout, apply_ite State.canon]

@[simp] theorem checkBuddy_canon (s : State) : s.checkBuddy.canon = s.canon := by
  unfold State.checkBuddy
  split <;> simp [apply_ite State.canon]

@[simp] theorem publish_canon (s : State) : s.publish.canon = s.canon := by
  unfold State.publish
  split
  · rfl
  · dsimp only
    rw [runPlan_canon, mark_canon]
    refine (checkBuddy_canon _).trans ?_
    simp only [apply_ite State.canon, coreAbsent_canon, meAbsent_canon, clearAccPort_canon,
      foldl_canon loseTarget_canon, modPartner_canon, ite_self]

@[simp] theorem couple_canon (s : State) (c : Coupling) : (s.couple c).canon = s.canon := by
  simp [State.couple]

@[simp] theorem changeCoupling_canon (s : State) (f : Coupling → Coupling) :
    (s.changeCoupling f).canon = s.canon := by
  simp [State.changeCoupling, apply_ite State.canon]

@[simp] theorem couplingChange_canon (s : State) : s.couplingChange.canon = s.canon := by
  unfold State.couplingChange
  split <;> simp [apply_ite State.canon]

@[simp] theorem writeAccPort_canon (s : State) (v : Bool) : (s.writeAccPort v).canon = s.canon := by
  simp [State.writeAccPort, apply_ite State.canon]

@[simp] theorem writeMeSrc_canon (s : State) (v : Word) (present serving : Bool) :
    (s.writeMeSrc v present serving).canon = s.canon := by
  simp [State.writeMeSrc, apply_ite State.canon]

@[simp] theorem writeBuddy_canon (s : State) (v : Word) : (s.writeBuddy v).canon = s.canon := rfl

@[simp] theorem rollRequest_canon (s : State) : s.rollRequest.canon = s.canon := by
  simp [State.rollRequest, apply_ite State.canon]

@[simp] theorem modTrouble_canon (s : State) {f : TroubleUnit → TroubleUnit} (h : (f s.trouble).stage = s.trouble.stage) :
    (s.modTrouble f).canon = s.canon := by
  simp [State.modTrouble, h]

@[simp] theorem startSnap_canon (s : State) : s.startSnap.canon = s.canon := by
  simp [State.startSnap, apply_ite State.canon]

@[simp] theorem snapshotDone_canon (s : State) : s.snapshotDone.canon = s.canon := by
  unfold State.snapshotDone
  split <;> simp [apply_ite State.canon]

@[simp] theorem clearCounters_canon (s : State) : s.clearCounters.canon = s.canon := rfl

@[simp] theorem darnApply_canon {s : State} (wf : s.canon = true) : s.darnApply.canon = true := by
  unfold State.darnApply
  split <;> simp [wf]

@[simp] theorem startProof_canon (s : State) (a : Nat) : (s.startProof a).canon = s.canon := by
  simp [State.startProof, apply_ite State.canon]

@[simp] theorem discardWait_canon (s : State) (st : Stream) : (s.discardWait st).canon = s.canon := by
  unfold State.discardWait
  split
  · rfl
  · split <;> simp

@[simp] theorem restitchDone_canon (s : State) : s.restitchDone.canon = s.canon := by
  simp [State.restitchDone, apply_ite State.canon]

@[simp] theorem modClock_canon (s : State) (f : ClockUnit → ClockUnit) : (s.modClock f).canon = s.canon := rfl

@[simp] theorem writeEntry_canon {s : State} (i k : Nat) (v : Word) (wf : s.canon = true) :
    (s.writeEntry i k v).canon = true := by
  simp [State.writeEntry, apply_ite State.canon, wf]

@[simp] theorem prickSkip_canon (s : State) : s.prickSkip.canon = s.canon := by
  simp [State.prickSkip]

@[simp] theorem schedule_canon (s : State) (i : Nat) : (s.schedule i).canon = s.canon := by
  simp [State.schedule, apply_ite State.canon]

@[simp] theorem matchEntries_canon (s : State) (code : Nat) (step : BitVec 48) :
    (s.matchEntries code step).canon = s.canon :=
  foldl_canon (fun t i => by simp only [apply_ite State.canon, schedule_canon, ite_self]) _ _

theorem startScrub_canon (acc : State × Bool) (h : Nat) : (State.startScrub acc h).1.canon = acc.1.canon := by
  unfold State.startScrub
  dsimp only
  split
  · rfl
  · split <;> simp

@[simp] theorem startEntry_canon {s : State} (i : Nat) (wf : s.canon = true) : (s.startEntry i).canon = true := by
  have scrubs : ∀ l : List Nat, ((l.foldl State.startScrub (s, false)).1).canon = s.canon := fun l =>
    foldl_keeps (fun acc : State × Bool => acc.1.canon) _ startScrub_canon l (s, false)
  unfold State.startEntry
  dsimp only
  split
  case h_1 => simp only [apply_ite State.canon, prickSkip_canon, scrubs, wf, ite_self]
  all_goals simp [apply_ite State.canon, wf]

@[simp] theorem prickingStart_canon {s : State} (i : Nat) (wf : s.canon = true) : (s.prickingStart i).canon = true := by
  simp [State.prickingStart, apply_ite State.canon, wf]

@[simp] theorem abortEffects_canon {s : State} (wf : s.canon = true) : s.abortEffects.canon = true := by
  simp [State.abortEffects, apply_ite State.canon, wf]

@[simp] theorem openStep_canon {s : State} (step : BitVec 48) (wf : s.canon = true) : (s.openStep step).canon = true := by
  simp [State.openStep, wf]

@[simp] theorem liveSeeds_canon (s : State) : s.liveSeeds.canon = s.canon := by
  simp [State.liveSeeds, apply_ite State.canon]

@[simp] theorem markOpen_canon {s : State} (step : BitVec 48) (wf : s.canon = true) : (s.markOpen step).canon = true := by
  simp [State.markOpen, apply_ite State.canon, wf]

@[simp] theorem markPhase_canon (s : State) (code : Nat) : (s.markPhase code).canon = s.canon := by
  simp [State.markPhase]

@[simp] theorem markUpdate_canon (s : State) : s.markUpdate.canon = s.canon := rfl

@[simp] theorem markCommit_canon (s : State) : s.markCommit.canon = s.canon := by
  simp [State.markCommit]

@[simp] theorem waitMark_canon (s : State) (code : BitVec 4) : (s.waitMark code).canon = s.canon := rfl

@[simp] theorem applyMark_canon {s : State} (f : Frame) (wf : s.canon = true) : (s.applyMark f).canon = true := by
  unfold State.applyMark
  dsimp only
  repeat' split
  all_goals simp [wf]

@[simp] theorem takeSeq_canon (s : State) (seq : BitVec 8) : (s.takeSeq seq).canon = s.canon := by
  unfold State.takeSeq
  split <;> simp [apply_ite State.canon]

@[simp] theorem acceptFrame_canon {s : State} (f : Frame) (wf : s.canon = true) : (s.acceptFrame f).canon = true := by
  simp [State.acceptFrame, apply_ite State.canon, wf]

@[simp] theorem receive_canon {s : State} (f : Frame) (ok : Nat → Bool) (wf : s.canon = true) :
    (s.receive f ok).canon = true := by
  simp [State.receive, apply_ite State.canon, wf]

@[simp] theorem clockQuiet_canon (s : State) : s.clockQuiet.canon = s.canon := by
  simp [State.clockQuiet, apply_ite State.canon]

@[simp] theorem guardFreeze_canon (s : State) : s.guardFreeze.canon = s.canon := by
  simp [State.guardFreeze, apply_ite State.canon]

@[simp] theorem commitWalk_canon {s : State} (wf : s.canon = true) : s.commitWalk.canon = true := by
  unfold State.commitWalk
  split
  · split
    · exact (canon_update (s.slotErrs.mapSlots _) rfl rfl rfl rfl rfl rfl).trans (mapSlots_canon _ (slotErrs_canon wf))
    · exact wf
  · exact wf

@[simp] theorem commitWalkEnd_canon {s : State} (wf : s.canon = true) : s.commitWalkEnd.canon = true := by
  unfold State.commitWalkEnd
  split
  · exact releaseHeld_canon ((canon_update s rfl rfl rfl rfl rfl rfl).trans wf)
  · exact wf

@[simp] theorem rejoin_canon {s : State} (wf : s.canon = true) : s.rejoin.canon = true := by
  simp [State.rejoin, apply_ite State.canon, wf]

@[simp] theorem refuseRest_canon (s : State) (why : Nat) : (s.refuseRest why).canon = s.canon := rfl

@[simp] theorem closeTest_canon {s : State} (wf : s.canon = true) :
    s.closeTest.canon = true := by
  simp [State.closeTest, apply_ite State.canon, wf]

@[simp] theorem enterRest_canon {s : State} (r : Rest) (wf : s.canon = true) : (s.enterRest r).canon = true := by
  simp [State.enterRest, apply_ite State.canon, wf]

@[simp] theorem restRequest_canon {s : State} (req : BitVec 2) (wf : s.canon = true) :
    (s.restRequest req).canon = true := by
  unfold State.restRequest
  extract_lets r why
  have entered : ({ s.enterRest r with transit := some r, restRefused := 0 } : State).canon = true :=
    (canon_update (s.enterRest r) rfl rfl rfl rfl rfl rfl).trans (enterRest_canon r wf)
  split
  · exact wf
  · split
    · simpa using wf
    · split
      · split <;> simpa using wf
      · split
        · simpa using wf
        · split
          · simpa using wf
          · exact entered

@[simp] theorem restRoll_canon (s : State) : s.restRoll.canon = s.canon := by
  simp [State.restRoll, apply_ite State.canon]

@[simp] theorem zeroise_canon {s : State} (wf : s.canon = true) : s.zeroise.canon = true := by
  obtain ⟨h1, h2, h3, h4, h5, h6, h7, h8, h9, h10, h11⟩ := canon_arrays wf
  exact canon_of_arrays rfl h2 h3 h4 h5 h6 h7 h8 h9 h10 h11

@[simp] theorem restExit_canon (s : State) : s.restExit.canon = s.canon := by
  simp [State.restExit]

@[simp] theorem goIssue_canon (s : State) : s.goIssue.canon = s.canon := by
  simp [State.goIssue, apply_ite State.canon]

@[simp] theorem stopIssue_canon (s : State) : s.stopIssue.canon = s.canon := by
  simp [State.stopIssue, apply_ite State.canon]

@[simp] theorem issueStop_canon (s : State) : s.issueStop.canon = s.canon := by
  unfold State.issueStop
  split <;> simp [apply_ite State.canon]

@[simp] theorem waitEnd_canon (s : State) (st : Stream) : (s.waitEnd st).canon = s.canon := by
  unfold State.waitEnd
  split <;> simp [apply_ite State.canon]

@[simp] theorem waitTimeout_canon (s : State) (st : Stream) : (s.waitTimeout st).canon = s.canon := by
  unfold State.waitTimeout
  split <;> simp [apply_ite State.canon]

@[simp] theorem dirTimeout_canon (s : State) : s.dirTimeout.canon = s.canon := by
  unfold State.dirTimeout
  split <;> simp [apply_ite State.canon]

@[simp] theorem directionWord_canon (s : State) (w : Word) : (s.directionWord w).canon = s.canon := by
  unfold State.directionWord
  split
  · rfl
  · split <;> simp

@[simp] theorem dirWordWrite_canon (s : State) (w : Word) (sameCycle : Bool) :
    (s.dirWordWrite w sameCycle).canon = s.canon := by
  simp [State.dirWordWrite, apply_ite State.canon]

@[simp] theorem picotPost_canon (s : State) : s.picotPost.canon = s.canon := by
  unfold State.picotPost
  dsimp only
  repeat' split
  all_goals simp

@[simp] theorem mailboxTaken_canon (s : State) : s.mailboxTaken.canon = s.canon := rfl

@[simp] theorem keyLoad_canon (s : State) (k : Nat) (key : BitVec 256) : (s.keyLoad k key).canon = s.canon := by
  simp [State.keyLoad, apply_ite State.canon]

@[simp] theorem seal_canon {s : State} (wf : s.canon = true) : s.seal.canon = true := by
  have cleared (l : List Nat) : (l.foldl (fun (v : State) o => v.setReg 15 o 0) s.closeTest).canon = true :=
    foldl_keeps_canon (fun _ o => setReg_canon 15 o 0) l (closeTest_canon wf)
  unfold State.seal
  split
  · exact wf
  · exact (canon_update (_ : State) rfl rfl rfl rfl rfl rfl).trans ((setPage_canon ..).trans (cleared _))

@[simp] theorem unseal_canon (s : State) : s.unseal.canon = s.canon := by
  simp [State.unseal, apply_ite State.canon]

@[simp] theorem advance_canon {s : State} (p off size width : Nat) (wf : s.canon = true) :
    (s.advance p off size width).canon = true := by
  simp [State.advance, apply_ite State.canon, wf]

@[simp] theorem advanceHoop_canon {s : State} (wf : s.canon = true) :
    s.advanceHoop.canon = true := by
  simp [State.advanceHoop, apply_ite State.canon, wf]

@[simp] theorem leafSound_canon (s : State) : s.leafSound.canon = s.canon := by
  simp [State.leafSound, apply_ite State.canon]

theorem readHoop_canon {s : State} (wf : s.canon = true) : s.readHoop.2.canon = true := by
  unfold State.readHoop
  split
  · exact advanceHoop_canon wf
  · exact advanceHoop_canon (hoopErrList_canon _ wf)

theorem readEffect_canon {s : State} (p off : Nat) (wf : s.canon = true) : (s.readEffect p off).2.canon = true := by
  unfold State.readEffect
  split
  case h_9 =>
    split
    · exact slotErrList_canon _ wf
    · exact wf
  all_goals simp [readHoop_canon, wf]

theorem readReg_canon {s : State} (p off : Nat) (wf : s.canon = true) : (s.readReg p off).2.canon = true := by
  have effect := readEffect_canon p off wf
  unfold State.readReg
  dsimp only
  split
  · split
    · simpa using wf
    · split <;> simpa using effect
  · split <;> simpa using effect

@[simp] theorem mmioRead_canon {s : State} (p off : Nat) (size : AccSize) (wf : s.canon = true) :
    (s.mmioRead p off size).canon = true := by
  unfold State.mmioRead
  split
  · simpa using wf
  · split
    · exact wf
    · exact (canon_update (s.readReg p off).2 rfl rfl rfl rfl rfl rfl).trans (readReg_canon p off wf)

@[simp] theorem write_canon {s : State} (w : Writer) (p : Nat) {f : State → State} (wf : s.canon = true) (h : (f s).canon = true) :
    (s.write w p f).canon = true := by
  unfold State.write
  repeat' split
  all_goals simp [wf, h]

@[simp] theorem stoppedWrite_canon {s : State} (p : Nat) {f : State → State} (wf : s.canon = true) (h : (f s).canon = true) :
    (s.stoppedWrite p f).canon = true := by
  unfold State.stoppedWrite
  split <;> simp [wf, h]

@[simp] theorem mirrorClosed_canon {s : State} {f : State → State} (wf : s.canon = true) (h : (f s).canon = true) :
    (s.mirrorClosed f).canon = true := by
  unfold State.mirrorClosed
  split <;> simp [wf, h]

@[simp] theorem writeLock_canon {s : State} (w : Writer) (p : Nat) (v : Word) (wf : s.canon = true) :
    (s.writeLock w p v).canon = true := by
  simp [State.writeLock, apply_ite State.canon, wf]

@[simp] theorem writePstore_canon {s : State} (v : Word) (wf : s.canon = true) : (s.writePstore v).canon = true := by
  have written (i : Nat) : ({ s with pstore := s.pstore.set 0 i v } : State).canon = true := by
    obtain ⟨h1, h2, h3, h4, h5, h6, h7, h8, h9, h10, h11⟩ := canon_arrays wf
    exact canon_of_arrays h1 h2 (SMap.set_wf _ _ h3) h4 h5 h6 h7 h8 h9 h10 h11
  exact stoppedWrite_canon 1 wf (advance_canon _ _ _ _ ((soundHalf_canon ..).trans (written _)))

@[simp] theorem writeContext_canon {s : State} (off : Nat) (v : Word) (wf : s.canon = true) :
    (s.writeContext off v).canon = true := by
  refine stoppedWrite_canon 1 wf ?_
  dsimp only
  split <;> simp [wf]

@[simp] theorem writeStride_canon {s : State} (j : Nat) (v : Word) (wf : s.canon = true) : (s.writeStride j v).canon = true := by
  simp [State.writeStride, wf]

@[simp] theorem writeCarry_canon {s : State} (c : Nat) (ctl : Bool) (v : Word) (wf : s.canon = true) : (s.writeCarry c ctl v).canon = true := by
  simp [State.writeCarry, wf]

@[simp] theorem writeHoopData_canon {s : State} (v : Word) (wf : s.canon = true) : (s.writeHoopData v).canon = true := by
  unfold State.writeHoopData
  dsimp only
  repeat' split
  all_goals simp [wf]

@[simp] theorem writeSwap_canon (s : State) (i : Nat) : (s.writeSwap i).canon = s.canon := by
  simp [State.writeSwap, apply_ite State.canon]

@[simp] theorem slotWrite_canon {s : State} (r : SlotReg) (v : Word) (wf : s.canon = true) : (s.slotWrite r v).canon = true := by
  simp [State.slotWrite, apply_ite State.canon, wf]

@[simp] theorem seedWrite_canon (s : State) (f : TwistUnit → TwistUnit) : (s.seedWrite f).canon = s.canon := by
  simp [State.seedWrite, apply_ite State.canon]

@[simp] theorem writeLive_canon (s : State) (k : Nat) (v : Word) : (s.writeLive k v).canon = s.canon := by
  simp [State.writeLive]

@[simp] theorem writeStaged_canon (s : State) (k : Nat) (v : Word) : (s.writeStaged k v).canon = s.canon := rfl

@[simp] theorem writeStep_canon (s : State) (hi : Bool) (v : Word) : (s.writeStep hi v).canon = s.canon := by
  simp [State.writeStep]

@[simp] theorem writeBind_canon {s : State} (b k : Nat) (v : Word) (wf : s.canon = true) :
    (s.writeBind b k v).canon = true := by
  unfold State.writeBind
  split <;> simp [apply_ite State.canon, wf]

@[simp] theorem writeEstore_canon {s : State} (v : Word) (wf : s.canon = true) : (s.writeEstore v).canon = true := by
  have written (i : Nat) (e : Edging) (h : e.entries = s.edging.entries) :
      ({ s with estore := s.estore.set 0 i v, edging := e } : State).canon = true := by
    obtain ⟨h1, h2, h3, h4, h5, h6, h7, h8, h9, h10, h11⟩ := canon_arrays wf
    exact canon_of_arrays h1 h2 h3 (SMap.set_wf _ _ h4) h5 h6 h7 (h ▸ h8) h9 h10 h11
  unfold State.writeEstore
  split
  · simpa using wf
  · exact advance_canon _ _ _ _ ((soundHalf_canon ..).trans ((measCancel_canon ..).trans (written _ _ rfl)))

@[simp] theorem writeRelease_canon {s : State} (k : Nat) (wf : s.canon = true) : (s.writeRelease k).canon = true := by
  simp [State.writeRelease, wf]

@[simp] theorem measureEdge_canon (s : State) : s.measureEdge.canon = s.canon := by
  simp [State.measureEdge, apply_ite State.canon]

@[simp] theorem writeStage_canon {s : State} (v : Word) (wf : s.canon = true) : (s.writeStage v).canon = true := by
  have written (i : Nat) (w : Word) : (s.modTrouble fun t => { t with stage := t.stage.set 0 i w }).canon = true := by
    obtain ⟨h1, h2, h3, h4, h5, h6, h7, h8, h9, h10, h11⟩ := canon_arrays wf
    exact canon_of_arrays h1 h2 h3 h4 h5 h6 h7 h8 h9 h10 (SMap.set_wf _ _ h11)
  unfold State.writeStage
  split
  · simpa using wf
  · exact advance_canon _ _ _ _ (written _ _)

@[simp] theorem testWrite_canon {s : State} {f : State → State} (wf : s.canon = true) (h : (f s).canon = true) :
    (s.testWrite f).canon = true := by
  unfold State.testWrite
  split <;> simp [wf, h]

@[simp] theorem writeLocal_canon (s : State) (v : Bool) : (s.writeLocal v).canon = s.canon := by
  simp [State.writeLocal, apply_ite State.canon]

@[simp] theorem injGo_canon {s : State} (wf : s.canon = true) : s.injGo.canon = true := by
  unfold State.injGo
  split <;> simp [apply_ite State.canon, wf]

@[simp] theorem localMark_canon {s : State} (v : Word) (wf : s.canon = true) : (s.localMark v).canon = true := by
  simp [State.localMark, apply_ite State.canon, wf]

@[simp] theorem testCtrl_canon {s : State} (v : Word) (wf : s.canon = true) : (s.testCtrl v).canon = true := by
  simp [State.testCtrl, apply_ite State.canon, wf]

@[simp] theorem mirrorPageCtrl_canon {s : State} (v : Word) (wf : s.canon = true) : (s.mirrorPageCtrl v).canon = true := by
  simp [State.mirrorPageCtrl, apply_ite State.canon, wf]

@[simp] theorem partnerCtrl_canon (s : State) (v : Word) : (s.partnerCtrl v).canon = s.canon := by
  simp [State.partnerCtrl, apply_ite State.canon]

@[simp] theorem writeIssue_canon {s : State} (off : Nat) (v : Word) (wf : s.canon = true) :
    (s.writeIssue off v).canon = true := by
  unfold State.writeIssue
  repeat' split
  all_goals simp [wf]

@[simp] theorem writeHoops_canon {s : State} (off : Nat) (v : Word) (wf : s.canon = true) : (s.writeHoops off v).canon = true := by
  simp [State.writeHoops, apply_ite State.canon, wf]

@[simp] theorem writeMotif_canon (s : State) (off : Nat) (v : Word) : (s.writeMotif off v).canon = s.canon := by
  simp [State.writeMotif, apply_ite State.canon]

@[simp] theorem writeScale_canon {s : State} (off : Nat) (v : Word) (wf : s.canon = true) : (s.writeScale off v).canon = true := by
  simp [State.writeScale, apply_ite State.canon, wf]

@[simp] theorem writeTwist_canon (s : State) (off : Nat) (v : Word) : (s.writeTwist off v).canon = s.canon := by
  simp [State.writeTwist, apply_ite State.canon]

@[simp] theorem writeEdging_canon {s : State} (off : Nat) (v : Word) (wf : s.canon = true) :
    (s.writeEdging off v).canon = true := by
  simp [State.writeEdging, apply_ite State.canon, wf]

@[simp] theorem writeNet_canon {s : State} (off : Nat) (v : Word) (wf : s.canon = true) :
    (s.writeNet off v).canon = true := by
  simp [State.writeNet, apply_ite State.canon, wf]

@[simp] theorem writeMirror_canon {s : State} (off : Nat) (v : Word) (wf : s.canon = true) :
    (s.writeMirror off v).canon = true := by
  unfold State.writeMirror
  repeat' split
  all_goals simp [wf]

@[simp] theorem writePrick_canon {s : State} (off : Nat) (v : Word) (wf : s.canon = true) :
    (s.writePrick off v).canon = true := by
  simp [State.writePrick, apply_ite State.canon, wf]

@[simp] theorem writeTrouble_canon {s : State} (off : Nat) (v : Word) (wf : s.canon = true) : (s.writeTrouble off v).canon = true := by
  simp [State.writeTrouble, apply_ite State.canon, wf]

@[simp] theorem writeTest_canon {s : State} (off : Nat) (v : Word) (wf : s.canon = true) : (s.writeTest off v).canon = true := by
  refine testWrite_canon wf ?_
  split <;> simp [wf]

end Sys2Proof.Machine
end

section
/-!
SUPPORT. The canonical form under the vector slots' effects, the M slot, the S slot and a whole bundle.
-/

namespace Sys2Proof.Machine

/-! ### The vector slots -/

@[simp] theorem chainEffect_canon (e : Env) {t : State} (wf : t.canon = true) :
    (chainEffect e t).canon = true := by
  unfold chainEffect
  dsimp only
  repeat' split
  all_goals simp [wf]

@[simp] theorem emptySlot_canon (e : Env) {t : State} (a : List Bool) (g : List (Res Nat)) (wf : t.canon = true) :
    (emptySlot e t a g).canon = true := by simp [emptySlot, wf]

@[simp] theorem finishFunc_canon (e : Env) {t : State} (a : List Bool) (o g : List (Res Nat)) (wf : t.canon = true) :
    (finishFunc e t a o g).canon = true := by
  unfold finishFunc
  dsimp only
  split <;> simp [wf]

@[simp] theorem funcEffect_canon (e : Env) {t : State} (wf : t.canon = true) :
    (funcEffect e t).canon = true := by
  unfold funcEffect
  dsimp only
  repeat' split
  all_goals simp [wf]

@[simp] theorem gactEffect_canon (e : Env) {t : State} (wf : t.canon = true) :
    (gactEffect e t).canon = true := by
  unfold gactEffect
  dsimp only
  repeat' split
  all_goals simp [wf]

@[simp] theorem scaleExp_canon (e : Env) {t : State} (wf : t.canon = true) : (e.scaleExp t).2.canon = true := by
  unfold Env.scaleExp
  extract_lets v sf df tid quant emax
  split
  · exact wf
  · extract_lets x k
    split
    · exact wf
    · split <;> simp [wf]

@[simp] theorem cvtPlain_canon (e : Env) {t : State} (wf : t.canon = true) : (cvtPlain e t).canon = true := by
  have scaled : (if e.b.v1.fn == 1 then e.scaleExp t.slotErrs else (0, t)).2.canon = true := by
    split
    · exact scaleExp_canon e (slotErrs_canon wf)
    · exact wf
  unfold cvtPlain
  dsimp only
  rw [raise_canon]
  split
  · split
    · exact writeTo_canon _ _ _ _ _ scaled
    · exact setSlot_canon _ _ (writeTo_canon _ _ _ _ _ scaled)
  · exact writeTo_canon _ _ _ _ _ scaled

@[simp] theorem cvtToMx_canon (e : Env) {t : State} (mt : MxElt) (wf : t.canon = true) : (cvtToMx e t mt).canon = true := by
  have elems (vals : List (Option Nat)) : (writeTo e.s t e.st e.b.v1.dst 1 vals).canon = true :=
    writeTo_canon _ _ _ _ _ wf
  unfold cvtToMx
  dsimp only
  rw [raise_canon]
  split
  · exact writeTo_canon _ _ _ _ _ (elems _)
  · exact writeTo_canon _ _ _ _ _ (elems _)

@[simp] theorem cvtEffect_canon (e : Env) {t : State} (wf : t.canon = true) :
    (cvtEffect e t).canon = true := by
  unfold cvtEffect
  repeat' split
  all_goals simp [wf]

@[simp] theorem redEffect_canon (e : Env) {t : State} (wf : t.canon = true) :
    (redEffect e t).canon = true := by
  unfold redEffect
  dsimp only
  repeat' split
  all_goals simp [wf]

@[simp] theorem scanFinish_canon (e : Env) {t : State} (cf : CF) (op : Nat) (a : List Bool) (r : Raises)
    (y : Res (List (Option Lane) × Option Lane)) (wf : t.canon = true) : (scanFinish e t cf op a r y).canon = true := by
  unfold scanFinish
  dsimp only
  rw [raise_canon]
  exact writeTo_canon _ _ _ _ _ wf

@[simp] theorem scanEffect_canon (e : Env) {t : State} (wf : t.canon = true) :
    (scanEffect e t).canon = true := by
  unfold scanEffect
  dsimp only
  split <;> simp [wf]

@[simp] theorem lscanEffect_canon (e : Env) {t : State} (wf : t.canon = true) :
    (lscanEffect e t).canon = true := by
  unfold lscanEffect
  dsimp only
  split <;> simp [wf]

@[simp] theorem moveBy_canon (e : Env) {t : State} (l : List Nat) (wf : t.canon = true) :
    (moveBy e t l).canon = true := by
  simp [moveBy, wf]

@[simp] theorem permEffect_canon (e : Env) {t : State} (wf : t.canon = true) :
    (permEffect e t).canon = true := by
  unfold permEffect
  split <;> simp [wf]

@[simp] theorem xposeEffect_canon (e : Env) {t : State} (wf : t.canon = true) :
    (xposeEffect e t).canon = true := by
  unfold xposeEffect
  dsimp only
  split <;> simp [wf]

@[simp] theorem cprsEffect_canon (e : Env) {t : State} (wf : t.canon = true) :
    (cprsEffect e t).canon = true := by
  unfold cprsEffect
  dsimp only
  split <;> simp [wf]

@[simp] theorem expdEffect_canon (e : Env) {t : State} (wf : t.canon = true) :
    (expdEffect e t).canon = true := by
  unfold expdEffect
  dsimp only
  split <;> simp [wf]

@[simp] theorem tselEffect_canon (e : Env) {t : State} (wf : t.canon = true) :
    (tselEffect e t).canon = true := by
  unfold tselEffect
  dsimp only
  split <;> simp [wf]

@[simp] theorem putSlab_canon (e : Env) {t : State} (f : BitVec 8) (bs : List Byte) (wf : t.canon = true) :
    (e.putSlab t f bs).canon = true := by
  unfold Env.putSlab
  dsimp only
  split <;> simp [wf]

@[simp] theorem putResiduals_canon (e : Env) {t : State} (l : List (Option Nat)) (wf : t.canon = true) :
    (e.putResiduals t l).canon = true := by
  unfold Env.putResiduals
  dsimp only
  split
  · simp [wf]
  · simp [wf]

@[simp] theorem gcmpEffect_canon (e : Env) {t : State} (wf : t.canon = true) : (gcmpEffect e t).canon = true := by
  have residuals (bs : List Byte) (vals : List (Option Nat)) :
      (e.putResiduals (e.putSlab t e.b.v1.dst bs) vals).canon = true :=
    putResiduals_canon e vals (putSlab_canon e _ bs wf)
  unfold gcmpEffect
  split
  · exact wf
  · split
    · unfold gcmpTopk
      dsimp only
      rw [raise_canon, bump_canon, markIf_canon, markIf_canon, setMask_canon]
      exact residuals _ _
    · unfold gcmpSign
      dsimp only
      rw [raise_canon, markIf_canon]
      exact residuals _ _

@[simp] theorem gdecEffect_canon (e : Env) {t : State} (wf : t.canon = true) :
    (gdecEffect e t).canon = true := by
  unfold gdecEffect State.raiseNv
  dsimp only
  repeat' split
  all_goals simp [wf]

@[simp] theorem updMirror_canon (e : Env) (t : State) (l : List Word) : (updMirror e t l).canon = t.canon := by
  unfold updMirror
  dsimp only
  rw [pushDesc_canon]
  exact (canon_update (t.mirrorPush _) rfl rfl rfl rfl rfl rfl).trans (mirrorPush_canon t _)

@[simp] theorem updEffect_canon (e : Env) {t : State} (wf : t.canon = true) : (updEffect e t).canon = true := by
  have moments (vals moms : List (Option Nat)) :
      (writeTo e.s (writeTo e.s t e.st e.b.v1.dst (fmtOf e.b.v1.dfmt).bytes vals) e.st e.b.v1.src2 2 moms).canon = true :=
    writeTo_canon _ _ _ _ _ (writeTo_canon _ _ _ _ _ wf)
  unfold updEffect
  split
  · exact wf
  · split
    · unfold updRun
      dsimp only
      rw [updMirror_canon, raise_canon, markIf_canon, bump_canon]
      split
      · exact writeTo_canon _ _ _ _ _ (moments _ _)
      · exact moments _ _
    · simpa using wf
    · simpa using wf

@[simp] theorem v1Effect_canon (e : Env) {t : State} (wf : t.canon = true) : (v1Effect e t).canon = true := by
  unfold v1Effect
  split <;> simp [wf]

/-! ### The M slot and the S slot -/

@[simp] theorem push_canon (e : Env) (t : State) (op : XferOp) (l : List Nat) : (e.push t op l).canon = t.canon := rfl

@[simp] theorem putAcc_canon (e : Env) {t : State} (ws : List Word) (wf : t.canon = true) : (e.putAcc t ws).canon = true :=
  writeTo_canon _ _ _ _ _ wf

/-- RCOUNT counts a record (R296). -/
@[simp] theorem counted_canon (t : State) (n : Word) : ({ t with net := { t.net with rcount := n } } : State).canon = t.canon :=
  rfl

@[simp] theorem nsendEffect_canon (e : Env) {t : State} (b : Bool) (wf : t.canon = true) : (nsendEffect e t b).canon = true := by
  have spent (p n : Nat) :
      ({ t with net := { t.net with credit := t.net.credit.set 0 p n } } : State).canon = true := by
    obtain ⟨h1, h2, h3, h4, h5, h6, h7, h8, h9, h10, h11⟩ := canon_arrays wf
    exact canon_of_arrays h1 h2 h3 h4 h5 h6 h7 h8 (SMap.set_wf _ _ h9) h10 h11
  unfold nsendEffect
  dsimp only
  split
  · simpa using wf
  · split
    · exact (counted_canon _ _).trans ((mark_canon ..).trans ((discardOut_canon ..).trans wf))
    · split
      · exact (counted_canon _ _).trans ((discardOut_canon ..).trans ((goneOnce_canon _).trans wf))
      · exact (counted_canon _ _).trans ((sendRecord_canon ..).trans (spent _ _))

@[simp] theorem nrecvEffect_canon (e : Env) {t : State} (b : Bool) (wf : t.canon = true) : (nrecvEffect e t b).canon = true := by
  unfold nrecvEffect
  dsimp only
  repeat' split
  all_goals simp [wf]

@[simp] theorem mHand_canon (e : Env) (o : MOut) {t : State} (wf : t.canon = true) : (mHand e o t).canon = true := by
  unfold mHand
  dsimp only
  split
  all_goals simp [tbldStart, apply_ite State.canon, wf]

@[simp] theorem movaEffect_canon (e : Env) {t : State} (wf : t.canon = true) : (movaEffect e t).canon = true := by
  unfold movaEffect
  split <;> simp [wf]

@[simp] theorem popqEffect_canon (e : Env) {t : State} (b : Bool) (wf : t.canon = true) : (popqEffect e t b).canon = true := by
  unfold popqEffect
  split
  · simpa using wf
  · split
    · split
      · simpa using wf
      · exact (canon_update (_ : State) rfl rfl rfl rfl rfl rfl).trans (putAcc_canon e _ wf)
    · simpa using wf

@[simp] theorem mRest_canon (e : Env) (o : MOut) {t : State} (wf : t.canon = true) : (mRest e o t).canon = true := by
  unfold mRest
  extract_lets m u mx n n'
  have done : u.canon = true := by
    unfold u
    split <;> simp [movsEffect, getsEffect, kstEffect, kldEffect, wf]
  split
  · simpa using done
  · exact done

@[simp] theorem setvlEffect_canon (e : Env) (t : State) (a : BitVec 64) : (setvlEffect e t a).canon = t.canon := by
  simp [setvlEffect]

@[simp] theorem setrowEffect_canon (e : Env) (t : State) (a : BitVec 64) : (setrowEffect e t a).canon = t.canon := by
  simp [setrowEffect]

theorem sEffect_canon (e : Env) {t : State} (wf : t.canon = true) : (sEffect e t).canon = true := by
  unfold sEffect
  dsimp only
  split
  · simpa using wf
  · split
    case h_11 => split <;> simp [apply_ite State.canon, wf]
    all_goals simp [apply_ite State.canon, wf]

theorem execBundle_canon (e : Env) (o : MOut) (handed : Bool) (wf : e.s.canon = true) :
    (execBundle e o handed).canon = true := by
  have lanes : (v1Effect e (chainEffect e e.s)).canon = true := v1Effect_canon e (chainEffect_canon e wf)
  have ported : (if handed then v1Effect e (chainEffect e e.s) else
      (mHand e o (v1Effect e (chainEffect e e.s))).beginLoad e.b.m).canon = true := by
    simp [apply_ite State.canon, lanes]
  unfold execBundle
  dsimp only
  rw [apply_ite State.canon, modIssue_canon, ite_self]
  exact sEffect_canon e (mRest_canon e o ported)

end Sys2Proof.Machine
end

section
/-!
SUPPORT. The canonical form under panels and repairs, issue and re-execution, runs, resets, register writes and settling.
-/

namespace Sys2Proof.Machine

/-! ### Panels and structural activities -/

@[simp] theorem clampLengths_canon (s : State) : s.clampLengths.canon = s.canon := by
  simp [State.clampLengths, State.clampOne]

@[simp] theorem setRetry_canon (s : State) (r : Option Retry) : (s.setRetry r).canon = s.canon := modIssue_canon s _

@[simp] theorem dropPanel_canon (s : State) (p : Nat) : (s.dropPanel p).canon = s.canon := rfl

@[simp] theorem losePanel_canon (s : State) (p : Nat) : (s.losePanel p).canon = s.canon := by
  unfold State.losePanel
  split <;> simp

@[simp] theorem startDarn_canon (s : State) (p : Nat) : (s.startDarn p).canon = s.canon := by
  unfold State.startDarn
  dsimp only
  split
  · rfl
  · split
    · simp
    · split
      · simp
      · split <;> simp
      · simp

theorem flushDarns_canon (n : Nat) (s : State) : (State.flushDarns n s).canon = s.canon := by
  induction n generalizing s with
  | zero => rfl
  | succ n ih =>
    unfold State.flushDarns
    split
    · rw [ih]
      simp
    · rfl

@[simp] theorem darn_canon (s : State) (p : Nat) (pass16 pass17 : Bool) : (s.darn p pass16 pass17).canon = s.canon := by
  unfold State.darn
  extract_lets try_ r
  have tried (acc : State × Bool) (sp : Nat) : (try_ acc sp).1.canon = acc.1.canon := by
    simp only [try_, apply_ite (fun x : State × Bool => x.1.canon), settleCap_canon, logDarn_canon, mapSpare_canon,
      setPanel_canon, ite_self]
  have both : r.1.canon = s.canon := (tried _ 17).trans (tried (s, false) 16)
  clear_value r
  split <;> simp [both]

@[simp] theorem darningDone_canon (s : State) (pass16 pass17 : Bool) : (s.darningDone pass16 pass17).canon = s.canon := by
  have flushed (p : Nat) : (State.flushDarns 18 ((s.darn p pass16 pass17).endStruct)).canon = s.canon := by
    simp [flushDarns_canon]
  unfold State.darningDone
  split
  · dsimp only
    split
    · split <;> simp [flushed]
    · simp [flushed]
  · rfl

theorem stagePanel_canon {s t : State} {kind p : Nat} (h : s.stagePanel kind p = .applied t) : t.canon = s.canon := by
  unfold State.stagePanel at h
  repeat' split at h
  all_goals cases h
  all_goals simp

theorem stageHoop_canon {s t : State} {kind unit cause : Nat} (h : s.stageHoop kind unit cause = .applied t)
    (wf : s.canon = true) : t.canon = true := by
  unfold State.stageHoop at h
  generalize (if kind = 4 then unit else unit / 16) = n at h
  dsimp only at h
  repeat' split at h
  all_goals cases h
  all_goals simp [wf]

theorem stageStore_canon {s t : State} {kind unit : Nat} (h : s.stageStore kind unit = .applied t)
    (wf : s.canon = true) : t.canon = true := by
  unfold State.stageStore at h
  dsimp only at h
  repeat' split at h
  all_goals cases h
  all_goals simp [wf]

theorem stageEntry_canon {s t : State} {w : Word} (h : s.stageEntry w = .applied t) (wf : s.canon = true) :
    t.canon = true := by
  unfold State.stageEntry at h
  dsimp only at h
  split at h
  · cases h
  · split at h
    case h_1 | h_2 => exact (stagePanel_canon h).trans wf
    case h_3 | h_4 | h_5 => exact stageHoop_canon h wf
    case h_6 | h_7 | h_8 => exact stageStore_canon h wf
    case h_9 => cases h

@[simp] theorem applyStage_canon {s : State} (wf : s.canon = true) : s.applyStage.canon = true := by
  refine (clampLengths_canon _).trans (emptyStage_canon (foldl_keeps_canon (fun t p wf => ?_) s.trouble.stage wf))
  split
  · exact wf
  · split
    · next u hu => exact (settleCap_canon t u).trans (stageEntry_canon hu wf)
    · simpa using wf
    · simpa using wf

@[simp] theorem actEffect_canon {s : State} (a : Act) (wf : s.canon = true) : (s.actEffect a).canon = true := by
  cases a <;> simp [State.actEffect, apply_ite State.canon, wf]

@[simp] theorem actEnds_canon {s : State} (a : Act) (wf : s.canon = true) : (s.actEnds a).canon = true := by
  unfold State.actEnds
  rw [endStruct_canon]
  split <;> simp [wf]

@[simp] theorem spareInDone_canon {s : State} (wf : s.canon = true) : s.spareInDone.canon = true := by
  unfold State.spareInDone
  split <;> simp [wf]

@[simp] theorem leafRepairDone_canon {s : State} (wf : s.canon = true) : s.leafRepairDone.canon = true := by
  unfold State.leafRepairDone
  split <;> simp [wf]

@[simp] theorem stagedDone_canon {s : State} (wf : s.canon = true) : s.stagedDone.canon = true := by
  unfold State.stagedDone
  split <;> simp [wf]

/-! ### Issue and re-execution -/

theorem hoopErrs_canon {α : Type} (es : List (EccErr × α)) {s : State} (wf : s.canon = true) :
    (es.foldl (fun (t : State) p => t.hoopErr p.1) s).canon = true :=
  foldl_keeps_canon (f := fun (t : State) (p : EccErr × α) => t.hoopErr p.1) (fun _ p wf => hoopErr_canon p.1 wf) es wf

theorem readGate_canon (e : Env) (wf : e.s.canon = true) : (readGate e).state.canon = true := by
  have errs := hoopErrs_canon e.readErrs wf
  unfold readGate
  dsimp only
  split
  · simpa [Gate.state] using errs
  · split <;> simpa [Gate.state] using errs

theorem goneGate_canon (e : Env) (t : State) : (goneGate e t).state.canon = t.canon := by
  unfold goneGate
  repeat' split
  all_goals simp [Gate.state]

theorem standing_canon (s : State) (st : Stream) (b : Bundle) (cap : TwCap) : (s.standing st b cap).state.canon = s.canon := by
  unfold State.standing
  dsimp only
  split
  · cases st <;> simp [Gate.state]
  · repeat' split
    all_goals simp [Gate.state]

theorem gate_canon {s : State} (st : Stream) (b : Bundle) (cap : TwCap) (o : MOut) (wf : s.canon = true) :
    (s.gate st b cap o).state.canon = true := by
  have stands := (standing_canon s st b cap).trans wf
  unfold State.gate
  split
  · next t h =>
    rw [h] at stands
    exact stands
  · next t h =>
    rw [h] at stands
    have goes := (goneGate_canon ⟨t, st, b, cap⟩ t).trans stands
    dsimp only
    split
    · exact wf
    · split
      · next u k =>
        rw [k] at goes
        exact goes
      · next u k =>
        rw [k] at goes
        exact readGate_canon ⟨u, st, b, cap⟩ goes

theorem faults_canon (e : Env) (errs : List LaneErr) (wf : e.s.canon = true) : (e.faults errs).2.canon = true := by
  unfold Env.faults
  split
  · next x t h =>
    unfold Env.injected at h
    dsimp only at h
    split at h
    · cases h
      simp [wf]
    · cases h
  · exact wf

theorem laneAbort_canon (e : Env) (o : MOut) (errs : List LaneErr) (handed : Bool) (wf : e.s.canon = true) :
    (e.laneAbort o errs handed).canon = true := by
  simp [Env.laneAbort, apply_ite State.canon, wf]

@[simp] theorem issueBundle_canon {s : State} (i : Issue) (o : MOut) (err : Option (List LaneErr × Bool)) (wf : s.canon = true) :
    (s.issueBundle i o err).canon = true := by
  have gated := gate_canon i.stream i.bundle s.twCap o wf
  unfold State.issueBundle
  split
  · exact wf
  · split
    · next t h =>
      rw [h] at gated
      exact gated
    · next t h =>
      rw [h] at gated
      dsimp only
      split
      · exact execBundle_canon ⟨t, i.stream, i.bundle, s.twCap⟩ o false gated
      · exact laneAbort_canon ⟨_, i.stream, i.bundle, s.twCap⟩ o _ _ (faults_canon _ _ gated)

@[simp] theorem issueRow_canon {s : State} (row : Row) (i : Issue) (wf : s.canon = true) : (s.issueRow row i).canon = true := by
  unfold State.issueRow
  split <;> simp [wf]

@[simp] theorem retryOver_canon {s : State} (wf : s.canon = true) : s.retryOver.canon = true := by
  unfold State.retryOver
  split
  · exact wf
  · next r _ =>
    extract_lets t u v
    have left : v.canon = true := by
      simp [v, u, t, apply_ite State.canon, wf]
    clear_value v
    refine releaseHeld_canon ((clampLengths_canon _).trans ?_)
    exact foldl_keeps_canon (fun _ a => actEffect_canon a) _ left

@[simp] theorem retryDone_canon {s : State} (wf : s.canon = true) : s.retryDone.canon = true := by
  unfold State.retryDone
  dsimp only
  split <;> simp [wf]

@[simp] theorem laneHard_canon {s : State} (r : Retry) (wf : s.canon = true) : (s.laneHard r).canon = true := by
  unfold State.laneHard
  dsimp only
  split <;> simp [apply_ite State.canon, wf]

theorem failAgain_canon (e : Env) (r : Retry) (errs : List LaneErr) (handed : Bool) (wf : e.s.canon = true) :
    (State.failAgain e r errs handed).canon = true := by
  unfold State.failAgain
  extract_lets h t q ps u
  have recorded : t.canon = true := by
    simp [t, apply_ite State.canon, wf]
  have darned : u.canon = true := (foldl_canon startDarn_canon ps _).trans ((setRetry_canon ..).trans recorded)
  clear_value t u
  repeat' split
  all_goals simp [recorded, darned]

theorem rerun_canon {s : State} (r : Retry) (errs : List LaneErr) (handed : Bool) (wf : s.canon = true) :
    (s.rerun r errs handed).canon = true := by
  have gated : (s.retryGate r).state.canon = true :=
    readGate_canon _ ((mark_canon ..).trans ((bump_canon ..).trans wf))
  unfold State.rerun
  split
  · next u h =>
    rw [h] at gated
    exact retryDone_canon gated
  · next u h =>
    rw [h] at gated
    dsimp only
    split
    · exact retryDone_canon (execBundle_canon ⟨u.setRetry _, r.stream, r.bundle, r.cap⟩ r.out r.handed
        ((setRetry_canon ..).trans gated))
    · exact failAgain_canon ⟨_, r.stream, r.bundle, r.cap⟩ r _ _ (faults_canon _ _ gated)

@[simp] theorem reexecute_canon {s : State} (wf : s.canon = true) : s.reexecute.canon = true := by
  unfold State.reexecute
  split
  · exact wf
  · exact rerun_canon _ _ _ wf

@[simp] theorem laneError_canon {s : State} (i : Issue) (errs : List LaneErr) (handed : Bool) (wf : s.canon = true) :
    (s.laneError i errs handed).canon = true := by
  unfold State.laneError
  repeat' split
  all_goals simp [rerun_canon, wf]

/-! ### Runs -/

@[simp] theorem runStart_canon (s : State) : s.runStart.canon = s.canon := by
  unfold State.runStart
  repeat' split
  all_goals simp

@[simp] theorem completionStart_canon (s : State) : s.completionStart.canon = s.canon := by
  unfold State.completionStart
  repeat' split
  all_goals simp

@[simp] theorem dropRun_canon (s : State) : s.dropRun.canon = s.canon := by
  simp [State.dropRun]

theorem fold_canon {s : State} (r : Run) (wf : s.canon = true) : (s.fold r).2.canon = true := by
  unfold State.fold
  extract_lets b col band last k x cols len
  split
  · exact wf
  · next slabs _ =>
    extract_lets es s' t u y v
    split
    · exact wf
    · split
      · exact wf
      · split
        · exact wf
        · split
          · rw [setBank_canon, mapBank_canon k _ wf]
          · split
            · exact wf
            · split
              · exact wf
              · have errs : s'.canon = true := by
                  rw [show s' = _ from rfl, markIf_canon]
                  exact hoopErrs_canon es wf
                clear_value s'
                split
                · exact errs
                · have opened : t.canon = true := by
                    rw [show t = _ from rfl, apply_ite State.canon, setBank_canon, mapBank_canon _ _ errs, errs, ite_self]
                  clear_value t
                  have folded : v.canon = true := by
                    rw [show v = _ from rfl, setBank_canon]
                    exact foldRows_canon b k slabs opened
                  clear_value v
                  split
                  · simp [folded]
                  · split
                    · exact folded
                    · exact folded

@[simp] theorem runEnd_canon {s : State} (wf : s.canon = true) : s.runEnd.canon = true := by
  unfold State.runEnd
  split
  · next r _ =>
    split
    · exact wf
    · next st _ =>
      split
      · exact wf
      · have folded : (if st = .ok && !r.completion && s.bindMode r.binding ≠ 0 then s.fold r else (st, s)).2.canon =
            true := by
          simp only [apply_ite (fun x : RunStatus × State => x.2.canon), fold_canon r wf, wf, ite_self]
        dsimp only
        generalize (if st = .ok && !r.completion && s.bindMode r.binding ≠ 0 then s.fold r else (st, s)) = x at folded ⊢
        split
        · simp [folded]
        · split <;> simp [folded]
  · exact wf

@[simp] theorem overrun_canon {s : State} (wf : s.canon = true) : s.overrun.canon = true := by
  unfold State.overrun
  dsimp only
  repeat' split
  all_goals simp [wf]

/-! ### The port's limit, RESTITCH -/

@[simp] theorem sendTimeout_canon {s : State} (wf : s.canon = true) : s.sendTimeout.canon = true := by
  unfold State.sendTimeout
  split
  · simpa using wf
  · split <;> simp [wf]

@[simp] theorem startRestitch_canon {s : State} (auto : Bool) (wf : s.canon = true) : (s.startRestitch auto).canon = true := by
  unfold State.startRestitch
  split
  · exact wf
  · extract_lets load t inexact u c d v
    have ended : d.canon = true := by
      refine (canon_update u rfl rfl rfl rfl rfl rfl).trans ((modIssue_canon t _).trans ?_)
      simp only [t, apply_ite State.canon, discardWait_canon, abandonWait_canon, ite_self, wf]
    clear_value d
    simp [v, apply_ite State.canon, ended]

@[simp] theorem pipeFault_canon {s : State} (wf : s.canon = true) : s.pipeFault.canon = true := by
  unfold State.pipeFault
  split <;> simp [wf]

@[simp] theorem restitchRequest_canon {s : State} (wf : s.canon = true) : s.restitchRequest.canon = true := by
  unfold State.restitchRequest
  split <;> simp [wf]

/-! ### Resets and rest -/

theorem fresh_canon {s : State} (wf : s.canon = true) : s.fresh.canon = true :=
  canon_of_arrays rfl (canon_arrays wf).2.1 rfl rfl rfl rfl rfl rfl rfl rfl rfl

theorem freshKeep_canon {s : State} (code : BitVec 2) (wf : s.canon = true) : (s.freshKeep code).canon = true :=
  (canon_update s.fresh rfl rfl rfl rfl rfl rfl).trans (fresh_canon wf)

@[simp] theorem pwrReset_canon {s : State} (wf : s.canon = true) : s.pwrReset.canon = true := by
  unfold State.pwrReset
  split
  · exact (canon_update s.fresh rfl rfl rfl rfl rfl rfl).trans (fresh_canon wf)
  · exact wf

@[simp] theorem pkgReset_canon {s : State} (wf : s.canon = true) : s.pkgReset.canon = true := by
  unfold State.pkgReset
  split
  · simp [freshKeep_canon, wf]
  · exact wf

@[simp] theorem blkReset_canon (s : State) : s.blkReset.canon = s.canon := by
  unfold State.blkReset
  split <;> rfl

@[simp] theorem resetComplete_canon {s : State} (wf : s.canon = true) : s.resetComplete.canon = true := by
  unfold State.resetComplete
  split
  · exact wf
  · exact (canon_update s.fresh rfl rfl rfl rfl rfl rfl).trans (fresh_canon wf)
  · split
    · exact wf
    · exact freshKeep_canon _ wf

@[simp] theorem powerLoss_canon {s : State} (wf : s.canon = true) : s.powerLoss.canon = true :=
  (canon_update s.fresh rfl rfl rfl rfl rfl rfl).trans (fresh_canon wf)

@[simp] theorem afterRest2_canon (s : State) : s.afterRest2.canon = s.canon := rfl

@[simp] theorem restDone_canon {s : State} (wf : s.canon = true) : s.restDone.canon = true := by
  unfold State.restDone
  split
  · exact wf
  · split
    · exact wf
    · split
      · exact freshKeep_canon 3 wf
      · simpa using wf
      · simpa using wf
    · exact (canon_update s.zeroise rfl rfl rfl rfl rfl rfl).trans (zeroise_canon wf)
    · exact wf

/-! ### Register writes -/

@[simp] theorem writeVl_canon {s : State} (v : Word) (wf : s.canon = true) : (s.writeVl v).canon = true := by
  simp [State.writeVl, wf]

@[simp] theorem writeRowshape_canon {s : State} (v : Word) (wf : s.canon = true) : (s.writeRowshape v).canon = true := by
  simp [State.writeRowshape, wf]

@[simp] theorem writeLanes_canon {s : State} (off : Nat) (v : Word) (wf : s.canon = true) :
    (s.writeLanes off v).canon = true := by
  simp [State.writeLanes, apply_ite State.canon, wf]

@[simp] theorem issueCtrl_canon {s : State} (v : Word) (wf : s.canon = true) : (s.issueCtrl v).canon = true := by
  simp [State.issueCtrl, apply_ite State.canon, wf]

@[simp] theorem troubleCtrl_canon {s : State} (v : Word) (wf : s.canon = true) : (s.troubleCtrl v).canon = true := by
  simp [State.troubleCtrl, apply_ite State.canon, wf]

@[simp] theorem writeCtrl_canon {s : State} (p : Nat) (v : Word) (wf : s.canon = true) : (s.writeCtrl p v).canon = true := by
  unfold State.writeCtrl
  split <;> simp [apply_ite State.canon, wf]

theorem writeHeader_canon {s t : State} {w : Writer} {p off : Nat} {v : Word} (h : s.writeHeader w p off v = some t)
    (wf : s.canon = true) : t.canon = true := by
  unfold State.writeHeader at h
  dsimp only at h
  split at h
  · cases h
    simpa using wf
  · cases h
    simpa using wf
  · cases h
    exact writeCtrl_canon p v wf
  · cases h
    exact writeLock_canon w p v wf
  · split at h
    · cases h
      exact wf
    · cases h

@[simp] theorem writeReg_canon {s : State} (w : Writer) (p off : Nat) (v : Word) (wf : s.canon = true) :
    (s.writeReg w p off v).canon = true := by
  unfold State.writeReg
  split
  · next t h => exact writeHeader_canon h wf
  · split
    · simp [wf]
    · split <;> simp [apply_ite State.canon, wf]

@[simp] theorem mmioWrite_canon {s : State} (w : Writer) (p off : Nat) (size : AccSize) (v : Word) (wf : s.canon = true) :
    (s.mmioWrite w p off size v).canon = true := by
  unfold State.mmioWrite
  repeat' split
  all_goals simp [wf]

@[simp] theorem access_canon {s : State} (a : Access) (p off : Nat) {f : State → Word → State} (wf : s.canon = true)
    (h : ∀ v, (f s v).canon = true) : (s.access a p off f).canon = true := by
  cases a with
  | read => exact mmioRead_canon p off _ wf
  | write w v => exact write_canon w p wf (h v)

/-! ### Every step -/

theorem settleDown_canon (s : State) : (State.settleDown s).canon = s.canon := by
  unfold State.settleDown State.refuseTriggers
  split
  · split <;> simp
  · rfl

theorem settleFirst_canon (s t : State) : (State.settleFirst s t).canon = t.canon := by
  unfold State.settleFirst
  split
  · rfl
  · split <;> simp

@[simp] theorem settle_canon (s t : State) : (State.settle s t).canon = t.canon := by
  unfold State.settle
  split
  · rfl
  · rw [settleFirst_canon, settleDown_canon, settleCap_canon]

theorem tick_canon (s : State) : s.tick.canon = s.canon := by
  unfold State.tick
  repeat' split
  all_goals simp

end Sys2Proof.Machine
end

section
/-!
SUPPORT. Every command and every step keeps the canonical form. Settles O57 and O56.
-/

namespace Sys2Proof.Machine

theorem runEnds_canon {s : State} (wf : s.canon = true) : (if s.edging.run.isSome then s.runEnd.runPlan else s).canon = true := by
  split
  · simp [wf]
  · exact wf

theorem exec_canon (c : Instr) {s : State} (wf : s.canon = true) :
    ∃ u, exec c s = .next (State.settle s u) ∧ u.canon = true := by
  cases c with
  | nop i | chain i | func i | gact i | cvt i | red i | scan i | lscan i | perm i | xpose i | cprs i | expd i
  | tsel i | gcmp i | gdec i | upd i | ld i | st i | gather i | scatter i | mova i | popq i | nsend i | nrecv i
  | movs i | gets i | kst i | kld i | tbld i | tbswap i | scld i | scst i | lgst i | lgld i | pref i | fencem i
  | addi i | add i | sub i | mul i | and i | or i | xor i | shli i | shri i | sari i | shin i | fadd i | fmul i
  | setvl i | setrow i | setes i | setd i | settw i | rdvl i | jmp i | loop i | wait i | picot i | waitdir i
  | setent i | halt i =>
    exact ⟨_, rfl, issueRow_canon _ i wf⟩
  | edgingRunEnd => exact ⟨_, rfl, runEnds_canon wf⟩
  | planSrc w _ _ => exact ⟨_, rfl, write_canon w 9 wf (by simp [wf])⟩
  | rCtl w _ _ _ => exact ⟨_, rfl, write_canon w 10 wf (by simp [wf])⟩
  | injLane w _ | localMarkHi w _ => exact ⟨_, rfl, write_canon w 15 wf (by simp [wf])⟩
  | _ => exact ⟨_, rfl, by simp [wf]⟩

/-- An empty queue only runs the clock; a command's effect keeps the form, and settling does not touch the arrays. -/
theorem step_canon {s t : State} (wf : s.canon = true) (h : step s = .next t) : t.canon = true := by
  unfold step at h
  split at h
  · cases h
    exact (tick_canon s).trans wf
  · next c cs _ =>
    obtain ⟨u, next, keeps⟩ := exec_canon c (s := { s with pending := cs })
      ((canon_update s rfl rfl rfl rfl rfl rfl).trans wf)
    rw [next] at h
    cases h
    exact (settle_canon _ u).trans keeps

end Sys2Proof.Machine
open Sys2Proof Sys2Proof.Machine

/-- Settles O57: every function that writes a sparse array does so by `SMap.set`, `setBytes` or `splice`, which keep its
form, or leaves it empty. -/
theorem stepKeepsMemory : Obligations.StepKeepsMemory := by
  unfold Obligations.StepKeepsMemory
  exact fun _ _ wf h => step_canon wf h

/-- Settles O56: reset leaves every sparse array empty, every length at its first value and no run. -/
theorem resetHoldsBounds : Obligations.ResetHoldsBounds := by
  unfold Obligations.ResetHoldsBounds
  exact ⟨reset_memory_wf, bounded_of_fresh (by decide) rfl rfl⟩
end

section
/-!
SUPPORT. An entry point of the main program over a register file that lists a register twice. Settles O9.
-/

namespace Sys2Proof.Machine

open Sys2Proof.Tests

/-- SETENT of entry point 7 from S0. -/
def clearEntry : Bundle := sSlot 0x1D 0 0 0 7

/-- A state whose register array, not in canonical form, lists the register of entry point 7 twice. -/
def entryListedTwice : State := { running clearEntry with regs := [(0x107C, 1), (0x107C, 1)] }

theorem clear_entryListedTwice : Clear entryListedTwice (mainOf clearEntry) :=
  clear_of_clearFor (by decide +kernel)

/-- The write of zero drops the first entry of the register only, so the second one comes to be read. -/
theorem setent_entryListedTwice : (after (.setent (mainOf clearEntry)) entryListedTwice).entryPoint 7 = 1 := by
  decide +kernel

end Sys2Proof.Machine
open Sys2Proof Sys2Proof.Machine Sys2Proof.Tests

/-- Refutes O9: its clause on SETENT does not ask that the sparse arrays be in canonical form. Where the register of entry
point 7 is listed twice, SETENT of zero to it leaves it reading 1. -/
theorem not_contextMajors : ¬ Obligations.ContextMajors := by
  intro h
  obtain ⟨-, -, -, setent⟩ := h (mainOf clearEntry) entryListedTwice clear_entryListedTwice
  obtain ⟨t, he, -, entry⟩ := setent rfl rfl
  have stays := setent_entryListedTwice
  rw [after, he] at stays
  exact absurd (stays.symm.trans (entry 7 (by decide))) (by decide +kernel)
end


section
/-!
SUPPORT. What a clear bundle leaves where its S slot goes on to the next bundle, and the lengths that SETVL, SETROW and
RDVL give (R52, R56, R106). Settles O8.
-/

namespace Sys2Proof.Machine

/-! ### The contexts under a bundle -/

@[simp] theorem setS_ew (c : Ctx) (k : BitVec 5) (v : BitVec 64) : (c.setS k v).ew = c.ew := by
  unfold Ctx.setS
  split <;> rfl

@[simp] theorem setS_vl (c : Ctx) (k : BitVec 5) (v : BitVec 64) : (c.setS k v).vl = c.vl := by
  unfold Ctx.setS
  split <;> rfl

@[simp] theorem setS_rowshape (c : Ctx) (k : BitVec 5) (v : BitVec 64) : (c.setS k v).rowshape = c.rowshape := by
  unfold Ctx.setS
  split <;> rfl

/-- The M slot writes scalars and descriptors of a context and nothing else. -/
theorem mCtx_keeps {α : Type} (P : Ctx → α) (scalars : ∀ (c : Ctx) k v, P (c.setS k v) = P c)
    (descs : ∀ (c : Ctx) k d, P (c.setDesc k d) = P c) (e : Env) (c : Ctx) : P (e.mCtx c) = P c := by
  unfold Env.mCtx Env.postCtx
  dsimp only
  repeat' split
  all_goals simp [scalars, descs]

@[simp] theorem mCtx_ew (e : Env) (c : Ctx) : (e.mCtx c).ew = c.ew := mCtx_keeps _ setS_ew (fun _ _ _ => rfl) e c

@[simp] theorem mCtx_vl (e : Env) (c : Ctx) : (e.mCtx c).vl = c.vl := mCtx_keeps _ setS_vl (fun _ _ _ => rfl) e c

@[simp] theorem mCtx_rowshape (e : Env) (c : Ctx) : (e.mCtx c).rowshape = c.rowshape :=
  mCtx_keeps _ setS_rowshape (fun _ _ _ => rfl) e c

/-! ### A bundle whose S slot changes its context and goes on -/

theorem run_of_clear {s : State} {i : Issue} (clear : Clear s i) : i.stream = .edge → (s.beforeS i).edging.run ≠ none :=
  fun edge => beforeS_run s i (canOffer_run clear.offered edge)

theorem modCtx_run (s : State) (st : Stream) (f : Ctx → Ctx) : (s.modCtx st f).edging.run = none ↔ s.edging.run = none := by
  cases st <;> simp [State.modCtx]

@[simp] theorem markIf_edging (s : State) (c : Bool) (p b : Nat) : (s.markIf c p b).edging = s.edging := by
  cases c <;> rfl

/-- The state in which a bundle's S slot has written context `f` and goes on to the next bundle. -/
theorem settled_ctxOf {s u : State} {i : Issue} (h : sEffect (s.env i) (s.beforeS i) = u) :
    (s.settle (s.executed i)).ctxOf i.stream = u.ctxOf i.stream := by
  rw [settle_ctxOf, executed_ctxOf, h]

theorem settled_pcOf {s u : State} {i : Issue} {n : Nat} (h : sEffect (s.env i) (s.beforeS i) = u.goTo i.stream n)
    (run : i.stream = .edge → u.edging.run ≠ none) : (s.settle (s.executed i)).pcOf i.stream = n := by
  rw [settle_pcOf, executed_pcOf, h, goTo_pcOf u _ n run]

theorem settled_sticky {s u : State} {i : Issue} {n : Nat} (h : sEffect (s.env i) (s.beforeS i) = u.goTo i.stream n) :
    StickyKept u (s.settle (s.executed i)) := by
  have executed : StickyKept (u.goTo i.stream n) (s.executed i) := by
    rw [executed_eq, h]
    split
    · exact .modIssue _ _
    · exact .refl _
  exact ((OutgoingKept.goTo u _ _).sticky.trans executed).trans (.settle s _)

/-- The context after the S slot has written `f` over what the M slot left. -/
theorem beforeS_written {s : State} {i : Issue} (clear : Clear s i) (f : Ctx → Ctx) :
    ((s.beforeS i).modCtx i.stream f).ctxOf i.stream = f ((s.env i).mCtx (s.ctxOf i.stream)) := by
  rw [ctxOf_modCtx _ _ _ (run_of_clear clear), beforeS_ctxOf s i (canOffer_run clear.offered)]

/-! ### Lengths -/

theorem granted_eq (want : Int) (most : Nat) : (max 0 (min want (most : Int))).toNat = granted want most := by
  unfold granted
  split
  · omega
  · split <;> omega

theorem ewOf_eq (imm : BitVec 11) :
    ewOf imm = if imm.toNat % 4 = 0 then .w8 else if imm.toNat % 4 = 1 then .w16 else .w32 := by
  unfold ewOf
  split <;> simp_all

theorem sEffect_setvl (e : Env) (t : State) (h : e.b.s.major = 0x10) :
    sEffect e t = (setvlEffect e t (e.ctx.sreg e.b.s.sa)).goTo e.st (e.s.pcOf e.st + 1) := by
  simp [sEffect, scalarValue, h]

theorem sEffect_setrow (e : Env) (t : State) (h : e.b.s.major = 0x11) :
    sEffect e t = (setrowEffect e t (e.ctx.sreg e.b.s.sa)).goTo e.st (e.s.pcOf e.st + 1) := by
  simp [sEffect, scalarValue, h]

theorem sEffect_rdvl (e : Env) (t : State) (h : e.b.s.major = 0x15) :
    sEffect e t = (t.modCtx e.st fun c => c.setS e.b.s.sd (BitVec.ofNat 64 e.vl)).goTo e.st (e.s.pcOf e.st + 1) := by
  simp [sEffect, scalarValue, h]

theorem sticky_markIf_self (s : State) {c : Bool} (p b : Nat) (h : c = true) (hp : p < 16) (hb : b < 32) :
    ((s.markIf c p b).sticky p).getLsbD b = true := by
  rw [h]
  exact sticky_mark_self s p b hp hb

theorem setvlEffect_vlMarked (e : Env) (t : State) (a : BitVec 64) (high : (t.vlmax (ewOf e.b.s.imm) : Int) < a.toInt) :
    ((setvlEffect e t a).sticky 2).getLsbD 0 = true :=
  StickyKept.markIf _ _ 2 1 (by decide) 2 0 (sticky_markIf_self _ 2 0 (decide_eq_true high) (by decide) (by decide))

theorem setvlEffect_rowMarked (e : Env) (t : State) (a : BitVec 64) (high : t.vlmax (ewOf e.b.s.imm) < e.ctx.rowshape) :
    ((setvlEffect e t a).sticky 2).getLsbD 1 = true :=
  sticky_markIf_self _ 2 1 (decide_eq_true high) (by decide) (by decide)

theorem setrowEffect_marked (e : Env) (t : State) (a : BitVec 64)
    (out : a.toInt < 0 ∨ (t.vlmax e.ctx.ew : Int) < a.toInt) : ((setrowEffect e t a).sticky 2).getLsbD 1 = true :=
  sticky_markIf_self _ 2 1 (by simpa [or_comm] using out) (by decide) (by decide)

/-- SETVL grants VL and clamps ROWSHAPE (R52). -/
theorem setvl_clear {s : State} {i : Issue} (clear : Clear s i) (major : i.bundle.s.major = 0x10) :
    let c := s.ctxOf i.stream
    let want := (c.sreg i.bundle.s.sa).toInt
    let ew := ewOf i.bundle.s.imm
    let g := granted want (s.vlmax ew)
    ∃ t, exec (.setvl i) s = .next t ∧ (t.ctxOf i.stream).ew = ew ∧ (t.ctxOf i.stream).vl = g ∧
      (t.ctxOf i.stream).rowshape = min c.rowshape (s.vlmax ew) ∧ t.pcOf i.stream = s.pcOf i.stream + 1 ∧
      (t.ctxOf i.stream).sreg i.bundle.s.sd = (if i.bundle.s.sd = 0 then 0 else BitVec.ofNat 64 g) ∧
      ((s.vlmax ew : Int) < want → (t.sticky 2).getLsbD 0 = true) ∧
      (s.vlmax ew < c.rowshape → (t.sticky 2).getLsbD 1 = true) := by
  intro c want ew g
  have writes := sEffect_setvl (s.env i) (s.beforeS i) major
  have ctx := settled_ctxOf writes
  simp only [setvlEffect, goTo_ctxOf, markIf_ctxOf, State.env, beforeS_vlmax, granted_eq] at ctx
  rw [beforeS_written clear] at ctx
  refine ⟨_, exec_of_clear rfl (beq_iff_eq.mpr (congrArg BitVec.toNat major)) clear, ?_, ?_, ?_, ?_, ?_, fun high => ?_,
    fun high => ?_⟩
  · rw [ctx, setS_ew]
  · rw [ctx, setS_vl]
    rfl
  · rw [ctx, setS_rowshape, mCtx_rowshape]
  · refine settled_pcOf writes fun edge => ?_
    simpa [setvlEffect, modCtx_run] using run_of_clear clear edge
  · rw [ctx, sreg_setS, if_pos rfl]
    rfl
  · exact settled_sticky writes 2 0 (setvlEffect_vlMarked _ _ _ (by rwa [beforeS_vlmax]))
  · exact settled_sticky writes 2 1 (setvlEffect_rowMarked _ _ _ (by rwa [beforeS_vlmax]))

/-- SETROW grants ROWSHAPE (R56). -/
theorem setrow_clear {s : State} {i : Issue} (clear : Clear s i) (major : i.bundle.s.major = 0x11) :
    let c := s.ctxOf i.stream
    let want := (c.sreg i.bundle.s.sa).toInt
    let g := granted want (s.vlmax c.ew)
    ∃ t, exec (.setrow i) s = .next t ∧ (t.ctxOf i.stream).rowshape = g ∧ (t.ctxOf i.stream).ew = c.ew ∧
      (t.ctxOf i.stream).vl = c.vl ∧ t.pcOf i.stream = s.pcOf i.stream + 1 ∧
      (t.ctxOf i.stream).sreg i.bundle.s.sd = (if i.bundle.s.sd = 0 then 0 else BitVec.ofNat 64 g) ∧
      (want < 0 ∨ (s.vlmax c.ew : Int) < want → (t.sticky 2).getLsbD 1 = true) := by
  intro c want g
  have writes := sEffect_setrow (s.env i) (s.beforeS i) major
  have ctx := settled_ctxOf writes
  simp only [setrowEffect, goTo_ctxOf, markIf_ctxOf, State.env, beforeS_vlmax, granted_eq] at ctx
  rw [beforeS_written clear] at ctx
  refine ⟨_, exec_of_clear rfl (beq_iff_eq.mpr (congrArg BitVec.toNat major)) clear, ?_, ?_, ?_, ?_, ?_, fun out => ?_⟩
  · rw [ctx, setS_rowshape]
    rfl
  · rw [ctx, setS_ew, mCtx_ew]
  · rw [ctx, setS_vl, mCtx_vl]
  · refine settled_pcOf writes fun edge => ?_
    simpa [setrowEffect, modCtx_run] using run_of_clear clear edge
  · rw [ctx, sreg_setS, if_pos rfl]
    rfl
  · exact settled_sticky writes 2 1 (setrowEffect_marked _ _ _ (by rwa [beforeS_vlmax]))

/-- RDVL reads VL. -/
theorem rdvl_clear {s : State} {i : Issue} (clear : Clear s i) (major : i.bundle.s.major = 0x15) :
    let c := s.ctxOf i.stream
    ∃ t, exec (.rdvl i) s = .next t ∧ (t.ctxOf i.stream).vl = c.vl ∧ t.pcOf i.stream = s.pcOf i.stream + 1 ∧
      (t.ctxOf i.stream).sreg i.bundle.s.sd = (if i.bundle.s.sd = 0 then 0 else BitVec.ofNat 64 c.vl) := by
  intro c
  have writes := sEffect_rdvl (s.env i) (s.beforeS i) major
  have ctx := settled_ctxOf writes
  simp only [State.env, goTo_ctxOf] at ctx
  rw [beforeS_written clear] at ctx
  refine ⟨_, exec_of_clear rfl (beq_iff_eq.mpr (congrArg BitVec.toNat major)) clear, ?_, ?_, ?_⟩
  · rw [ctx, setS_vl, mCtx_vl]
  · refine settled_pcOf writes fun edge => ?_
    simpa [modCtx_run] using run_of_clear clear edge
  · rw [ctx, sreg_setS, if_pos rfl]
    rfl

end Sys2Proof.Machine
open Sys2Proof Sys2Proof.Machine

/-- Settles O8: each of the three writes the lengths and SD in one update of the context, over what the M slot left, and
goes on to the next bundle. -/
theorem lengthMajors : Obligations.LengthMajors := by
  unfold Obligations.LengthMajors
  intro i s clear
  dsimp only
  rw [← ewOf_eq]
  exact ⟨setvl_clear clear, setrow_clear clear, rdvl_clear clear⟩
end

section
/-!
SUPPORT. Writes of the lane registers, the scale slots and the twist block (R168, R169, R174, R429, R434, R435). Settles O49.
-/

namespace Sys2Proof.Machine

/-- A write that the page takes acts at once. -/
theorem act_write {s : State} {w : Writer} {p : Nat} (h : s.takes w p = true) (f : State → State) :
    act (fun t => t.write w p f) s = .next (s.settle (f s)) := by
  rw [act, State.write_of_takes h]

/-! ### Lengths and carries -/

theorem writeVl_of_stopped {s : State} (h : s.isStopped = true) (v : Word) : s.writeVl v =
    (s.modCtx .main fun c => { c with vl := min (bits v 12 0) (s.vlmax s.ctx.ew) }).markIf
      (bits v 12 0 > s.vlmax s.ctx.ew) 2 0 := by
  simp [State.writeVl, State.stoppedWrite, h]

theorem writeRowshape_of_stopped {s : State} (h : s.isStopped = true) (v : Word) : s.writeRowshape v =
    (s.modCtx .main fun c => { c with rowshape := min (bits v 12 0) (s.vlmax s.ctx.ew) }).markIf
      (bits v 12 0 > s.vlmax s.ctx.ew) 2 1 := by
  simp [State.writeRowshape, State.stoppedWrite, h]

theorem stoppedWrite_lanes_of_busy {s : State} (h : s.isStopped = false) (f : State → State) :
    s.stoppedWrite 2 f = s.mark 2 3 := by
  simp [State.stoppedWrite, h, State.storeBusy]

@[simp] theorem markIf_ctx (s : State) (c : Bool) (p b : Nat) : (s.markIf c p b).ctx = s.ctx := by
  cases c <;> rfl

theorem settle_sticky_markIf (s t : State) {c : Bool} (p b : Nat) (h : c = true) (hp : p < 16) (hb : b < 32) :
    ((s.settle (t.markIf c p b)).sticky p).getLsbD b = true :=
  sticky_settle _ _ _ _ (sticky_markIf_self t p b h hp hb)

theorem holdOr_of_retry {s : State} (h : s.issue.retry ≠ none) (x : HeldWrite) :
    s.holdOr x = { s with issue := { s.issue with held := s.issue.held ++ [x] } } := by
  simp [State.holdOr, State.holds, Option.isSome_iff_ne_none.mpr h]

/-- A write to a carry with no aborted bundle (R230). -/
theorem writeCarry_of_free {s : State} (h : s.issue.retry = none) (c : Nat) (ctl : Bool) (v : Word) :
    s.writeCarry c ctl v =
      let x := s.carry c
      { s with carries := s.carries.setIfInBounds c
                (if ctl then { x with valid := v.getLsbD 31, wide := v.getLsbD 0 } else { x with value := v }) } := by
  simp [State.writeCarry, State.holdOr, State.holds, h, State.doHeld, State.carry]

theorem carry_of_carries {s t : State} (h : s.carries = t.carries) (k : Nat) : s.carry k = t.carry k := by
  rw [State.carry, State.carry, h]

theorem carry_setCarry (s : State) (x : Carry) {c k : Nat} (hk : k < 4) :
    ({ s with carries := s.carries.setIfInBounds c x } : State).carry k = if k = c then x else s.carry k := by
  unfold State.carry
  rw [Vector.getElem?_setIfInBounds]
  by_cases e : k = c
  · subst e
    simp [hk]
  · simp [e, Ne.symm e]

/-! ### Slots -/

theorem estStored_eq (v : Word) :
    estStored v = if v.getLsbD 31 = true ∨ e10Value v.toNat = .nan then 0 else v := by
  have nan : (e10Value v.toNat).isNan = true ↔ e10Value v.toNat = .nan := by
    cases e10Value v.toNat <;> simp [Num.isNan]
  simp only [estStored, Bool.or_eq_true, nan]

theorem slotStore_of_sound {s : State} {i : Nat} (sound : ∀ e ∈ s.ecc, e.target = .scale → e.word / 2 ≠ i) :
    s.ecc.filter (fun e => e.target == .scale && e.word / 2 == i) = [] := by
  refine List.filter_eq_nil_iff.mpr fun e he => ?_
  simpa using sound e he

theorem settle_sticky_lane (s t : State) {q : Nat} (h0 : q ≠ 0) (h7 : q ≠ 7) : (s.settle t).sticky q = t.sticky q := by
  have cap : (State.settleCap s t).sticky q = t.sticky q := by
    unfold State.settleCap
    split
    · rfl
    · rw [sticky_mark _ _ _ _ (by decide), if_neg h0.symm]
      rfl
  have down (u : State) : (State.settleDown u).sticky q = u.sticky q := by
    unfold State.settleDown State.refuseTriggers
    split
    · split
      · rfl
      · rw [sticky_mark _ _ _ _ (by decide), if_neg h7.symm]
        rfl
    · rfl
  rw [settle_eq]
  split
  · rfl
  · rw [State.sticky, State.page, settleFirst_pages]
    exact (down _).trans cap

theorem dupCheck_slot (s : State) (i j : Nat) : (s.dupCheck i).slot j = s.slot j := by
  unfold State.dupCheck
  dsimp only
  split <;> rfl

theorem ofNat_bits (v : Word) {hi lo n : Nat} (h : n = hi + 1 - lo) : BitVec.ofNat n (bits v hi lo) = v.extractLsb' lo n := by
  subst h
  apply BitVec.eq_of_toNat_eq
  simp [bits, Nat.shiftRight_eq_div_pow]

/-- The fields that SLOT_CTL stores as written (R435). -/
theorem ctl_fields (x : ScaleSlot) (v : Word) : (x.ctl v).valid = v.getLsbD 15 ∧ (x.ctl v).key = v.extractLsb' 16 16 ∧
    (x.ctl v).h = v.extractLsb' 11 3 ∧ (x.ctl v).decay = v.extractLsb' 7 4 := by
  unfold ScaleSlot.ctl
  simp only [ofNat_bits v (hi := 31) (lo := 16) (n := 16) rfl, ofNat_bits v (hi := 13) (lo := 11) (n := 3) rfl,
    ofNat_bits v (hi := 10) (lo := 7) (n := 4) rfl]
  split
  · next on => exact ⟨(Bool.and_eq_true_iff.mp on).1.symm, rfl, rfl, rfl⟩
  · repeat' split
    all_goals exact ⟨rfl, rfl, rfl, rfl⟩

theorem ctl_of_new {x : ScaleSlot} {v : Word} (on : v.getLsbD 15 = true) (new : x.valid = false) :
    (x.ctl v).cold = true ∧ (x.ctl v).warmup = 0 ∧ (x.ctl v).est = 0 ∧ (x.ctl v).age = 0 ∧ (x.ctl v).boost = 0 := by
  simp [ScaleSlot.ctl, on, new, ScaleSlot.reset]

theorem ctl_of_kept {x : ScaleSlot} {v : Word} (kept : v.getLsbD 15 = false ∨ x.valid = true) :
    (x.ctl v).est = x.est ∧ (x.ctl v).boost = min 64 (bits v 6 0) ∧
      (v.getLsbD 14 = true → (x.ctl v).cold = true ∧ (x.ctl v).warmup = 0) ∧
      (v.getLsbD 14 = false → x.cold = true → x.pinned = false → (x.ctl v).cold = false ∧ (x.ctl v).age = 0) := by
  have old : (v.getLsbD 15 && !x.valid) = false := by
    obtain off | valid := kept
    · rw [off, Bool.false_and]
    · rw [valid, Bool.not_true, Bool.and_false]
  unfold ScaleSlot.ctl
  simp only [old, Bool.false_eq_true, if_false]
  refine ⟨?_, ?_, fun cold => ?_, fun warm cold pinned => ?_⟩
  · repeat' split
    all_goals rfl
  · repeat' split
    all_goals rfl
  · simp only [cold, if_true, and_self]
  · simp only [warm, cold, pinned, Bool.not_false, Bool.and_self, Bool.false_eq_true, if_false, if_true, and_self]

/-- A key of the slot is the one that SLOT_CTL writes. -/
theorem unstage_key (x : ScaleSlot) : x.unstage.key = x.key := rfl

/-- What SLOT_CTL, SLOT_EST and SLOT_AGE make of a slot. -/
def ScaleSlot.written (x : ScaleSlot) (r : SlotReg) (v : Word) : ScaleSlot :=
  match r with
  | .ctl => (x.ctl v).unstage
  | .est => ({ x with est := estStored v } : ScaleSlot).unstage
  | .age => (x.ageWrite v).unstage

theorem written_unstaged (x : ScaleSlot) (r : SlotReg) (v : Word) :
    (x.written r v).obs = 0 ∧ (x.written r v).used = false ∧ (x.written r v).ovf = false := by
  cases r <;> exact ⟨rfl, rfl, rfl⟩

theorem slotWrite_of_free {s : State} (r : SlotReg) (v : Word) (works : s.works = true)
    (named : bits (s.reg 5 0x040) 10 0 < 1024) (due : s.scale.walkDue = []) (busy : s.scale.walkBusy = false)
    (retry : s.issue.retry = none) :
    s.slotWrite r v = s.slotStore (bits (s.reg 5 0x040) 10 0) r v := by
  have inside : ¬ Config.scaleSlots ≤ bits (s.reg 5 0x040) 10 0 := Nat.not_le.mpr named
  simp [State.slotWrite, works, inside, State.holdOr, State.holds, retry, State.walkHolds, due, busy, State.doHeld]

theorem slotWrite_of_held {s : State} (r : SlotReg) (v : Word) (works : s.works = true)
    (named : bits (s.reg 5 0x040) 10 0 < 1024)
    (waits : s.scale.walkDue ≠ [] ∨ s.scale.walkBusy = true ∨ s.issue.retry ≠ none) :
    s.slotWrite r v = { s with issue := { s.issue with held := s.issue.held ++ [.slot (bits (s.reg 5 0x040) 10 0) r v] } } := by
  have inside : ¬ Config.scaleSlots ≤ bits (s.reg 5 0x040) 10 0 := Nat.not_le.mpr named
  have holds : s.holds (.slot (bits (s.reg 5 0x040) 10 0) r v) = true := by
    simp only [State.holds, State.walkHolds, Bool.or_eq_true, Option.isSome_iff_ne_none, Bool.not_eq_true',
      List.isEmpty_eq_false_iff]
    tauto
  simp [State.slotWrite, works, inside, State.holdOr, holds]

/-- A write to a slot none of whose words has an error. -/
theorem slotStore_slot {s : State} {i : Nat} (canon : s.canon = true)
    (sound : ∀ e ∈ s.ecc, e.target = .scale → e.word / 2 ≠ i) (r : SlotReg) (v : Word) (j : Nat) :
    (s.slotStore i r v).slot j = if j = i then (s.slot i).written r v else s.slot j := by
  obtain ⟨-, -, -, -, -, -, slots, -⟩ := canon_arrays canon
  unfold State.slotStore
  rw [slotStore_of_sound sound]
  cases r with
  | ctl =>
    dsimp only [List.foldl_nil]
    split
    · exact State.slot_setSlot s slots i j _
    · rw [dupCheck_slot]
      exact State.slot_setSlot s slots i j _
  | est => exact State.slot_setSlot s slots i j _
  | age => exact State.slot_setSlot s slots i j _

/-- No duplicate is marked but by a SLOT_CTL that gives the slot another key (R174). -/
theorem slotStore_pages {s : State} {i : Nat} (sound : ∀ e ∈ s.ecc, e.target = .scale → e.word / 2 ≠ i) (r : SlotReg)
    (v : Word) (same : r = .ctl → (s.slot i).valid = true ∧ (s.slot i).key = v.extractLsb' 16 16) :
    (s.slotStore i r v).pages = s.pages := by
  unfold State.slotStore
  rw [slotStore_of_sound sound]
  cases r with
  | ctl =>
    obtain ⟨valid, key⟩ := same rfl
    obtain ⟨-, written, -⟩ := ctl_fields (s.slot i) v
    dsimp only [List.foldl_nil]
    rw [unstage_key, written, valid, key, if_pos (by simp)]
    rfl
  | est => rfl
  | age => rfl

/-- The command of a slot register, once page 5 takes it. -/
def SlotReg.write (r : SlotReg) (w : Writer) (v : Word) : Instr :=
  match r with
  | .ctl => .slotCtl w v
  | .est => .slotEst w v
  | .age => .slotAge w v

theorem exec_slotWrite {s : State} {w : Writer} (takes : s.takes w 5 = true) (r : SlotReg) (v : Word) :
    exec (r.write w v) s = .next (s.settle (s.slotWrite r v)) := by
  cases r <;> exact act_write takes _

/-! ### Seeds -/

theorem half_putHalf (x : BitVec 64) (hi : Bool) (v : Word) {n : Nat} (h : n < 2) :
    (putHalf x hi v).extractLsb' (32 * n) 32 = if n = hi.toNat then v else x.extractLsb' (32 * n) 32 := by
  have low (a b : Word) : (a ++ b).extractLsb' 0 32 = b :=
    (BitVec.extractLsb'_append_eq_of_add_le (by decide)).trans BitVec.extractLsb'_eq_self
  have high (a b : Word) : (a ++ b).extractLsb' 32 32 = a :=
    (BitVec.extractLsb'_append_eq_of_le (by decide)).trans BitVec.extractLsb'_eq_self
  obtain rfl | rfl : n = 0 ∨ n = 1 := by omega
  · cases hi
    · exact low _ v
    · exact low v _
  · cases hi
    · exact high _ v
    · exact high v _

/-- Half `n` of the seeds S0 and S1 taken together, low half first. -/
def seedHalf (s0 s1 : BitVec 64) (n : Nat) : Word := (if n < 2 then s0 else s1).extractLsb' (32 * (n % 2)) 32

theorem seedHalf_put (s0 s1 : BitVec 64) (v : Word) {k n : Nat} (hk : k < 4) (hn : n < 4) :
    seedHalf (if k < 2 then putHalf s0 (k == 1) v else s0) (if k < 2 then s1 else putHalf s1 (k == 3) v) n =
      if n = k then v else seedHalf s0 s1 n := by
  unfold seedHalf
  by_cases low : n < 2
  · simp only [low, if_true]
    by_cases k2 : k < 2
    · rw [if_pos k2, half_putHalf _ _ _ (Nat.mod_lt _ (by decide))]
      congr 1
      simp only [eq_iff_iff]
      obtain rfl | rfl : k = 0 ∨ k = 1 := by omega
      · simp; omega
      · simp; omega
    · rw [if_neg k2, if_neg (by omega)]
  · simp only [low, if_false]
    by_cases k2 : k < 2
    · rw [if_pos k2, if_neg (by omega)]
    · rw [if_neg k2, half_putHalf _ _ _ (Nat.mod_lt _ (by decide))]
      congr 1
      simp only [eq_iff_iff]
      obtain rfl | rfl : k = 2 ∨ k = 3 := by omega
      · simp; omega
      · simp; omega

theorem writeStaged_twist (s : State) (k : Nat) (v : Word) : (s.writeStaged k v).twist = { s.twist with
    staged0 := if k < 2 then putHalf s.twist.staged0 (k == 1) v else s.twist.staged0
    staged1 := if k < 2 then s.twist.staged1 else putHalf s.twist.staged1 (k == 3) v
    pending := true } := by
  unfold State.writeStaged
  dsimp only
  split <;> rfl

theorem seedWrite_of_idle {s : State} (running : s.issue.running = false) (run : s.edging.run = none)
    (f : TwistUnit → TwistUnit) : s.seedWrite f = { s with twist := f s.twist } := by
  simp [State.seedWrite, running, run]

theorem seedWrite_of_busy {s : State} (busy : s.issue.running = true ∨ s.edging.run ≠ none) (f : TwistUnit → TwistUnit) :
    s.seedWrite f = s.mark 6 0 := by
  simp only [State.seedWrite, Bool.or_eq_true, Option.isSome_iff_ne_none, if_pos busy]

theorem writeLive_twist {s : State} (running : s.issue.running = false) (run : s.edging.run = none) (k : Nat) (v : Word) :
    (s.writeLive k v).twist = { s.twist with
      s0 := if k < 2 then putHalf s.twist.s0 (k == 1) v else s.twist.s0
      s1 := if k < 2 then s.twist.s1 else putHalf s.twist.s1 (k == 3) v } := by
  rw [State.writeLive, seedWrite_of_idle running run]
  dsimp only
  split <;> rfl

end Sys2Proof.Machine
open Sys2Proof Sys2Proof.Machine

/-- Settles O49: each write that its page takes acts on its own register at once, or is marked or held, and settling
touches none of these registers. -/
theorem laneAndTwistRegs : Obligations.LaneAndTwistRegs := by
  unfold Obligations.LaneAndTwistRegs
  intro s w v canon m most
  refine ⟨fun takes => ⟨fun stopped => ⟨⟨_, act_write takes _, ?_, fun above => ?_⟩, ⟨_, act_write takes _, ?_, fun above => ?_⟩⟩,
    ?_, fun c ctl => ⟨fun free => ⟨_, act_write takes _, fun k hk => ?_⟩, fun waits => ?_⟩⟩, ?_, ?_⟩
  · rw [writeVl_of_stopped stopped, settle_ctx, markIf_ctx]
    rfl
  · rw [writeVl_of_stopped stopped]
    exact settle_sticky_markIf _ _ 2 0 (decide_eq_true above) (by decide) (by decide)
  · rw [writeRowshape_of_stopped stopped, settle_ctx, markIf_ctx]
    rfl
  · rw [writeRowshape_of_stopped stopped]
    exact settle_sticky_markIf _ _ 2 1 (decide_eq_true above) (by decide) (by decide)
  · have marked : (s.settle (s.mark 2 3)).ctx = s.ctx ∧ ((s.settle (s.mark 2 3)).sticky 2).getLsbD 3 = true :=
      ⟨settle_ctx _ _, sticky_settle _ _ _ _ (sticky_mark_self s 2 3 (by decide) (by decide))⟩
    rintro busy c (rfl | rfl)
    · refine ⟨_, act_write takes _, ?_⟩
      rwa [State.writeVl, stoppedWrite_lanes_of_busy busy]
    · refine ⟨_, act_write takes _, ?_⟩
      rwa [State.writeRowshape, stoppedWrite_lanes_of_busy busy]
  · rw [carry_of_carries (settle_carries _ _), writeCarry_of_free free, carry_setCarry s _ hk]
    split
    · next same => rw [same]
    · rfl
  · exact (act_write takes _).trans (by rw [State.writeCarry, holdOr_of_retry waits])
  · intro i x writes takes works named
    refine ⟨fun due busy retry sound => ?_, fun waits r c rc => ?_⟩
    · have stores (r : SlotReg) : s.slotWrite r v = s.slotStore i r v := slotWrite_of_free r v works named due busy retry
      have slot (r : SlotReg) (j : Nat) : (s.settle (s.slotWrite r v)).slot j = if j = i then x.written r v else s.slot j := by
        rw [slot_of_scale (settle_scale _ _), stores, slotStore_slot canon sound]
      have wrote (r : SlotReg) {c : Instr} (hc : c = r.write w v) {p : ScaleSlot → Prop} (hp : p (x.written r v)) :
          writes c p := by
        refine ⟨_, hc ▸ exec_slotWrite takes r v, ?_⟩
        simp only [slot, if_pos]
        obtain ⟨obs, used, ovf⟩ := written_unstaged x r v
        exact ⟨hp, obs, used, ovf, fun j other => if_neg other⟩
      clear_value writes
      obtain ⟨valid, key, h, decay⟩ := ctl_fields x v
      refine ⟨wrote .ctl rfl ⟨valid, key, h, decay, ctl_of_new, ctl_of_kept⟩,
        wrote .est rfl ⟨rfl, rfl, estStored_eq v⟩, wrote .age rfl ⟨rfl, rfl, rfl, rfl, ofNat_bits v rfl⟩, fun c hc => ?_⟩
      have quiet (r : SlotReg) (same : r = .ctl → x.valid = true ∧ x.key = v.extractLsb' 16 16) :
          ∃ t, exec (r.write w v) s = .next t ∧ t.sticky 5 = s.sticky 5 := by
        refine ⟨_, exec_slotWrite takes r v, ?_⟩
        rw [settle_sticky_lane _ _ (by decide) (by decide), stores, State.sticky, State.page,
          slotStore_pages sound r v same]
        rfl
      obtain rfl | rfl | ⟨rfl, same⟩ := hc
      · exact quiet .est nofun
      · exact quiet .age nofun
      · exact quiet .ctl fun _ => same
    · have e : c = r.write w v := by
        simp only [List.mem_cons, Prod.mk.injEq, List.not_mem_nil, or_false] at rc
        obtain ⟨rfl, rfl⟩ | ⟨rfl, rfl⟩ | ⟨rfl, rfl⟩ := rc <;> rfl
      rw [e, exec_slotWrite takes, slotWrite_of_held r v works named waits]
  · intro takes half live staged
    refine ⟨fun k => ⟨_, act_write takes _, ?_⟩, fun running run => ⟨fun k => ⟨_, act_write takes _, ?_⟩, fun hi => ?_⟩,
      fun busy c hc => ?_⟩
    · rw [settle_twist, writeStaged_twist]
      exact ⟨rfl, rfl, fun n hn => ⟨rfl, seedHalf_put _ _ v k.isLt hn⟩⟩
    · rw [settle_twist, writeLive_twist running run]
      exact ⟨rfl, rfl, fun n hn => ⟨rfl, seedHalf_put _ _ v k.isLt hn⟩⟩
    · refine (act_write takes _).trans ?_
      rw [State.writeStep, seedWrite_of_idle running run]
      rfl
    · obtain ⟨k, rfl⟩ | ⟨hi, rfl⟩ := hc
      · exact (act_write takes _).trans (by rw [State.writeLive, seedWrite_of_busy busy])
      · exact (act_write takes _).trans (by rw [State.writeStep, seedWrite_of_busy busy])
end

section
/-!
SUPPORT. What a transfer of the M slot hands to the fabric port, and the descriptors that it post-increments (R67, R101).
Settles O14.
-/

namespace Sys2Proof.Machine

/-! ### Descriptors -/

theorem descAt_setDesc (c : Ctx) {k : Nat} (hk : k < 16) (d : Desc) (n : Nat) :
    (c.setDesc k d).descAt n = if n = k then d else c.descAt n := by
  unfold Ctx.descAt Ctx.setDesc
  rw [Vector.getElem?_setIfInBounds]
  by_cases e : n = k
  · subst e
    simp [hk]
  · simp [e, Ne.symm e]

@[simp] theorem setS_descAt (c : Ctx) (k : BitVec 5) (v : BitVec 64) (n : Nat) : (c.setS k v).descAt n = c.descAt n := by
  unfold Ctx.setS
  split <;> rfl

@[simp] theorem setEs_descAt (c : Ctx) (k : Nat) (v : Word) (n : Nat) : (c.setEs k v).descAt n = c.descAt n := by
  unfold Ctx.setEs
  split <;> rfl

/-- A part of a context that an update keeps is kept in every stream. -/
theorem modCtx_keeps {α : Type} (P : Ctx → α) {f : Ctx → Ctx} (h : ∀ c, P (f c) = P c) (s : State) (st st' : Stream) :
    P ((s.modCtx st f).ctxOf st') = P (s.ctxOf st') := by
  cases st with
  | main =>
    cases st' with
    | main => exact h s.ctx
    | edge => rfl
  | edge =>
    cases st' with
    | main => rfl
    | edge =>
      cases run : s.edging.run with
      | none => simp [State.modCtx, State.ctxOf, run]
      | some r => simpa [State.modCtx, State.ctxOf, run] using h r.ctx

@[simp] theorem bump_ctxOf (s : State) (st : Stream) (c : Ctr) (n : Nat) : (s.bump c n).ctxOf st = s.ctxOf st := by
  cases st <;> simp [State.ctxOf]

theorem waitEffect_descAt (e : Env) (t : State) (a : BitVec 64) (n : Nat) :
    ((waitEffect e t a).ctxOf e.st).descAt n = (t.ctxOf e.st).descAt n := by
  have scalar (u : State) (v : BitVec 64) : ((u.modCtx e.st fun c => c.setS e.b.s.sd v).ctxOf e.st).descAt n =
      (u.ctxOf e.st).descAt n := modCtx_keeps (fun c => c.descAt n) (fun c => setS_descAt c _ v n) u _ _
  unfold waitEffect
  dsimp only
  repeat' split
  all_goals simp [scalar]

/-- The S slot writes no descriptor but the one that SETD names. -/
theorem sEffect_descAt (e : Env) (t : State) {n : Nat} (h : e.b.s.major.toNat = 0x13 → e.b.s.imm.toNat % 16 ≠ n) :
    ((sEffect e t).ctxOf e.st).descAt n = (t.ctxOf e.st).descAt n := by
  have keeps {f : Ctx → Ctx} (k : ∀ c, (f c).descAt n = c.descAt n) (u : State) (st : Stream) :
      ((u.modCtx st f).ctxOf e.st).descAt n = (u.ctxOf e.st).descAt n := modCtx_keeps (fun c => c.descAt n) k u _ _
  have scalar (u : State) (st : Stream) (r : BitVec 5) (v : BitVec 64) :
      ((u.modCtx st fun c => c.setS r v).ctxOf e.st).descAt n = (u.ctxOf e.st).descAt n :=
    keeps (fun c => setS_descAt c r v n) u st
  unfold sEffect
  dsimp only
  split
  · simp [scalar]
  · split
    · simp only [goTo_ctxOf, setvlEffect, markIf_ctxOf]
      refine keeps (fun c => ?_) t _
      rw [setS_descAt]
      rfl
    · simp only [goTo_ctxOf, setrowEffect, markIf_ctxOf]
      refine keeps (fun c => ?_) t _
      rw [setS_descAt]
      rfl
    · rw [goTo_ctxOf]
      exact keeps (fun c => setEs_descAt c _ _ n) t _
    next major =>
      rw [goTo_ctxOf]
      refine keeps (fun c => ?_) t _
      rw [descAt_setDesc c (Nat.mod_lt _ (by decide)), if_neg (h major).symm]
    · rw [goTo_ctxOf]
      refine keeps (fun c => ?_) t _
      rfl
    · simp [scalar]
    · simp
    · split
      · simp
      · split <;> simp [scalar]
    · rw [waitEffect_descAt, setPc_ctxOf]
    · split
      · simp
      · simp [State.dropPicot, scalar]
    · split
      · simp only [State.takeDir, State.setPc, modIssue_ctxOf, scalar]
      · split
        · simp
        · simp [scalar]
    · rw [goTo_ctxOf]
      cases e.st <;> rfl
    · rw [State.stopAt, modIssue_ctxOf]
    · simp

/-- A bundle that executes writes no descriptor twice (R67, R111). -/
theorem setd_misses_post {s : State} {i : Issue} (clear : Clear s i) {n : Nat} (posted : n ∈ mPosts i.bundle.m) :
    i.bundle.s.major.toNat = 0x13 → i.bundle.s.imm.toNat % 16 ≠ n := by
  have legal := clear.legal
  simp only [State.legalHere, regClash, Bool.and_eq_true, Bool.not_eq_true', Bool.or_eq_false_iff] at legal
  obtain ⟨⟨⟨⟨-, -, clash⟩, -⟩, -⟩, -⟩ := legal
  rintro major rfl
  have setd : i.bundle.s.major = 0x13 := BitVec.eq_of_toNat_eq major
  simp [setd, posted] at clash

/-- The descriptor after a post-increment (R67). -/
theorem posted_descAt {s : State} {i : Issue} (clear : Clear s i) {n : Nat} (posted : n ∈ mPosts i.bundle.m) :
    ((s.settle (s.executed i)).ctxOf i.stream).descAt n = ((s.env i).mCtx (s.ctxOf i.stream)).descAt n := by
  rw [settle_ctxOf, executed_ctxOf]
  refine (sEffect_descAt (s.env i) (s.beforeS i) (setd_misses_post clear posted)).trans ?_
  rw [State.env, beforeS_ctxOf s i (canOffer_run clear.offered)]
  rfl

theorem mCtx_desc {e : Env} (pi : e.b.m.pi = 1) (c : Ctx) : (e.mCtx c).descAt e.b.m.dsc.toNat = e.desc.post := by
  have n : e.b.m.dsc.toNat < 16 := e.b.m.dsc.isLt
  have own (c : Ctx) : (c.setDesc e.dscN e.desc.post).descAt e.b.m.dsc.toNat = e.desc.post :=
    (descAt_setDesc c n _ _).trans (if_pos rfl)
  unfold Env.mCtx Env.postCtx
  simp only [if_pos pi]
  split
  · rw [descAt_setDesc _ (Nat.mod_lt _ (by decide)), if_neg (by unfold Env.dscN; omega)]
    exact own _
  · exact own _

theorem mCtx_desc' {e : Env} (pi : e.b.m.pi = 1) (low : e.b.m.major.toNat ≤ 2) (mx : (fmtOf e.b.m.mfmt).isMx = true)
    (c : Ctx) : (e.mCtx c).descAt ((e.b.m.dsc.toNat + 1) % 16) = e.desc'.post := by
  unfold Env.mCtx Env.postCtx
  simp only [if_pos pi, low, mx, decide_true, Bool.and_self, if_true]
  exact (descAt_setDesc _ (Nat.mod_lt _ (by decide)) _ _).trans (if_pos rfl)

/-! ### The queued transfer -/

/-- The nine majors that hand a transfer to the port. -/
def Transfers (m : MSlot) : Prop := m.major.toNat ∈ [1, 2, 3, 4, 13, 15, 16, 17, 18]

theorem mRest_xfers {e : Env} (h : Transfers e.b.m) (o : MOut) (t : State) : (mRest e o t).xfers = t.xfers := by
  have writes : ∀ k ∈ [1, 2, 3, 4, 13, 15, 16, 17, 18], e.b.m.major.toNat = k → (mRest e o t).xfers = t.xfers := by
    simp only [List.forall_mem_cons]
    refine ⟨?_, ?_, ?_, ?_, ?_, ?_, ?_, ?_, ?_, by simp⟩
    all_goals
      intro major
      unfold mRest
      simp [major, apply_ite State.xfers]
  exact writes _ h rfl

@[simp] theorem beginLoad_xfers (s : State) (m : MSlot) : (s.beginLoad m).xfers = s.xfers := by
  have measNext (t : State) : t.measNext.xfers = t.xfers := by
    unfold State.measNext
    repeat' split
    all_goals rfl
  have startLoad (n : Nat) : (s.startLoad n).xfers = s.xfers := by
    unfold State.startLoad
    dsimp only
    split <;> rfl
  unfold State.beginLoad
  dsimp only
  split
  · rw [State.measCancel, measNext]
    exact startLoad _
  · rfl

theorem beforeS_pushed {s : State} {i : Issue} (h : Transfers i.bundle.m) :
    (s.beforeS i).xfers = (mHand (s.env i) .normal (s.vectored i)).xfers := by
  unfold State.beforeS
  rw [mRest_xfers h, beginLoad_xfers]
  rfl

theorem push_xfers (e : Env) (t : State) (op : XferOp) (slabs : List Nat) : (e.push t op slabs).xfers =
    t.xfers ++ [⟨e.st, e.s.pcOf e.st, e.s.issue.count, op, slabs, false, t.absentNow⟩] := rfl

/-- The transfer that the M slot of an issue hands over. -/
def State.handed (s : State) (i : Issue) (op : XferOp) (slabs : List Nat) : Xfer :=
  ⟨i.stream, s.pcOf i.stream, s.issue.count, op, slabs, false, s.absentNow⟩

theorem vectored_push (s : State) (i : Issue) (op : XferOp) (slabs : List Nat) :
    ((s.env i).push (s.vectored i) op slabs).xfers = s.xfers ++ [s.handed i op slabs] := by
  rw [push_xfers, vectored_keeps State.xfers (fun _ => rfl), vectored_keeps State.absentNow (fun _ => rfl)]
  rfl

section

variable {e : Env} (o : MOut) (t : State)

theorem mHand_ld (h : e.b.m.major.toNat = 1) : mHand e o t =
    e.push t (match fmtOf e.b.m.mfmt with | .mx x => e.loadMx x | _ => e.loadPlain) e.loadSlabs := by
  unfold mHand
  dsimp only
  rw [h]
  generalize fmtOf e.b.m.mfmt = f
  cases f <;> rfl

/-- An MX store that names a byte twice counts one free value. -/
theorem mHand_st (h : e.b.m.major.toNat = 2) : ∃ n, mHand e o t = e.push { t with freeCount := n }
    (match fmtOf e.b.m.mfmt with | .mx x => e.storeMx x t.freeCount | _ => e.storePlain) [] := by
  unfold mHand
  dsimp only
  rw [h]
  generalize fmtOf e.b.m.mfmt = f
  cases f with
  | mx x =>
    show ∃ n, e.push (if e.storeClash x then { t with freeCount := t.freeCount + 1 } else t) (e.storeMx x t.freeCount) [] =
      e.push { t with freeCount := n } (e.storeMx x t.freeCount) []
    split
    · exact ⟨_, rfl⟩
    · exact ⟨t.freeCount, rfl⟩
  | _ => exact ⟨t.freeCount, rfl⟩

theorem mHand_gather (h : e.b.m.major.toNat = 3) : mHand e o t = e.push t e.loadPlain e.loadSlabs := by
  simp [mHand, h]

theorem mHand_scatter (h : e.b.m.major.toNat = 4) : mHand e o t = e.push t e.storePlain [] := by
  simp [mHand, h]

theorem mHand_tbld (h : e.b.m.major.toNat = 13) : mHand e o t = e.push t
    (.tbld (e.b.m.imm.toNat % 16) (t.mslot (e.b.m.imm.toNat % 16)).target e.desc.base.toNat) [] := by
  simp [mHand, h, tbldStart]

theorem mHand_scld (h : e.b.m.major.toNat = 15) : mHand e o t = e.push t (.scld e.desc.base.toNat) [] := by
  simp [mHand, h]

theorem mHand_scst (h : e.b.m.major.toNat = 16) : mHand e o t = e.push t (.scst e.desc.base.toNat) [] := by
  simp [mHand, h]

theorem mHand_lgst (h : e.b.m.major.toNat = 17) :
    mHand e o t = e.push t (.lgst e.b.m.imm.toNat e.desc.base.toNat) [] := by
  simp [mHand, h]

theorem mHand_lgld (h : e.b.m.major.toNat = 18) :
    mHand e o t = e.push t (.lgld e.b.m.imm.toNat e.desc.base.toNat) [] := by
  simp [mHand, h]

end

/-- A clear bundle whose M slot hands over a transfer: the queue, and the descriptors with PI. -/
theorem exec_transfer {c : Instr} {k : Nat} {i : Issue} {s : State} {x : Xfer} (row : c.row = some (.m k, i))
    (major : i.bundle.m.major.toNat = k) (clear : Clear s i) (nine : Transfers i.bundle.m)
    (hands : (mHand (s.env i) .normal (s.vectored i)).xfers = s.xfers ++ [x]) :
    ∃ t, exec c s = .next t ∧ t.xfers = s.xfers ++ [x] ∧
      (i.bundle.m.pi = 1 → (t.ctxOf i.stream).descAt i.bundle.m.dsc.toNat = (s.env i).desc.post) ∧
      (i.bundle.m.pi = 1 → i.bundle.m.major.toNat ≤ 2 → (fmtOf i.bundle.m.mfmt).isMx = true →
        (t.ctxOf i.stream).descAt ((i.bundle.m.dsc.toNat + 1) % 16) = (s.env i).desc'.post) := by
  have wf : c.wf = true := by
    simp only [Instr.wf, row]
    exact beq_iff_eq.mpr major
  refine ⟨_, exec_of_clear row wf clear, ?_, fun pi => ?_, fun pi low mx => ?_⟩
  · rw [settle_xfers, executed_keeps State.xfers (fun _ => rfl), beforeS_pushed nine, hands]
  · rw [posted_descAt clear (by simp [mPosts, pi])]
    exact mCtx_desc pi _
  · rw [posted_descAt clear (by simp [mPosts, pi, low, mx])]
    exact mCtx_desc' pi low mx _

end Sys2Proof.Machine
open Sys2Proof Sys2Proof.Machine

/-- Settles O14: the M slot pushes one transfer on the port, and nothing else of the bundle touches the queue or a
descriptor that it post-increments. -/
theorem transfersQueued : Obligations.TransfersQueued := by
  unfold Obligations.TransfersQueued
  intro i s clear m e a queued
  have hands {c : Instr} {k : Nat} {ops : Nat → XferOp} {slabs : List Nat} (row : c.row = some (.m k, i))
      (major : m.major = BitVec.ofNat 6 k) (small : k < 64) (nine : Transfers m) (n : Nat)
      (h : (mHand e .normal (s.vectored i)).xfers = s.xfers ++ [s.handed i (ops n) slabs]) : queued c ops slabs := by
    have num : m.major.toNat = k := by
      rw [major, BitVec.toNat_ofNat, Nat.mod_eq_of_lt small]
    obtain ⟨t, next, xfers, desc, desc'⟩ := exec_transfer row num clear nine h
    exact ⟨t, n, next, xfers, desc, desc'⟩
  have num {k : Nat} (major : m.major = BitVec.ofNat 6 k) (small : k < 64) : e.b.m.major.toNat = k :=
    (congrArg BitVec.toNat major).trans (Nat.mod_eq_of_lt small)
  refine ⟨fun major => ?_, fun major => ?_, fun major => ?_, fun major => ?_, fun major => ?_, fun major => ?_,
    fun major => ?_, fun major => ?_, fun major => ?_⟩
  · refine hands rfl major (by decide) (by simp [Transfers, major]) 0 ?_
    rw [mHand_ld _ _ (num major (by decide))]
    exact vectored_push s i _ _
  · obtain ⟨n, pushes⟩ := mHand_st (e := e) .normal (s.vectored i) (num major (by decide))
    refine hands rfl major (by decide) (by simp [Transfers, major]) (s.vectored i).freeCount ?_
    rw [pushes]
    exact vectored_push s i _ _
  · refine hands rfl major (by decide) (by simp [Transfers, major]) 0 ?_
    rw [mHand_gather _ _ (num major (by decide))]
    exact vectored_push s i _ _
  · refine hands rfl major (by decide) (by simp [Transfers, major]) 0 ?_
    rw [mHand_scatter _ _ (num major (by decide))]
    exact vectored_push s i _ _
  · refine hands rfl major (by decide) (by simp [Transfers, major]) 0 ?_
    rw [mHand_tbld _ _ (num major (by decide)), vectored_keeps (fun t => t.mslot _) (fun _ => rfl)]
    exact vectored_push s i _ _
  · refine hands rfl major (by decide) (by simp [Transfers, major]) 0 ?_
    rw [mHand_scld _ _ (num major (by decide))]
    exact vectored_push s i _ _
  · refine hands rfl major (by decide) (by simp [Transfers, major]) 0 ?_
    rw [mHand_scst _ _ (num major (by decide))]
    exact vectored_push s i _ _
  · refine hands rfl major (by decide) (by simp [Transfers, major]) 0 ?_
    rw [mHand_lgst _ _ (num major (by decide))]
    exact vectored_push s i _ _
  · refine hands rfl major (by decide) (by simp [Transfers, major]) 0 ?_
    rw [mHand_lgld _ _ (num major (by decide))]
    exact vectored_push s i _ _
end

section
/-!
SUPPORT. What the lanes read of a run (R48, R49, R57), and the accesses of a strided store (R59). Settles O15.
-/

namespace Sys2Proof.Machine

/-! ### Runs -/

theorem getBytes_drop_take (m : SMap Byte) (lo n i w : Nat) (h : i + w ≤ n) :
    ((getBytes m lo n).drop i).take w = getBytes m (lo + i) w := by
  refine List.ext_getElem? fun j => ?_
  rw [List.getElem?_take, List.getElem?_drop, getBytes_getElem?, getBytes_getElem?]
  by_cases hj : j < w
  · rw [if_pos hj, if_pos (by omega), if_pos hj, Nat.add_assoc]
  · rw [if_neg hj, if_neg hj]

theorem cut_getBytes (m : SMap Byte) (lo cnt : Nat) {w : Nat} (hw : 0 < w) :
    cut w (getBytes m lo (cnt * w)) = (List.range cnt).map fun i => getBytes m (lo + i * w) w := by
  refine List.ext_getElem? fun i => ?_
  rw [cut_getElem? hw, List.getElem?_map]
  have len : (getBytes m lo (cnt * w)).length = cnt * w := by simp [getBytes]
  rw [len]
  by_cases hi : i < cnt
  · have room : w * i + w ≤ cnt * w := by
      rw [← Nat.mul_succ, Nat.mul_comm]
      exact Nat.mul_le_mul_right w hi
    rw [if_pos (by omega), getBytes_drop_take _ _ _ _ _ room, List.getElem?_range hi, Nat.mul_comm w i]
    rfl
  · have past : cnt * w ≤ w * i := by
      rw [Nat.mul_comm w i]
      exact Nat.mul_le_mul_right w (by omega)
    rw [if_neg (by omega), List.getElem?_eq_none (by simpa using hi)]
    rfl

/-- A sequence read in parts of `vm`, the last possibly shorter. -/
theorem flatMap_parts {α : Type} (g : Nat → α) {n vm : Nat} (hv : 0 < vm) :
    (List.range ((n + vm - 1) / vm)).flatMap (fun j => (List.range (min vm (n - j * vm))).map fun i => g (j * vm + i)) =
      (List.range n).map g := by
  have parts (k : Nat) : (List.range k).flatMap
      (fun j => (List.range (min vm (n - j * vm))).map fun i => g (j * vm + i)) = (List.range (min n (k * vm))).map g := by
    induction k with
    | zero => simp
    | succ k ih =>
      rw [List.range_succ, List.flatMap_append, ih, List.flatMap_singleton, Nat.succ_mul]
      by_cases below : k * vm ≤ n
      · rw [Nat.min_eq_right below, show min n (k * vm + vm) = k * vm + min vm (n - k * vm) by omega, List.range_add,
          List.map_append, List.map_map]
        rfl
      · rw [show n - k * vm = 0 by omega, Nat.min_eq_left (a := n) (b := k * vm) (by omega),
          Nat.min_eq_left (a := n) (b := k * vm + vm) (by omega)]
        simp
  rw [parts, Nat.min_eq_left]
  have most := Nat.div_add_mod (n + vm - 1) vm
  have rest := Nat.mod_lt (n + vm - 1) hv
  rw [Nat.mul_comm] at most
  omega

/-- The codes of `cnt` elements in slab `j` of the run that field `f` names. -/
def State.readPart (s : State) (st : Stream) (f : BitVec 8) (w j cnt : Nat) : List Nat :=
  match s.resolve st (Opnd.of f).h ((Opnd.of f).k + j) with
  | some (h, k) => (cut w (s.slabBytes h k (cnt * w))).map leNat
  | none => List.replicate cnt 0

theorem readRun_of_parts (s : State) (st : Stream) (f : BitVec 8) (w n : Nat) : readRun s st (Opnd.of f) w n =
    if n = 0 || s.vlmaxAt w = 0 then []
    else if f.getLsbD 7 then List.replicate n ((s.readPart st f w 0 1).head?.getD 0)
    else (List.range ((n + s.vlmaxAt w - 1) / s.vlmaxAt w)).flatMap fun j =>
      s.readPart st f w j (min (s.vlmaxAt w) (n - j * s.vlmaxAt w)) := rfl

theorem readPart_eq {s : State} (wf : SMap.wf 0 s.hoops = true) (st : Stream) (f : BitVec 8) {w j cnt : Nat} (hw : 0 < w)
    (least : cnt ≤ s.vlmaxAt w) :
    s.readPart st f w j cnt = (List.range cnt).map fun i => s.elem st f w (j * s.vlmaxAt w + i) := by
  refine List.ext_getElem? fun i => ?_
  rw [List.getElem?_map]
  by_cases hi : i < cnt
  · have slab : (j * s.vlmaxAt w + i) / s.vlmaxAt w = j := by
      rw [Nat.mul_comm, Nat.mul_add_div (by omega), Nat.div_eq_of_lt (by omega), Nat.add_zero]
    have place : (j * s.vlmaxAt w + i) % s.vlmaxAt w = i := by
      rw [Nat.mul_comm, Nat.mul_add_mod, Nat.mod_eq_of_lt (by omega)]
    simp only [List.getElem?_range hi, Option.map_some, State.elem, slab, place]
    unfold State.readPart
    split
    · next h k at_j => simp [at_j, State.slabBytes, slice_eq_getBytes _ _ wf, cut_getBytes _ _ _ hw, hi]
    · next none => simp [none, hi]
  · rw [List.getElem?_eq_none (l := List.range cnt) (by simpa using hi), Option.map_none]
    unfold State.readPart
    split
    · simp only [State.slabBytes, slice_eq_getBytes _ _ wf, cut_getBytes _ _ _ hw]
      simpa using hi
    · simpa using hi

/-- A source run of canonical storage is read element by element. -/
theorem readRun_eq {s : State} (wf : SMap.wf 0 s.hoops = true) (st : Stream) (f : BitVec 8) {w n : Nat} (hw : 0 < w)
    (room : 0 < n → 0 < s.vlmaxAt w) : readRun s st (Opnd.of f) w n = (List.range n).map (s.source st f w) := by
  rw [readRun_of_parts]
  split
  · next empty =>
    have none : n = 0 := by
      simp only [Bool.or_eq_true, decide_eq_true_eq] at empty
      omega
    simp [none]
  · next full =>
    simp only [Bool.or_eq_true, decide_eq_true_eq, not_or] at full
    unfold State.source
    split
    · rw [readPart_eq wf st f hw (by omega)]
      simp
    · rw [← flatMap_parts (s.elem st f w) (n := n) (vm := s.vlmaxAt w) (by omega)]
      congr 1
      funext j
      exact readPart_eq wf st f hw (Nat.min_le_left ..)

theorem active_eq (e : Env) (km : BitVec 3) : e.active km = (List.range e.vl).map (e.s.on km) := rfl

/-- The lengths of the stream leave room for their elements at every width. -/
theorem vlmaxAt_pos {s : State} {c : Ctx} (within : s.within c) (some : 0 < c.vl) {w : Nat}
    (hw : w = 1 ∨ w = 2 ∨ w = 4) : 0 < s.vlmaxAt w := by
  have room := within.1
  unfold State.vlmax State.vlmaxAt at room
  have panels : 0 < s.active := by
    by_contra none
    simp [show s.active = 0 by omega] at room
    omega
  unfold State.vlmaxAt
  rcases hw with rfl | rfl | rfl <;> omega

theorem codes_eq {e : Env} (wf : SMap.wf 0 e.s.hoops = true) (within : e.s.within e.ctx) (f : BitVec 8) {w : Nat}
    (hw : w = 1 ∨ w = 2 ∨ w = 4) : e.codes f w = (List.range e.vl).map (e.s.source e.st f w) :=
  readRun_eq wf e.st f (by omega) fun some => vlmaxAt_pos within some hw

/-! ### A strided store -/

theorem zipIdx_range_map {α : Type} (g : Nat → α) (n : Nat) :
    ((List.range n).map g).zipIdx = (List.range n).map fun j => (g j, j) := by
  refine List.ext_getElem? fun j => ?_
  by_cases hj : j < n
  · simp [hj]
  · simp [hj]

theorem filterMap_if {α β : Type} (p : α → Bool) (g : α → β) (l : List α) :
    l.filterMap (fun x => if p x then some (g x) else none) = (l.filter p).map g := by
  induction l with
  | nil => rfl
  | cons x t ih => by_cases h : p x = true <;> simp [h, ih]

/-- The elements of a store: the active ones in ascending order. -/
theorem storePlain_eq {e : Env} (wf : SMap.wf 0 e.s.hoops = true) (within : e.s.within e.ctx) :
    e.storePlain = storeOf (((List.range e.vl).filter (e.s.on e.b.m.km)).map fun j =>
      ⟨e.elemAddr e.indices (fmtOf e.b.m.mfmt).bytes j, leBytes (fmtOf e.b.m.mfmt).bytes
        (e.s.source e.st e.b.m.hs (fmtOf e.b.m.mfmt).bytes j)⟩) := by
  unfold Env.storePlain
  dsimp only
  rw [active_eq, codes_eq wf within _ (Fmt.bytes_cases _), List.zip_map', zipIdx_range_map, List.filterMap_map,
    ← filterMap_if]
  rfl

theorem mHand_st_plain {e : Env} (o : MOut) (t : State) (h : e.b.m.major.toNat = 2)
    (plain : (fmtOf e.b.m.mfmt).isMx = false) : mHand e o t = e.push t e.storePlain [] := by
  unfold mHand
  dsimp only
  rw [h]
  generalize fmtOf e.b.m.mfmt = f at plain ⊢
  cases f with
  | mx x => cases plain
  | _ => rfl

/-- An ST has no index vector, so its addresses step by the stride. -/
theorem elemAddr_of_st {e : Env} (h : e.b.m.major = 2) (idx : List Nat) (w j : Nat) :
    e.elemAddr idx w j = wrap48 (e.desc.base.toNat + (j : Int) * (e.ctx.stride e.b.m.esr.toNat).toInt * w) := by
  simp [Env.elemAddr, h]

theorem storeOf_eq (els : List StoreEl) {w : Nat} (h : ∀ x ∈ els, x.bytes.length = w) :
    storeOf els = .store (els.filter fun x => mapped x.addr w) (els.any fun x => !mapped x.addr w) := by
  have made : (els.filter fun x => mapped x.addr x.bytes.length) = els.filter fun x => mapped x.addr w :=
    List.filter_congr fun x hx => by rw [h x hx]
  unfold storeOf
  dsimp only
  rw [made]
  congr 1
  rw [Bool.eq_iff_iff, bne_iff_ne, Ne, List.length_filter_eq_length_iff]
  simp

end Sys2Proof.Machine
open Sys2Proof Sys2Proof.Machine

/-- Settles O15: the port takes the active elements as the lanes read them, at the stride's addresses. -/
theorem stridedStore : Obligations.StridedStore := by
  unfold Obligations.StridedStore
  intro i s clear canon within major plain m c w at_ els
  have num : (s.env i).b.m.major.toNat = 2 := congrArg BitVec.toNat major
  have made : (s.env i).storePlain = storeOf els := by
    refine (storePlain_eq (e := s.env i) (State.canon_hoops canon) within).trans (congrArg storeOf ?_)
    refine List.map_congr_left fun j _ => ?_
    rw [elemAddr_of_st (e := s.env i) major]
    rfl
  have pushes : (mHand (s.env i) .normal (s.vectored i)).xfers = s.xfers ++ [s.handed i (storeOf els) []] := by
    rw [mHand_st_plain _ _ num plain, made]
    exact vectored_push s i _ _
  obtain ⟨t, next, xfers, -⟩ := exec_transfer (c := .st i) rfl num clear (by simp [Transfers, major]) pushes
  refine ⟨t, next, ?_⟩
  rw [xfers, State.handed, storeOf_eq els (w := w)]
  intro x hx
  obtain ⟨j, -, rfl⟩ := List.mem_map.mp hx
  exact leBytes_length ..
end

section
/-!
SUPPORT. What a byte array of any form reads after a splice, and what a run reads after the lanes have written it (R48, R54,
R62, R83). Used by O16, O20, O25 and O26.
-/

namespace Sys2Proof.Machine

/-! ### A byte that an array holds, whatever the form of the rest -/

/-- The array reads `b` at `a`, and goes on to do so where other bytes are spliced in. -/
def Holds (m : SMap Byte) (a : Nat) (b : Byte) : Prop :=
  (b = 0 ∧ ∀ c ∈ m, c.1 ≠ a) ∨ ∃ x y, m = x ++ (a, b) :: y ∧ ∀ c ∈ x, c.1 < a

theorem get_append_of_below {x : SMap Byte} {a : Nat} (h : ∀ c ∈ x, c.1 < a) (y : SMap Byte) :
    SMap.get 0 (x ++ y) a = SMap.get 0 y a := by
  induction x with
  | nil => rfl
  | cons c t ih =>
    have below := h c (by simp)
    rw [List.cons_append, SMap.get, if_neg (by omega), if_neg (by omega)]
    exact ih fun c hc => h c (List.mem_cons_of_mem _ hc)

theorem Holds.get {m : SMap Byte} {a : Nat} {b : Byte} (h : Holds m a b) : m.get 0 a = b := by
  obtain ⟨rfl, absent⟩ | ⟨x, y, rfl, below⟩ := h
  · exact get_of_not_mem fun v hv => absent _ hv rfl
  · rw [get_append_of_below below, SMap.get, if_pos rfl]

theorem cellsOf_split {bs : List Byte} {lo a : Nat} (low : lo ≤ a) (high : a < lo + bs.length)
    (listed : bs.getD (a - lo) 0 ≠ 0) :
    ∃ x y, cellsOf lo bs = x ++ (a, bs.getD (a - lo) 0) :: y ∧ ∀ c ∈ x, c.1 < a := by
  have mem : (a, bs.getD (a - lo) 0) ∈ cellsOf lo bs := (mem_cellsOf bs lo _).mpr ⟨low, high, rfl, listed⟩
  induction bs generalizing lo with
  | nil => simp at listed
  | cons b t ih =>
    obtain rfl | above := Nat.eq_or_lt_of_le low
    · refine ⟨[], cellsOf (lo + 1) t, ?_, by simp⟩
      simp only [Nat.sub_self, List.getD_cons_zero] at listed ⊢
      rw [cellsOf, if_neg listed]
      rfl
    · have step : (b :: t).getD (a - lo) 0 = t.getD (a - (lo + 1)) 0 := by
        rw [show a - lo = a - (lo + 1) + 1 by omega, List.getD_cons_succ]
      rw [step] at listed ⊢
      have high' : a < lo + 1 + t.length := by
        rw [List.length_cons] at high
        omega
      obtain ⟨x, y, cells, below⟩ := ih (lo := lo + 1) above high' listed
        ((mem_cellsOf t (lo + 1) _).mpr ⟨above, high', rfl, listed⟩)
      rw [cellsOf]
      split
      · exact ⟨x, y, cells, below⟩
      · refine ⟨(lo, b) :: x, y, by rw [cells]; rfl, ?_⟩
        simp only [List.forall_mem_cons]
        exact ⟨above, below⟩

theorem mem_splice {m : SMap Byte} {lo : Nat} {bs : List Byte} {c : Nat × Byte} (h : c ∈ splice m lo bs) :
    (c ∈ m ∧ (c.1 < lo ∨ lo + bs.length ≤ c.1)) ∨
      (lo ≤ c.1 ∧ c.1 < lo + bs.length ∧ bs.getD (c.1 - lo) 0 = c.2 ∧ c.2 ≠ 0) := by
  simp only [splice, List.mem_append, List.mem_filter, decide_eq_true_eq, mem_cellsOf] at h
  tauto

/-- A splice writes its bytes. -/
theorem holds_splice_inside (m : SMap Byte) {lo a : Nat} {bs : List Byte} (low : lo ≤ a) (high : a < lo + bs.length) :
    Holds (splice m lo bs) a (bs.getD (a - lo) 0) := by
  by_cases zero : bs.getD (a - lo) 0 = 0
  · refine .inl ⟨zero, fun c hc same => ?_⟩
    obtain ⟨-, out⟩ | ⟨-, -, value, listed⟩ := mem_splice hc
    · omega
    · rw [same] at value
      exact listed (value.symm.trans zero)
  · obtain ⟨x, y, cells, below⟩ := cellsOf_split low high zero
    refine .inr ⟨(m.filter fun c => c.1 < lo) ++ x, y ++ m.filter fun c => lo + bs.length ≤ c.1, ?_, ?_⟩
    · simp [splice, cells]
    · intro c hc
      obtain hc | hc := List.mem_append.mp hc
      · have out := (List.mem_filter.mp hc).2
        simp at out
        omega
      · exact below c hc

/-- A splice leaves the bytes beside it. -/
theorem Holds.splice {m : SMap Byte} {a lo : Nat} {b : Byte} {bs : List Byte} (h : Holds m a b)
    (out : a < lo ∨ lo + bs.length ≤ a) : Holds (splice m lo bs) a b := by
  obtain ⟨rfl, absent⟩ | ⟨x, y, rfl, below⟩ := h
  · refine .inl ⟨rfl, fun c hc same => ?_⟩
    obtain ⟨mem, -⟩ | ⟨low, high, -⟩ := mem_splice hc
    · exact absent c mem same
    · omega
  · refine .inr ?_
    by_cases before : a < lo
    · refine ⟨x.filter fun c => c.1 < lo, (y.filter fun c => c.1 < lo) ++ cellsOf lo bs ++
        (x ++ (a, b) :: y).filter fun c => lo + bs.length ≤ c.1, ?_, fun c hc => below c (List.mem_filter.mp hc).1⟩
      simp [Machine.splice, before]
    · have after : lo + bs.length ≤ a := by omega
      refine ⟨((x ++ (a, b) :: y).filter fun c => c.1 < lo) ++ cellsOf lo bs ++ x.filter fun c => lo + bs.length ≤ c.1,
        y.filter fun c => lo + bs.length ≤ c.1, ?_, fun c hc => ?_⟩
      · simp [Machine.splice, after]
      · simp only [List.mem_append (s := _ ++ _), List.mem_append (s := List.filter _ _), List.mem_filter, mem_cellsOf,
          decide_eq_true_eq] at hc
        obtain (⟨-, low⟩ | ⟨-, high, -⟩) | ⟨mem, -⟩ := hc
        · omega
        · omega
        · exact below c mem

/-! ### The bytes that a merge writes -/

theorem flatMap_getElem? {α β : Type} {f : α → List β} {w : Nat} (l : List α) (h : ∀ x ∈ l, (f x).length = w) {i b : Nat}
    (hb : b < w) : (l.flatMap f)[i * w + b]? = l[i]?.bind fun x => (f x)[b]? := by
  induction l generalizing i with
  | nil => simp
  | cons x t ih =>
    obtain ⟨len, rest⟩ := List.forall_mem_cons.mp h
    rw [List.flatMap_cons, List.getElem?_append, len]
    cases i with
    | zero => rw [Nat.zero_mul, Nat.zero_add, if_pos hb]; rfl
    | succ i =>
      rw [Nat.succ_mul, if_neg (by omega), show i * w + w + b - w = i * w + b by omega, ih rest]
      rfl

theorem flatMap_length {α β : Type} {f : α → List β} {w : Nat} (l : List α) (h : ∀ x ∈ l, (f x).length = w) :
    (l.flatMap f).length = l.length * w := by
  rw [List.length_flatMap, List.map_congr_left h]
  simp

/-- The bytes of one merged element. -/
def mergePiece (w : Nat) (p : List Byte × Option Nat) : List Byte :=
  match p.2 with
  | some v => leBytes w v
  | none => p.1

theorem mergeBytes_eq (w : Nat) (old : List Byte) (vals : List (Option Nat)) :
    mergeBytes w old vals = ((cut w old).zip vals).flatMap (mergePiece w) := by
  unfold mergeBytes
  congr 1

theorem cut_piece {α : Type} {w : Nat} (hw : 0 < w) {l : List α} {i : Nat} (h : i * w + w ≤ l.length) :
    (cut w l)[i]? = some ((l.drop (i * w)).take w) := by
  rw [cut_getElem? hw, Nat.mul_comm w i, if_pos (by omega)]

theorem cut_length {α : Type} {w n : Nat} (hw : 0 < w) {l : List α} (h : n * w ≤ l.length) : n ≤ (cut w l).length := by
  by_contra short
  have none : (cut w l)[(cut w l).length]? = none := List.getElem?_eq_none (Nat.le_refl _)
  have room : (cut w l).length * w + w ≤ l.length := by
    rw [← Nat.succ_mul]
    exact (Nat.mul_le_mul_right w (by omega)).trans h
  rw [cut_piece hw room] at none
  cases none

theorem mergePiece_length {w : Nat} (hw : 0 < w) {old : List Byte} {vals : List (Option Nat)}
    (room : vals.length * w ≤ old.length) : ∀ p ∈ (cut w old).zip vals, (mergePiece w p).length = w := by
  intro p hp
  obtain ⟨i, at_i⟩ := List.getElem?_of_mem hp
  obtain ⟨piece, code⟩ := List.getElem?_zip_eq_some.mp at_i
  obtain ⟨inside, -⟩ := List.getElem?_eq_some_iff.mp code
  have fits : i * w + w ≤ old.length := by
    rw [← Nat.succ_mul]
    exact (Nat.mul_le_mul_right w inside).trans room
  rw [cut_piece hw fits] at piece
  unfold mergePiece
  split
  · exact leBytes_length ..
  · rw [← Option.some.inj piece, List.length_take, List.length_drop]
    omega

theorem mergeBytes_length {w : Nat} (hw : 0 < w) {old : List Byte} {vals : List (Option Nat)}
    (room : vals.length * w ≤ old.length) : (mergeBytes w old vals).length = vals.length * w := by
  rw [mergeBytes_eq, flatMap_length _ (mergePiece_length hw room), List.length_zip, Nat.min_eq_right (cut_length hw room)]

/-- Byte `b` of element `i` of a merge: of the code given, else the old one. -/
theorem mergeBytes_getElem? {w : Nat} {old : List Byte} {vals : List (Option Nat)}
    (room : vals.length * w ≤ old.length) {i b : Nat} {x : Option Nat} (code : vals[i]? = some x) (hb : b < w) :
    (mergeBytes w old vals)[i * w + b]? = match x with
      | some v => (leBytes w v)[b]?
      | none => old[i * w + b]? := by
  have hw : 0 < w := by omega
  obtain ⟨inside, -⟩ := List.getElem?_eq_some_iff.mp code
  have fits : i * w + w ≤ old.length := by
    rw [← Nat.succ_mul]
    exact (Nat.mul_le_mul_right w inside).trans room
  rw [mergeBytes_eq, flatMap_getElem? _ (mergePiece_length hw room) hb,
    List.getElem?_zip_eq_some (z := (_, x)).mpr ⟨cut_piece hw fits, code⟩, Option.bind_some]
  cases x with
  | some v => rfl
  | none =>
    simp only [mergePiece, List.getElem?_take, List.getElem?_drop, if_pos hb]

/-- A slice is never short, whatever the form of the array. -/
theorem length_slice (m : SMap Byte) (lo n : Nat) : n ≤ (slice m lo n).length := by
  unfold slice
  extract_lets inside step r
  have covers : lo + n ≤ r.2 + r.1.length := by
    refine List.foldlRecOn inside step (motive := fun acc => lo + n ≤ acc.2 + acc.1.length) ?_ ?_
    · exact Nat.le_add_right ..
    · intro acc most c _
      simp only [step, List.length_cons, List.length_append, List.length_replicate]
      omega
  rw [List.length_append, List.length_replicate]
  omega

/-! ### A run written slab by slab -/

/-- What one step of a fold brings about, and the other steps keep, holds at the end. -/
theorem foldl_brings {σ β : Type} {step : σ → β → σ} {Q P : σ → Prop} {l : List β} {b : β} (mem : b ∈ l)
    (keep : ∀ t, ∀ x ∈ l, Q t → Q (step t x)) (bring : ∀ t, Q t → P (step t b))
    (leave : ∀ t, ∀ x ∈ l, x ≠ b → Q t → P t → P (step t x)) {t : σ} (start : Q t) : P (l.foldl step t) := by
  induction l using List.reverseRecOn generalizing t with
  | nil => cases mem
  | append_singleton l x ih =>
    rw [List.foldl_append, List.foldl_cons, List.foldl_nil]
    have before : Q (l.foldl step t) :=
      List.foldlRecOn l step start fun t q y hy => keep t y (List.mem_append_left _ hy) q
    by_cases same : x = b
    · rw [same]
      exact bring _ before
    · have earlier : b ∈ l := by
        obtain h | h := List.mem_append.mp mem
        · exact h
        · exact absurd (List.mem_singleton.mp h).symm same
      exact leave _ x (by simp) same before (ih earlier (fun t y hy => keep t y (List.mem_append_left _ hy))
        (fun t y hy => leave t y (List.mem_append_left _ hy)) start)

/-- The slabs of the run that field `f` names lie apart. -/
def Apart (s : State) (st : Stream) (f : BitVec 8) (run : Nat) : Prop :=
  ∀ i j, i < run → j < run → i ≠ j → ∀ h k h' k', s.resolve st (Opnd.of f).h ((Opnd.of f).k + i) = some (h, k) →
    s.resolve st (Opnd.of f).h ((Opnd.of f).k + j) = some (h', k') →
    s.slabBase h k + 4096 ≤ s.slabBase h' k' ∨ s.slabBase h' k' + 4096 ≤ s.slabBase h k

/-- One slab of a run written (the step of `writeTo`). -/
def writePart (s : State) (st : Stream) (f : BitVec 8) (w : Nat) (t : State) (p : List (Option Nat) × Nat) : State :=
  match s.resolve st (Opnd.of f).h ((Opnd.of f).k + p.2) with
  | some (h, k) => t.mergeSlab h k (mergeBytes w (t.slabBytes h k (p.1.length * w)) p.1) fun j =>
      (p.1.getD (j / w) none).isSome
  | none => t

theorem writeTo_eq_foldl (s acc : State) (st : Stream) (f : BitVec 8) (w : Nat) (vals : List (Option Nat)) :
    writeTo s acc st f w vals = if f.getLsbD 7 || s.vlmaxAt w = 0 then acc
      else ((cut (s.vlmaxAt w) vals).zipIdx).foldl (writePart s st f w) acc := rfl

theorem writeTo_of_writes {s : State} {f : BitVec 8} {w : Nat} (writes : f.getLsbD 7 = false) (hv : 0 < s.vlmaxAt w)
    (acc : State) (st : Stream) (vals : List (Option Nat)) :
    writeTo s acc st f w vals = ((cut (s.vlmaxAt w) vals).zipIdx).foldl (writePart s st f w) acc := by
  rw [writeTo_eq_foldl, writes, Bool.false_or, decide_eq_false (by omega), if_neg Bool.false_ne_true]

theorem slabBase_of_meta {s t : State} (h : t.hoopMeta = s.hoopMeta) (n k : Nat) : t.slabBase n k = s.slabBase n k := by
  simp only [State.slabBase, State.physSlab, h]

theorem writePart_meta (s : State) (st : Stream) (f : BitVec 8) (w : Nat) (t : State) (p : List (Option Nat) × Nat) :
    (writePart s st f w t p).hoopMeta = t.hoopMeta := by
  unfold writePart
  split <;> rfl

theorem writePart_hoops {s t : State} {st : Stream} {f : BitVec 8} {w h k : Nat} {p : List (Option Nat) × Nat}
    (base : t.hoopMeta = s.hoopMeta) (at_p : s.resolve st (Opnd.of f).h ((Opnd.of f).k + p.2) = some (h, k)) :
    (writePart s st f w t p).hoops =
      splice t.hoops (s.slabBase h k) (mergeBytes w (slice t.hoops (s.slabBase h k) (p.1.length * w)) p.1) := by
  unfold writePart
  rw [at_p]
  simp only [State.mergeSlab, State.slabBytes, slabBase_of_meta base]

/-- Part `j` of a run of codes. -/
def codePart (vm : Nat) (vals : List (Option Nat)) (j : Nat) : List (Option Nat) := (vals.drop (vm * j)).take vm

theorem mem_parts {vm : Nat} (hv : 0 < vm) {vals : List (Option Nat)} {p : List (Option Nat) × Nat} :
    p ∈ (cut vm vals).zipIdx ↔ vm * p.2 < vals.length ∧ p.1 = codePart vm vals p.2 := by
  rw [List.mem_zipIdx_iff_getElem?, cut_getElem? hv]
  split
  · next inside => simp [inside, codePart, eq_comm]
  · next outside => simp [outside]

theorem codePart_length_le (vm : Nat) (vals : List (Option Nat)) (j : Nat) :
    (codePart vm vals j).length ≤ min vm vals.length := by
  simp only [codePart, List.length_take, List.length_drop]
  omega

theorem codePart_getElem? {vm : Nat} (vals : List (Option Nat)) (j : Nat) {i : Nat} (hi : i < vm) :
    (codePart vm vals j)[i]? = vals[vm * j + i]? := by
  rw [codePart, List.getElem?_take, if_pos hi, List.getElem?_drop]

section

variable {s acc : State} {st : Stream} {f : BitVec 8} {w run : Nat} {vals : List (Option Nat)}

/-- The bytes that a slab of the run takes. -/
theorem mergedPart_length (hw : 0 < w) (m : SMap Byte) (lo j : Nat) :
    (mergeBytes w (slice m lo ((codePart (s.vlmaxAt w) vals j).length * w)) (codePart (s.vlmaxAt w) vals j)).length =
      (codePart (s.vlmaxAt w) vals j).length * w :=
  mergeBytes_length hw (length_slice ..)

theorem mergedPart_fits (hw : 0 < w) (fits : min (s.vlmaxAt w) vals.length * w ≤ 4096) (m : SMap Byte) (lo j : Nat) :
    (mergeBytes w (slice m lo ((codePart (s.vlmaxAt w) vals j).length * w)) (codePart (s.vlmaxAt w) vals j)).length ≤
      4096 := by
  rw [mergedPart_length hw]
  exact (Nat.mul_le_mul_right w (codePart_length_le ..)).trans fits

/-- An element that a run takes reads as its code, whatever the form of the hoops. -/
theorem writeTo_holds (writes : f.getLsbD 7 = false) (hv : 0 < s.vlmaxAt w)
    (fits : min (s.vlmaxAt w) vals.length * w ≤ 4096) (apart : Apart s st f run)
    (parts : ∀ j, s.vlmaxAt w * j < vals.length → j < run) (base : acc.hoopMeta = s.hoopMeta) {j v h k b : Nat}
    (code : vals[j]? = some (some v))
    (at_j : s.resolve st (Opnd.of f).h ((Opnd.of f).k + j / s.vlmaxAt w) = some (h, k)) (hb : b < w) :
    Holds (writeTo s acc st f w vals).hoops (s.slabBase h k + j % s.vlmaxAt w * w + b) ((leBytes w v).getD b 0) := by
  have hw : 0 < w := by omega
  have hi : j % s.vlmaxAt w < s.vlmaxAt w := Nat.mod_lt _ hv
  have place : s.vlmaxAt w * (j / s.vlmaxAt w) + j % s.vlmaxAt w = j := Nat.div_add_mod ..
  obtain ⟨inside, -⟩ := List.getElem?_eq_some_iff.mp code
  have own : (codePart (s.vlmaxAt w) vals (j / s.vlmaxAt w))[j % s.vlmaxAt w]? = some (some v) := by
    rw [codePart_getElem? _ _ hi, place, code]
  obtain ⟨short, -⟩ := List.getElem?_eq_some_iff.mp own
  have room : j % s.vlmaxAt w * w + w ≤ (codePart (s.vlmaxAt w) vals (j / s.vlmaxAt w)).length * w := by
    rw [← Nat.succ_mul]
    exact Nat.mul_le_mul_right w short
  have within := (Nat.mul_le_mul_right w (codePart_length_le (s.vlmaxAt w) vals (j / s.vlmaxAt w))).trans fits
  rw [writeTo_of_writes writes hv]
  refine foldl_brings (Q := fun t : State => t.hoopMeta = s.hoopMeta)
    (P := fun t : State => Holds t.hoops (s.slabBase h k + j % s.vlmaxAt w * w + b) ((leBytes w v).getD b 0))
    (b := (codePart (s.vlmaxAt w) vals (j / s.vlmaxAt w), j / s.vlmaxAt w)) ?_ ?_ ?_ ?_ base
  · rw [mem_parts hv]
    exact ⟨show s.vlmaxAt w * (j / s.vlmaxAt w) < vals.length by omega, rfl⟩
  · intro t p _ q
    exact (writePart_meta ..).trans q
  · intro t q
    rw [writePart_hoops q at_j]
    have value := holds_splice_inside t.hoops (lo := s.slabBase h k) (a := s.slabBase h k + j % s.vlmaxAt w * w + b)
      (bs := mergeBytes w (slice t.hoops (s.slabBase h k)
        ((codePart (s.vlmaxAt w) vals (j / s.vlmaxAt w)).length * w)) (codePart (s.vlmaxAt w) vals (j / s.vlmaxAt w)))
      (by omega) (by rw [mergedPart_length hw]; omega)
    rw [List.getD_eq_getElem?_getD, Nat.add_assoc, Nat.add_sub_cancel_left,
      mergeBytes_getElem? (length_slice ..) own hb, ← List.getD_eq_getElem?_getD, ← Nat.add_assoc] at value
    exact value
  · intro t p hp other q holds
    obtain ⟨starts, part⟩ := (mem_parts hv).mp hp
    have apart_p : p.2 ≠ j / s.vlmaxAt w := fun same => other (Prod.ext (part.trans (by rw [same])) same)
    cases slab : s.resolve st (Opnd.of f).h ((Opnd.of f).k + p.2) with
    | none =>
      unfold writePart
      rw [slab]
      exact holds
    | some x =>
      obtain ⟨h', k'⟩ := x
      rw [writePart_hoops q slab, part]
      refine holds.splice ?_
      have len := mergedPart_fits (s := s) (vals := vals) hw fits t.hoops (s.slabBase h' k') p.2
      have away := apart p.2 (j / s.vlmaxAt w) (parts _ starts) (parts _ (by omega)) apart_p _ _ _ _ slab at_j
      omega

/-- A byte that no code of the run is written to keeps its value in canonical hoops. -/
theorem writeTo_get (hw : 0 < w) (wf : SMap.wf 0 acc.hoops = true) (base : acc.hoopMeta = s.hoopMeta) {a : Nat}
    (spared : ∀ j v h k, f.getLsbD 7 = false → 0 < s.vlmaxAt w → vals[j]? = some (some v) →
      s.resolve st (Opnd.of f).h ((Opnd.of f).k + j / s.vlmaxAt w) = some (h, k) →
      a < s.slabBase h k + j % s.vlmaxAt w * w ∨ s.slabBase h k + j % s.vlmaxAt w * w + w ≤ a) :
    (writeTo s acc st f w vals).hoops.get 0 a = acc.hoops.get 0 a := by
  rw [writeTo_eq_foldl]
  split
  · rfl
  · next cond =>
    simp only [Bool.or_eq_true, decide_eq_true_eq, not_or, Bool.not_eq_true] at cond
    obtain ⟨writes, room⟩ := cond
    have hv : 0 < s.vlmaxAt w := Nat.pos_of_ne_zero room
    suffices kept : ∀ t : State, t = ((cut (s.vlmaxAt w) vals).zipIdx).foldl (writePart s st f w) acc →
        t.hoopMeta = s.hoopMeta ∧ SMap.wf 0 t.hoops = true ∧ t.hoops.get 0 a = acc.hoops.get 0 a by
      obtain ⟨-, -, same⟩ := kept _ rfl
      exact same
    rintro _ rfl
    refine List.foldlRecOn (motive := fun t : State => t.hoopMeta = s.hoopMeta ∧ SMap.wf 0 t.hoops = true ∧
      t.hoops.get 0 a = acc.hoops.get 0 a) _ _ ⟨base, wf, rfl⟩ ?_
    intro t q p hp
    obtain ⟨meta', wf', same⟩ := q
    obtain ⟨starts, part⟩ := (mem_parts hv).mp hp
    cases slab : s.resolve st (Opnd.of f).h ((Opnd.of f).k + p.2) with
    | none =>
      unfold writePart
      rw [slab]
      exact ⟨meta', wf', same⟩
    | some x =>
      obtain ⟨h, k⟩ := x
      rw [writePart_hoops meta' slab, part]
      refine ⟨(writePart_meta ..).trans meta', splice_wf _ _ wf', ?_⟩
      rw [get_splice _ _ wf', mergedPart_length hw]
      split
      · next inside =>
        obtain ⟨low, high⟩ := inside
        have element : (a - s.slabBase h k) / w < (codePart (s.vlmaxAt w) vals p.2).length := by
          rw [Nat.div_lt_iff_lt_mul hw]
          omega
        have place : (a - s.slabBase h k) / w * w + (a - s.slabBase h k) % w = a - s.slabBase h k := Nat.div_add_mod' ..
        have hi : (a - s.slabBase h k) / w < s.vlmaxAt w :=
          element.trans_le ((codePart_length_le ..).trans (Nat.min_le_left ..))
        have own := List.getElem?_eq_getElem element
        have none : (codePart (s.vlmaxAt w) vals p.2)[(a - s.slabBase h k) / w] = none := by
          rw [Option.eq_none_iff_forall_ne_some]
          intro v code
          rw [code, codePart_getElem? _ _ hi] at own
          have out := spared _ v h k writes hv own
          rw [Nat.mul_add_div hv, Nat.div_eq_of_lt hi, Nat.add_zero, Nat.mul_add_mod, Nat.mod_eq_of_lt hi] at out
          have below := Nat.mod_lt (a - s.slabBase h k) hw
          obtain out | out := out slab
          · omega
          · omega
        rw [none] at own
        have old := mergeBytes_getElem? (old := slice t.hoops (s.slabBase h k)
          ((codePart (s.vlmaxAt w) vals p.2).length * w)) (length_slice ..) own (Nat.mod_lt (a - s.slabBase h k) hw)
        rw [place, slice_eq_getBytes _ _ wf', getBytes_getElem?, if_pos (by omega)] at old
        rw [slice_eq_getBytes _ _ wf', List.getD_eq_getElem?_getD, old, ← same]
        simp only [Option.getD_some]
        congr 1
        omega
      · exact same

end

/-! ### The slabs of a run lie apart -/

theorem tiles_fit (s : State) (b : Nat) : s.tilesPerHoop b * s.tileSlabs (tapBytes (s.bindWord b 2)) ≤ 16 := by
  unfold State.tilesPerHoop
  dsimp only
  split
  · omega
  · exact Nat.div_mul_le_self ..

/-- A slab field of a hoop goes to one hoop, at a fixed distance. -/
theorem resolveHold_form (s : State) (b pos n : Nat) :
    ∃ h c, ∀ k x, k < 16 → s.resolveHold b pos n k = some x → x = (h, c + k) ∧ c + k < 16 := by
  unfold State.resolveHold
  dsimp only
  split
  · split
    · refine ⟨(s.holdHoops b).head?.getD n, 0, fun k x lt at_k => ?_⟩
      cases at_k
      exact ⟨by rw [Nat.zero_add], by omega⟩
    · next some =>
      generalize (if s.rowLen b > 128 * s.holdCap b || pos ≥ s.holdCap b then 0 else pos) = p
      refine ⟨(s.holdHoops b)[p / s.tilesPerHoop b]?.getD n,
        p % s.tilesPerHoop b * s.tileSlabs (tapBytes (s.bindWord b 2)), fun k x lt at_k => ?_⟩
      split at at_k
      · cases at_k
      · cases at_k
        have fit := tiles_fit s b
        have tile := Nat.mul_le_mul_right (s.tileSlabs (tapBytes (s.bindWord b 2)))
          (Nat.mod_lt p (Nat.pos_of_ne_zero some))
        rw [Nat.succ_mul] at tile
        exact ⟨rfl, by omega⟩
  · refine ⟨n, 0, fun k x lt at_k => ?_⟩
    cases at_k
    exact ⟨by rw [Nat.zero_add], by omega⟩

theorem resolve_form (s : State) (st : Stream) (n : Nat) :
    ∃ h c, ∀ k x, k < 16 → s.resolve st n k = some x → x = (h, c + k) ∧ c + k < 16 := by
  unfold State.resolve
  split
  · exact resolveHold_form ..
  · refine ⟨n, 0, fun k x lt at_k => ?_⟩
    cases at_k
    exact ⟨by rw [Nat.zero_add], by omega⟩

theorem physSlab_apart {s : State} {h k₁ k₂ : Nat} (lt₁ : k₁ < 16) (lt₂ : k₂ < 16) (other : k₁ ≠ k₂) :
    s.physSlab h k₁ ≠ s.physSlab h k₂ := by
  unfold State.physSlab
  split
  · repeat' split
    all_goals omega
  · exact other

theorem apart_of_placed {s : State} {st : Stream} {f : BitVec 8} {run : Nat} (placed : (Opnd.of f).k + run ≤ 16) :
    Apart s st f run := by
  intro i j hi hj other h k h' k' at_i at_j
  obtain ⟨hoop, c, form⟩ := resolve_form s st (Opnd.of f).h
  obtain ⟨first, lt⟩ := form _ _ (by omega) at_i
  obtain ⟨second, lt'⟩ := form _ _ (by omega) at_j
  cases first
  cases second
  have phys := physSlab_apart (s := s) (h := h) lt lt' (by omega)
  simp only [State.slabBase, slabKey]
  omega

end Sys2Proof.Machine
end

section
/-!
SUPPORT. The runs of the state that a clear bundle leaves (R48, R54, R83). Used by O16, O20, O25 and O26.
-/

namespace Sys2Proof.Machine

/-! ### Slab names after the bundle -/

/-- An edging run's bundle holds no SETENT (R109). -/
theorem not_setent_of_clear {s : State} {i : Issue} (h : Clear s i) (edge : i.stream = .edge) :
    i.bundle.s.major.toNat ≠ 0x1D := by
  have legal := h.legal
  have offered := h.offered
  rw [edge] at legal offered
  obtain ⟨r, run, -⟩ := run_of_canOffer offered
  simp only [State.legalHere, Bool.and_eq_true] at legal
  intro major
  simp [State.sOk, run, major] at legal

/-- What of a run the meaning of its slab names rests on (R257). -/
def runPlace (s : State) : Option (Nat × Nat) := s.edging.run.map fun r => (r.binding, r.pos)

theorem resolve_edge_congr {s t : State} (place : runPlace t = runPlace s) (regs : t.regs = s.regs)
    (panels : t.panelMap = s.panelMap) (n k : Nat) : t.resolve .edge n k = s.resolve .edge n k := by
  have hold (b pos : Nat) : t.resolveHold b pos n k = s.resolveHold b pos n k := by
    have fields : t.resolveHold b pos n k =
        ({ s with regs := t.regs, panelMap := t.panelMap } : State).resolveHold b pos n k := rfl
    rw [fields, regs, panels]
  unfold runPlace at place
  unfold State.resolve
  cases ht : t.edging.run with
  | none =>
    rw [ht] at place
    rw [Option.map_eq_none_iff.mp place.symm]
  | some x =>
    rw [ht] at place
    obtain ⟨y, hs, same⟩ := Option.map_eq_some_iff.mp place.symm
    rw [hs]
    obtain ⟨binding, pos⟩ := Prod.mk.inj same
    show t.resolveHold x.binding x.pos n k = s.resolveHold y.binding y.pos n k
    rw [hold, binding, pos]

theorem modCtx_runPlace (s : State) (st : Stream) (f : Ctx → Ctx) : runPlace (s.modCtx st f) = runPlace s := by
  cases st with
  | main => rfl
  | edge => simp [runPlace, State.modCtx, Function.comp_def]

theorem executed_runPlace (s : State) (i : Issue) : runPlace (s.executed i) = runPlace s := by
  rw [executed_keeps runPlace (fun t => by simp [runPlace, State.offScalar, Function.comp_def])]
  have streams : (s.beforeS i).edging.run = (s.modCtx i.stream (s.env i).mCtx).edging.run :=
    congrArg Prod.snd (beforeS_streams s i)
  rw [runPlace, streams]
  exact modCtx_runPlace s _ _

theorem executed_panelMap (s : State) (i : Issue) : (s.executed i).panelMap = s.panelMap :=
  (executed_keeps State.panelMap (fun _ => rfl) s i).trans (beforeS_panelMap s i)

theorem executed_hoopMeta (s : State) (i : Issue) : (s.executed i).hoopMeta = s.hoopMeta :=
  (executed_keeps State.hoopMeta (fun _ => rfl) s i).trans
    (congrArg State.hoopMeta (beforeS_offPort s i) : (s.beforeS i).offPort.hoopMeta = s.offPort.hoopMeta)

/-- A bundle of the main program resolves nothing, and one of a run writes no register. -/
theorem settled_resolve {s : State} {i : Issue} (clear : Clear s i) (n k : Nat) :
    (s.settle (s.executed i)).resolve i.stream n k = s.resolve i.stream n k := by
  cases st : i.stream with
  | main => rfl
  | edge =>
    refine resolve_edge_congr ?_ ?_ ?_ n k
    · rw [runPlace, settle_edging_run]
      exact executed_runPlace s i
    · rw [settle_regs, executed_regs (not_setent_of_clear clear st)]
    · rw [settle_panelMap, executed_panelMap]

/-- An element of the state after the bundle is an element of `s` over the hoops that the bundle leaves. -/
theorem settled_elem {s : State} {i : Issue} (clear : Clear s i) (f : BitVec 8) (w j : Nat) :
    (s.settle (s.executed i)).elem i.stream f w j =
      ({ s with hoops := (s.beforeS i).hoops } : State).elem i.stream f w j := by
  have width : (s.settle (s.executed i)).vlmaxAt w = s.vlmaxAt w := by
    rw [State.vlmaxAt, State.active, settle_panelMap, executed_panelMap]
    rfl
  have base (h k : Nat) : (s.settle (s.executed i)).slabBase h k = s.slabBase h k :=
    slabBase_of_meta ((settle_hoopMeta _ _).trans (executed_hoopMeta s i)) h k
  unfold State.elem
  simp only [settled_resolve clear, width, base, settle_hoops, executed_hoops]
  rfl

/-! ### A run that the lanes have written -/

theorem leNat_of_bytes {m : SMap Byte} {lo w v : Nat} (h : ∀ b, b < w → m.get 0 (lo + b) = (leBytes w v).getD b 0) :
    leNat (getBytes m lo w) = v % 2 ^ (8 * w) := by
  have bytes : getBytes m lo w = leBytes w v := by
    refine List.ext_getElem? fun b => ?_
    rw [getBytes_getElem?]
    split
    · next hb =>
      rw [h b hb, List.getD_eq_getElem?_getD, List.getElem?_eq_getElem (by rw [leBytes_length]; exact hb)]
      rfl
    · next past => exact (List.getElem?_eq_none (by rw [leBytes_length]; omega)).symm
  rw [bytes, leNat_leBytes, Nat.pow_mul]

theorem getBytes_congr {m n : SMap Byte} {lo w : Nat} (h : ∀ b, b < w → m.get 0 (lo + b) = n.get 0 (lo + b)) :
    getBytes m lo w = getBytes n lo w := List.map_congr_left fun b hb => h b (List.mem_range.mp hb)

/-- A destination run of the lanes is placed in its hoop, and each of its slabs stands for one. -/
structure Placed (s : State) (st : Stream) (f : BitVec 8) (run : Nat) : Prop where
  fits : (Opnd.of f).k + run ≤ 16
  named : ∀ j, j < run → (s.resolve st (Opnd.of f).h ((Opnd.of f).k + j)).isSome = true

theorem elem_slab {s : State} {st : Stream} {f : BitVec 8} {w j h k : Nat}
    (at_j : s.resolve st (Opnd.of f).h ((Opnd.of f).k + j / s.vlmaxAt w) = some (h, k)) (m : SMap Byte) :
    ({ s with hoops := m } : State).elem st f w j = leNat (getBytes m (s.slabBase h k + j % s.vlmaxAt w * w) w) := by
  have same : ({ s with hoops := m } : State).resolve st (Opnd.of f).h ((Opnd.of f).k + j / s.vlmaxAt w) = some (h, k) :=
    (show _ = s.resolve st (Opnd.of f).h ((Opnd.of f).k + j / s.vlmaxAt w) from rfl).trans at_j
  unfold State.elem
  dsimp only
  rw [show ({ s with hoops := m } : State).vlmaxAt w = s.vlmaxAt w from rfl, same]
  rfl

/-- Two elements of a run of width `w` lie apart. -/
theorem elements_apart {vm w i j : Nat} (other : i ≠ j) (same : i / vm = j / vm) :
    i % vm * w + w ≤ j % vm * w ∨ j % vm * w + w ≤ i % vm * w := by
  have di := Nat.div_add_mod i vm
  have dj := Nat.div_add_mod j vm
  rw [same] at di
  rcases Nat.lt_or_gt_of_ne (show i % vm ≠ j % vm by omega) with lt | gt
  · left
    rw [← Nat.succ_mul]
    exact Nat.mul_le_mul_right w lt
  · right
    rw [← Nat.succ_mul]
    exact Nat.mul_le_mul_right w gt

theorem element_fits {vm : Nat} (hv : 0 < vm) (w j : Nat) : j % vm * w + w ≤ vm * w := by
  rw [← Nat.succ_mul]
  exact Nat.mul_le_mul_right w (Nat.mod_lt j hv)

section

variable {s u : State} {st : Stream} {f : BitVec 8} {ew w : Nat} {vals : List (Option Nat)}

theorem part_in_run (hew : ew = 1 ∨ ew = 2 ∨ ew = 4) (hw : w = 1 ∨ w = 2 ∨ w = 4)
    (room : vals.length ≤ s.vlmaxAt ew) {j : Nat} (inside : j < vals.length) : j / s.vlmaxAt w < runLen ew w :=
  part_lt_runLen hew hw room ((Nat.mul_div_le j (s.vlmaxAt w)).trans_lt inside)

/-- The bytes of an element that takes no code are spared. -/
theorem element_spared (hv : 0 < s.vlmaxAt w) (fits : s.vlmaxAt w * w ≤ 4096) {run : Nat} (apart : Apart s st f run)
    (parts : ∀ j, j < vals.length → j / s.vlmaxAt w < run) {j h k b : Nat} (none : ∀ v, vals[j]? ≠ some (some v))
    (inRun : j / s.vlmaxAt w < run) (at_j : s.resolve st (Opnd.of f).h ((Opnd.of f).k + j / s.vlmaxAt w) = some (h, k))
    (hb : b < w) {j' v h' k' : Nat} (code : vals[j']? = some (some v))
    (at_j' : s.resolve st (Opnd.of f).h ((Opnd.of f).k + j' / s.vlmaxAt w) = some (h', k')) :
    s.slabBase h k + j % s.vlmaxAt w * w + b < s.slabBase h' k' + j' % s.vlmaxAt w * w ∨
      s.slabBase h' k' + j' % s.vlmaxAt w * w + w ≤ s.slabBase h k + j % s.vlmaxAt w * w + b := by
  have other : j ≠ j' := fun same => none v (same ▸ code)
  by_cases same : j / s.vlmaxAt w = j' / s.vlmaxAt w
  · rw [same, at_j'] at at_j
    cases at_j
    have away := elements_apart (w := w) other same
    omega
  · obtain ⟨inside, -⟩ := List.getElem?_eq_some_iff.mp code
    have away := apart _ _ inRun (parts _ inside) same _ _ _ _ at_j at_j'
    have fit := element_fits hv w j
    have fit' := element_fits hv w j'
    omega

/-- A destination run after `writeTo`, in a state whose slab names mean what they meant. -/
theorem writesRun_writeTo {t : State} (canon : s.canon = true) (few : s.active ≤ 16) (within : s.within (s.ctxOf st))
    (hw : w = 1 ∨ w = 2 ∨ w = 4) (placed : f.getLsbD 7 = false → Placed s st f (runLen (s.ctxOf st).ew.bytes w))
    (hoops : t.hoops = (writeTo s u st f w vals).hoops) (before : u.hoops = s.hoops) (base : u.hoopMeta = s.hoopMeta)
    (elems : ∀ j, t.elem st f w j = ({ s with hoops := t.hoops } : State).elem st f w j)
    (short : vals.length ≤ (s.ctxOf st).vl) {codes : Nat → Option Nat}
    (agree : f.getLsbD 7 = false → ∀ j, j < (s.ctxOf st).vl → (vals[j]?).join = codes j) : WritesRun s t st f w codes := by
  have wf : SMap.wf 0 u.hoops = true := before ▸ State.canon_hoops canon
  have hw0 : 0 < w := by omega
  unfold WritesRun
  cases nw : f.getLsbD 7 with
  | true => rw [if_pos rfl, hoops, writeTo_eq_foldl, nw, Bool.true_or, if_pos rfl, before]
  | false =>
    obtain ⟨placed, named⟩ := placed nw
    have fits : s.vlmaxAt w * w ≤ 4096 := vlmaxAt_bytes_le few hw
    have apart : Apart s st f (runLen (s.ctxOf st).ew.bytes w) := apart_of_placed placed
    have parts (j : Nat) (inside : j < vals.length) : j / s.vlmaxAt w < runLen (s.ctxOf st).ew.bytes w :=
      part_in_run (EW.bytes_cases _) hw (short.trans within.1) inside
    rw [if_neg Bool.false_ne_true]
    refine ⟨fun j inRun => ?_, fun a out => ?_⟩
    · obtain ⟨⟨h, k⟩, at_j⟩ := Option.isSome_iff_exists.mp (named _ inRun)
      have old : s.elem st f w j = leNat (getBytes s.hoops (s.slabBase h k + j % s.vlmaxAt w * w) w) :=
        elem_slab at_j s.hoops
      rw [elems, elem_slab at_j]
      by_cases written : ∃ v, vals[j]? = some (some v)
      · obtain ⟨v, code⟩ := written
        obtain ⟨inside, -⟩ := List.getElem?_eq_some_iff.mp code
        have hv : 0 < s.vlmaxAt w := vlmaxAt_pos within (by omega) hw
        have value : codes j = some v := by rw [← agree nw j (by omega), code]; rfl
        rw [if_pos (by omega), value]
        refine leNat_of_bytes fun b hb => ?_
        rw [hoops]
        refine (writeTo_holds nw hv ((Nat.mul_le_mul_right w (Nat.min_le_left ..)).trans fits) apart (fun j starts => ?_)
          base code at_j hb).get
        exact part_lt_runLen (EW.bytes_cases _) hw (short.trans within.1) starts
      · have none (v : Nat) : vals[j]? ≠ some (some v) := fun code => written ⟨v, code⟩
        have kept : getBytes t.hoops (s.slabBase h k + j % s.vlmaxAt w * w) w =
            getBytes s.hoops (s.slabBase h k + j % s.vlmaxAt w * w) w := by
          refine getBytes_congr fun b hb => ?_
          rw [hoops, writeTo_get hw0 wf base fun j' v h' k' _ hv code at_j' =>
            element_spared hv fits apart parts none inRun at_j hb code at_j', before]
        rw [kept, ← old]
        split
        · next below =>
          have value : codes j = Option.none := by
            rw [← agree nw j below]
            cases code : vals[j]? with
            | none => rfl
            | some x =>
              cases x with
              | none => rfl
              | some v => exact absurd code (none v)
          rw [value]
          rfl
        · rfl
    · rw [hoops, writeTo_get hw0 wf base fun j v h k _ hv code at_j => ?_, before]
      obtain ⟨inside, -⟩ := List.getElem?_eq_some_iff.mp code
      by_contra within_element
      have room := element_fits hv w j
      exact out ⟨j / s.vlmaxAt w, parts j inside, h, k, at_j, by omega, by omega⟩

end

/-! ### What a clear bundle's destinations are -/

theorem legalHere_of_clear {s : State} {i : Issue} (clear : Clear s i) :
    (∀ u ∈ slabUses s (s.ctxOf i.stream).ew.bytes i.bundle, u.o.k + u.run ≤ 16) ∧
      ∀ n ∈ s.names i.stream (slabUses s (s.ctxOf i.stream).ew.bytes i.bundle), n.2.2.isSome = true := by
  have legal := clear.legal
  simp only [State.legalHere, Bool.and_eq_true, List.all_eq_true, decide_eq_true_eq] at legal
  obtain ⟨⟨⟨⟨⟨⟨⟨-, runs⟩, names⟩, -⟩, -⟩, -⟩, -⟩, -⟩ := legal
  exact ⟨fun u hu => (runs u hu).2, names⟩

/-- A slab use of a clear bundle is placed. -/
theorem placed_of_use {s : State} {i : Issue} (clear : Clear s i) {f : BitVec 8} {u : SlabUse}
    (mem : u ∈ slabUses s (s.ctxOf i.stream).ew.bytes i.bundle) (o : u.o = Opnd.of f) : Placed s i.stream f u.run := by
  obtain ⟨runs, names⟩ := legalHere_of_clear clear
  refine ⟨o ▸ runs u mem, fun j hj => ?_⟩
  refine names (u.slot, u.wr, s.resolve i.stream (Opnd.of f).h ((Opnd.of f).k + j)) ?_
  unfold State.names SlabUse.slabs
  rw [List.mem_flatMap]
  refine ⟨u, mem, ?_⟩
  rw [o, List.mem_map]
  exact ⟨_, List.mem_map.mpr ⟨j, List.mem_range.mpr hj, rfl⟩, rfl⟩

end Sys2Proof.Machine
end

section
/-!
SUPPORT. Segments of a row (R55), and what a bundle with one vector slot leaves (R53, R54). Used by O20, O25 and O26.
-/

namespace Sys2Proof.Machine

/-! ### What only one vector slot leaves -/

theorem raise_keeps {α : Type} (P : State → α)
    (h : ∀ (t : State) (pages : Vector PageHdr 16) (trouble : TroubleUnit) (n : Nat),
      P { t with pages := pages, trouble := trouble, freeCount := n } = P t)
    (t : State) (k : Nat) (r : Raises) : P (t.raise k r) = P t :=
  AsideClosed.raise (Q := fun u => P u = P t) ⟨fun pages trouble n q => (h _ pages trouble n).trans q⟩ k r rfl

theorem raise_hoops (t : State) (k : Nat) (r : Raises) : (t.raise k r).hoops = t.hoops :=
  raise_keeps State.hoops (fun _ _ _ _ => rfl) t k r

theorem raise_masks (t : State) (k : Nat) (r : Raises) : (t.raise k r).masks = t.masks :=
  raise_keeps State.masks (fun _ _ _ _ => rfl) t k r

theorem raise_carries (t : State) (k : Nat) (r : Raises) : (t.raise k r).carries = t.carries :=
  raise_keeps State.carries (fun _ _ _ _ => rfl) t k r

theorem writeTo_carries (s t : State) (st : Stream) (f : BitVec 8) (w : Nat) (vals : List (Option Nat)) :
    (writeTo s t st f w vals).carries = t.carries :=
  writeTo_closed (Q := fun u => u.carries = t.carries) (fun _ _ _ _ _ _ _ _ _ _ q => q) rfl

theorem writeTo_masks (s t : State) (st : Stream) (f : BitVec 8) (w : Nat) (vals : List (Option Nat)) :
    (writeTo s t st f w vals).masks = t.masks :=
  writeTo_closed (Q := fun u => u.masks = t.masks) (fun _ _ _ _ _ _ _ _ _ _ q => q) rfl

theorem writeTo_nil (s t : State) (st : Stream) (f : BitVec 8) (w : Nat) : writeTo s t st f w [] = t := by
  rw [writeTo_eq_foldl]
  split <;> rfl

theorem vectored_of_v1 {s : State} {i : Issue} (h : i.bundle.v0.isNop = true) : s.vectored i = v1Effect (s.env i) s := by
  rw [State.vectored, chainEffect_of_major_ne s]
  rw [show (s.env i).b.v0.major = 0 from V0Slot.major_of_isNop h]
  decide

theorem settled_carry (s : State) (i : Issue) (n : Nat) : (s.settle (s.executed i)).carry n = (s.vectored i).carry n := by
  refine carry_of_carries ?_ n
  rw [settle_carries, executed_keeps State.carries (fun _ => rfl)]
  exact congrArg (fun x => x.2.1) (beforeS_laneOnly s i)

theorem masked_eq (s : State) (i : Issue) : (s.env i).masked = i.bundle.off := by
  unfold Env.masked Env.mp Bundle.off State.env
  simp only [beq_iff_eq]

/-- A destination run of the lanes after a bundle that writes no other slab. -/
theorem writesRun_settled {s u : State} {i : Issue} {f : BitVec 8} {w : Nat} {vals : List (Option Nat)} (clear : Clear s i)
    (canon : s.canon = true) (few : s.active ≤ 16) (within : s.within (s.ctxOf i.stream))
    (quiet : i.bundle.m.quiet = true) (hw : w = 1 ∨ w = 2 ∨ w = 4)
    (used : f.getLsbD 7 = false → ∃ u ∈ slabUses s (s.ctxOf i.stream).ew.bytes i.bundle,
      u.o = Opnd.of f ∧ u.run = runLen (s.ctxOf i.stream).ew.bytes w)
    (hoops : (s.vectored i).hoops = (writeTo s u i.stream f w vals).hoops) (before : u.hoops = s.hoops)
    (base : u.hoopMeta = s.hoopMeta) (short : vals.length ≤ (s.ctxOf i.stream).vl) {codes : Nat → Option Nat}
    (agree : f.getLsbD 7 = false → ∀ j, j < (s.ctxOf i.stream).vl → (vals[j]?).join = codes j) :
    WritesRun s (s.settle (s.executed i)) i.stream f w codes := by
  have left : (s.settle (s.executed i)).hoops = (s.beforeS i).hoops := (settle_hoops _ _).trans (executed_hoops s i)
  refine writesRun_writeTo canon few within hw (fun writes => ?_) ?_ before base (fun j => ?_) short agree
  · obtain ⟨u, mem, o, run⟩ := used writes
    exact run ▸ placed_of_use clear mem o
  · rw [left, beforeS_hoops quiet, hoops]
  · rw [settled_elem clear, left]

theorem v1Use_mem {s : State} {ew : Nat} {b : Bundle} {u : SlabUse} (h : u ∈ v1Uses ew b.v1) : u ∈ slabUses s ew b :=
  List.mem_append_left _ (List.mem_append_right _ h)

theorem v0Use_mem {s : State} {ew : Nat} {b : Bundle} {u : SlabUse} (h : u ∈ v0Uses ew b.v0) : u ∈ slabUses s ew b :=
  List.mem_append_left _ (List.mem_append_left _ h)

/-! ### Elements below VL -/

theorem lanesOf_range (cf : CF) (f : Fmt) (n : Nat) (on : Nat → Bool) (src : Nat → Nat) :
    lanesOf cf f ((List.range n).map on) ((List.range n).map src) =
      (List.range n).map fun j => if on j then some (loadLane cf f (src j)) else none := by
  rw [lanesOf, List.zip_map', List.map_map]
  rfl

theorem splitLanes_fst {α : Type} (l : List (Option (Res α))) : (splitLanes l).1 = l.map fun x => x.map (·.val) := rfl

theorem policy_range (e : Env) (n : Nat) (on : Nat → Bool) (val : Nat → Nat) :
    e.policy ((List.range n).map on) ((List.range n).map val) =
      (List.range n).map fun j => if on j then some (val j) else e.masked := by
  rw [Env.policy, List.zip_map', List.map_map]
  rfl

theorem getElem?_range_join {α : Type} {n j : Nat} (h : j < n) (val : Nat → Option α) :
    ((List.range n).map val)[j]?.join = val j := by
  rw [List.getElem?_map, List.getElem?_range h]
  rfl

/-- Elements below `n` beside a list that may go on. -/
theorem zip_range_map {α β : Type} {n : Nat} (a : Nat → α) {b : Nat → β} {l : List β}
    (h : ∀ j, j < n → l[j]? = some (b j)) : ((List.range n).map a).zip l = (List.range n).map fun j => (a j, b j) := by
  refine List.ext_getElem? fun j => ?_
  rw [List.zip, List.getElem?_zipWith, List.getElem?_map, List.getElem?_map]
  by_cases below : j < n
  · rw [List.getElem?_range below, h j below]
    rfl
  · rw [List.getElem?_eq_none (by simpa using below)]
    rfl

/-! ### Segments -/

/-- The number of segments of the row. -/
def Ctx.segments (c : Ctx) : Nat := (c.vl + c.segment - 1) / c.segment

theorem segLen_eq (e : Env) : e.segLen = e.ctx.segment := rfl

theorem segment_pos {c : Ctx} (h : 0 < c.vl) : 0 < c.segment := by
  unfold Ctx.segment
  split <;> omega

theorem segments_of_empty {c : Ctx} (h : c.vl = 0) : c.segments = 0 := by
  unfold Ctx.segments
  rw [h, Nat.zero_add]
  exact Nat.div_eq_zero_iff.mpr (by omega)

theorem lt_segments {c : Ctx} {g : Nat} : g < c.segments ↔ g * c.segment < c.vl := by
  by_cases empty : c.vl = 0
  · rw [segments_of_empty empty]
    omega
  · have pos := segment_pos (c := c) (by omega)
    rw [Ctx.segments, Nat.lt_iff_add_one_le, Nat.le_div_iff_mul_le pos, Nat.succ_mul]
    omega

theorem segments_le (c : Ctx) : c.segments ≤ c.vl := by
  by_contra more
  have last := lt_segments.mp (Nat.lt_of_not_le more)
  by_cases empty : c.vl = 0
  · omega
  · exact absurd (Nat.le_mul_of_pos_right c.vl (segment_pos (c := c) (by omega))) (by omega)

theorem div_lt_segments {c : Ctx} {j : Nat} (h : j < c.vl) : j / c.segment < c.segments :=
  lt_segments.mpr ((Nat.div_mul_le_self j c.segment).trans_lt h)

theorem vl_le_segments (c : Ctx) : c.vl ≤ c.segments * c.segment := by
  by_contra less
  exact Nat.lt_irrefl _ (lt_segments.mpr (Nat.lt_of_not_le less))

theorem segItems_length {α : Type} (c : Ctx) (item : Nat → α) (g : Nat) :
    (c.segItems item g).length = min c.segment (c.vl - g * c.segment) := by
  simp [Ctx.segItems]

theorem segItems_take_drop {α : Type} (c : Ctx) (item : Nat → α) (g : Nat) :
    (((List.range c.vl).map item).drop (c.segment * g)).take c.segment = c.segItems item g := by
  refine List.ext_getElem? fun x => ?_
  rw [List.getElem?_take, List.getElem?_drop, Ctx.segItems, List.getElem?_map, List.getElem?_map, Nat.mul_comm g]
  by_cases inside : x < c.segment
  · rw [if_pos inside]
    by_cases below : c.segment * g + x < c.vl
    · rw [List.getElem?_range below, List.getElem?_range (by omega)]
      rfl
    · rw [List.getElem?_eq_none (by simpa using below), List.getElem?_eq_none (by simp; omega)]
      rfl
  · rw [if_neg inside, List.getElem?_eq_none (by simp; omega)]
    rfl

/-- The row cut at its segments. -/
theorem cut_segments {α : Type} {c : Ctx} (h : 0 < c.vl) (item : Nat → α) :
    cut c.segment ((List.range c.vl).map item) = (List.range c.segments).map (c.segItems item) := by
  refine List.ext_getElem? fun g => ?_
  rw [cut_getElem? (segment_pos h), segItems_take_drop, List.length_map, List.length_range, List.getElem?_map]
  by_cases inside : g < c.segments
  · rw [List.getElem?_range inside, if_pos (Nat.mul_comm g _ ▸ lt_segments.mp inside)]
    rfl
  · rw [List.getElem?_eq_none (by simpa using inside),
      if_neg fun below => inside (lt_segments.mpr (Nat.mul_comm _ g ▸ below))]
    rfl

theorem getElem?_flatMap_replicate {α : Type} (val : Nat → α) {n : Nat} (m j : Nat) (h : j < m * n) :
    ((List.range m).flatMap fun g => List.replicate n (val g))[j]? = some (val (j / n)) := by
  induction m with
  | zero => omega
  | succ m ih =>
    have len : ((List.range m).flatMap fun g => List.replicate n (val g)).length = m * n := by simp
    rw [List.range_succ, List.flatMap_append, List.flatMap_singleton]
    by_cases before : j < m * n
    · rw [List.getElem?_append_left (by omega), ih before]
    · have last : j / n = m := Nat.div_eq_of_lt_le (Nat.le_of_not_lt before) h
      rw [Nat.succ_mul] at h
      rw [List.getElem?_append_right (by omega), List.getElem?_replicate, len, if_pos (by omega), last]

end Sys2Proof.Machine
end

section
/-!
SUPPORT. RED as a function of the elements (R153 to R155, R222 to R225). Settles O25.
-/

namespace Sys2Proof.Machine

/-! ### What a reduction takes from a segment -/

/-- The format of the reduction: a count is taken in integers (R222, R223). -/
def Env.redCf (e : Env) : CF := if e.b.v1.fn.toNat % 8 = 4 then CF.i32 else accCf e.b.v1

/-- What element `j` brings to the tree (R223). -/
def Env.redItem (e : Env) (j : Nat) : Option Lane :=
  let op := e.b.v1.fn.toNat % 8
  let x := (loadLane e.redCf (fmtOf e.b.v1.sfmt) (e.s.source e.st e.b.v1.src1 (fmtOf e.b.v1.sfmt).bytes j)).val
  if e.s.on e.b.v1.km j then
    some (if op = 4 then ⟨1, false⟩ else if op = 1 then ⟨(mulLane e.redCf x x).val, false⟩ else x)
  else none

/-- The value that segment 0 starts from. -/
def Env.redCarried (e : Env) : Option Lane :=
  if e.b.v1.fn.getLsbD 7 then some (loadLane e.redCf e.redCf.fmt (e.s.elem e.st e.b.v1.src2 4 0)).val else none

/-- What the tree leaves of segment `g`. -/
def Env.redSegment (e : Env) (g : Nat) : Option Lane :=
  (reduceSegment (redNode e.redCf (e.b.v1.fn.toNat % 8)) (if g = 0 then e.redCarried else none)
    (e.ctx.segItems e.redItem g)).val

/-- The total of segment `g`, rounded for element `j`. -/
def Env.redTotal (e : Env) (g j : Nat) : Nat :=
  match e.redSegment g with
  | some x => ((fmtOf e.b.v1.dfmt).round (e.redCf.value x.code) (e.rnd e.b.v1.rm e.b.v1.dcls j)).val
  | none => redIdentity (fmtOf e.b.v1.dfmt) (e.b.v1.fn.toNat % 8)

/-- The values that RED writes from element 0 on. -/
def Env.redValues (e : Env) : List (Option Nat) :=
  if e.b.v1.fn.getLsbD 4 then
    (List.range e.vl).map fun j => if e.s.on e.b.v1.km j then some (e.redTotal (j / e.ctx.segment) j) else e.masked
  else (List.range e.ctx.segments).map fun g => some (e.redTotal g g)

/-- The elements that RED loads. -/
def Env.redLoaded (e : Env) : List (Option (Res Lane)) :=
  if e.b.v1.fn.toNat % 8 = 4 then (e.active e.b.v1.km).map fun a => if a then some (.pure ⟨1, false⟩) else none
  else (lanesOf e.redCf (fmtOf e.b.v1.sfmt) (e.active e.b.v1.km) (e.codes e.b.v1.src1 (fmtOf e.b.v1.sfmt).bytes)).map
    fun x => x.map fun r =>
      if e.b.v1.fn.toNat % 8 = 1 then r.bind fun l => (mulLane e.redCf l l).map fun c => ⟨c, false⟩ else r

/-- The carried value as it is loaded. -/
def Env.redCarry (e : Env) : Option (Res Lane) :=
  if e.b.v1.fn.getLsbD 7 then
    some (loadLane e.redCf e.redCf.fmt ((readRun e.s e.st { Opnd.of e.b.v1.src2 with bc := false } 4 1).head?.getD 0))
  else none

/-- The reduced segments. -/
def Env.redResults (e : Env) : List (Res (Option Lane)) :=
  ((cut e.segLen (splitLanes e.redLoaded).1).zipIdx).map fun p =>
    reduceSegment (redNode e.redCf (e.b.v1.fn.toNat % 8)) (if p.2 = 0 then e.redCarry.map (·.val) else none) p.1

/-- A segment's total as element `j` takes it. -/
def Env.redFinal (e : Env) (x : Option Lane) (j : Nat) : Res Nat :=
  match x with
  | none => .pure (redIdentity (fmtOf e.b.v1.dfmt) (e.b.v1.fn.toNat % 8))
  | some l => (fmtOf e.b.v1.dfmt).round (e.redCf.value l.code) (e.rnd e.b.v1.rm e.b.v1.dcls j)

/-- The list that RED writes. -/
def Env.redWritten (e : Env) : List (Option Nat) :=
  if e.b.v1.fn.getLsbD 4 then
    e.policy (e.active e.b.v1.km)
      (((((e.active e.b.v1.km).zip ((e.redResults.map (·.val)).flatMap fun x => List.replicate e.segLen x)).zipIdx).map
        fun p => if p.1.1 then e.redFinal p.1.2 p.2 else .pure 0).map (·.val))
  else ((e.redResults.zipIdx).map fun p => e.redFinal p.1.val p.2).map fun r => some r.val

theorem redEffect_hoops (e : Env) (t : State) (h : e.vl ≠ 0) :
    (redEffect e t).hoops = (writeTo e.s t e.st e.b.v1.dst (fmtOf e.b.v1.dfmt).bytes e.redWritten).hoops := by
  unfold redEffect splitLanes Env.redWritten
  dsimp only
  rw [if_neg h]
  split
  · next nw => rw [raise_hoops, writeTo_eq_foldl, nw, Bool.true_or, if_pos rfl]
  · split
    · exact raise_hoops ..
    · exact raise_hoops ..

theorem redLoaded_eq {e : Env} (wf : SMap.wf 0 e.s.hoops = true) (within : e.s.within e.ctx) :
    (splitLanes e.redLoaded).1 = (List.range e.vl).map e.redItem := by
  rw [splitLanes_fst]
  unfold Env.redLoaded
  split
  · next count =>
    rw [active_eq, List.map_map, List.map_map]
    refine List.map_congr_left fun j _ => ?_
    unfold Env.redItem
    cases on : e.s.on e.b.v1.km j <;> simp [on, count, Res.pure]
  · next op =>
    rw [active_eq, codes_eq wf within _ (Fmt.bytes_cases _), lanesOf_range, List.map_map, List.map_map]
    refine List.map_congr_left fun j _ => ?_
    unfold Env.redItem
    cases on : e.s.on e.b.v1.km j
    · simp [on]
    · simp only [on, Function.comp_apply, if_true, Option.map_some, op, if_false]
      split <;> rfl

/-- One element of a slab. -/
theorem readRun_first {s : State} (wf : SMap.wf 0 s.hoops = true) (st : Stream) (f : BitVec 8) {w : Nat} (hw : 0 < w)
    (room : 0 < s.vlmaxAt w) : readRun s st { Opnd.of f with bc := false } w 1 = [s.elem st f w 0] := by
  have part : readRun s st { Opnd.of f with bc := false } w 1 =
      if (1 = 0 || s.vlmaxAt w = 0) = true then []
      else (List.range ((1 + s.vlmaxAt w - 1) / s.vlmaxAt w)).flatMap fun j =>
        s.readPart st f w j (min (s.vlmaxAt w) (1 - j * s.vlmaxAt w)) := rfl
  rw [part, if_neg (by simp; omega), Nat.add_sub_cancel_left, Nat.div_self room, List.range_one, List.flatMap_singleton,
    Nat.zero_mul, Nat.min_eq_right (by omega), readPart_eq wf st f hw (by omega)]
  simp

theorem redCarry_eq {e : Env} (wf : SMap.wf 0 e.s.hoops = true) (within : e.s.within e.ctx) (h : 0 < e.vl) :
    e.redCarry.map (·.val) = e.redCarried := by
  unfold Env.redCarry Env.redCarried
  split
  · rw [readRun_first wf e.st _ (by omega) (vlmaxAt_pos within h (by omega))]
    rfl
  · rfl

theorem redResults_eq {e : Env} (wf : SMap.wf 0 e.s.hoops = true) (within : e.s.within e.ctx) (h : 0 < e.vl) :
    e.redResults.map (·.val) = (List.range e.ctx.segments).map e.redSegment := by
  unfold Env.redResults
  rw [redLoaded_eq wf within, redCarry_eq wf within h, segLen_eq, show e.vl = e.ctx.vl from rfl, cut_segments h,
    zipIdx_range_map, List.map_map, List.map_map]
  rfl

theorem redFinal_val (e : Env) (g j : Nat) : (e.redFinal (e.redSegment g) j).val = e.redTotal g j := by
  unfold Env.redFinal Env.redTotal
  cases e.redSegment g <;> rfl

/-- The totals, packed or broadcast. -/
theorem redWritten_eq {e : Env} (wf : SMap.wf 0 e.s.hoops = true) (within : e.s.within e.ctx) (h : 0 < e.vl) :
    e.redWritten = e.redValues := by
  unfold Env.redWritten Env.redValues
  split
  · have per : (e.active e.b.v1.km).zip ((e.redResults.map (·.val)).flatMap fun x => List.replicate e.segLen x) =
        (List.range e.vl).map fun j => (e.s.on e.b.v1.km j, e.redSegment (j / e.ctx.segment)) := by
      rw [redResults_eq wf within h, List.flatMap_map, active_eq]
      exact zip_range_map _ fun j below =>
        getElem?_flatMap_replicate e.redSegment _ j (below.trans_le (vl_le_segments e.ctx))
    rw [per, zipIdx_range_map, List.map_map, List.map_map, active_eq, policy_range]
    refine List.map_congr_left fun j _ => ?_
    split
    · next on => simp only [Function.comp_apply, on, if_true, redFinal_val]
    · rfl
  · have totals : (e.redResults.zipIdx.map fun p => e.redFinal p.1.val p.2) =
        ((e.redResults.map (·.val)).zipIdx.map fun p => e.redFinal p.1 p.2) := by
      rw [List.zipIdx_map, List.map_map]
      rfl
    rw [totals, redResults_eq wf within h, zipIdx_range_map, List.map_map, List.map_map]
    refine List.map_congr_left fun g _ => ?_
    exact congrArg some (redFinal_val e g g)

theorem redValues_length (e : Env) : e.redValues.length ≤ e.ctx.vl := by
  unfold Env.redValues
  split
  · rw [List.length_map, List.length_range]
    exact Nat.le_refl _
  · rw [List.length_map, List.length_range]
    exact segments_le e.ctx

theorem redValues_get {e : Env} {j : Nat} (below : j < e.vl) : (e.redValues[j]?).join =
    if e.b.v1.fn.getLsbD 4 then
      (if e.s.on e.b.v1.km j then some (e.redTotal (j / e.ctx.segment) j) else e.masked)
    else if j * e.ctx.segment < e.ctx.vl then some (e.redTotal j j) else none := by
  unfold Env.redValues
  split
  · exact getElem?_range_join below _
  · split
    · next starts => exact getElem?_range_join (lt_segments.mpr starts) _
    · next past =>
      rw [List.getElem?_eq_none (by simpa using fun starts => past (lt_segments.mp starts))]
      rfl

theorem v1Effect_red {e : Env} (h : e.b.v1.major = 4) (t : State) : v1Effect e t = redEffect e t := by
  unfold v1Effect
  rw [h]
  rfl

/-- The run that RED leaves. -/
theorem red_hoops {s : State} {i : Issue} (wf : SMap.wf 0 s.hoops = true) (within : s.within (s.ctxOf i.stream))
    (nop : i.bundle.v0.isNop = true) (major : i.bundle.v1.major = 4) : (s.vectored i).hoops =
      (writeTo s s i.stream i.bundle.v1.dst (fmtOf i.bundle.v1.dfmt).bytes (s.env i).redValues).hoops := by
  rw [vectored_of_v1 nop, v1Effect_red (e := s.env i) major]
  by_cases empty : (s.env i).vl = 0
  · have nothing : (s.env i).redValues = [] :=
      List.eq_nil_of_length_eq_zero (Nat.le_zero.mp (empty ▸ redValues_length (s.env i)))
    rw [nothing, writeTo_nil, redEffect]
    exact congrArg State.hoops (if_pos empty)
  · rw [redEffect_hoops (s.env i) s empty, redWritten_eq (e := s.env i) wf within (Nat.pos_of_ne_zero empty)]
    rfl

theorem redUse {s : State} {ew : Nat} {b : Bundle} (major : b.v1.major = 4) (writes : b.v1.dst.getLsbD 7 = false) :
    ∃ u ∈ slabUses s ew b, u.o = Opnd.of b.v1.dst ∧ u.run = runLen ew (fmtOf b.v1.dfmt).bytes := by
  obtain ⟨u, mem, -, field, run⟩ := v1Uses_red (ew := ew) (congrArg BitVec.toNat major) writes
  exact ⟨u, v1Use_mem mem, field, run⟩

end Sys2Proof.Machine
open Sys2Proof Sys2Proof.Machine

/-- Settles O25: the tree takes each segment's items from the elements, and the totals are the run that is written. -/
theorem reducedSegments : Obligations.ReducedSegments := by
  unfold Obligations.ReducedSegments
  intro i s clear canon few within nop quiet major v c e op sf df cf item carried total
  refine ⟨_, exec_of_clear rfl (by simp [Instr.wf, Instr.row, Bundle.carries, major]) clear, ?_⟩
  refine writesRun_settled clear canon few within quiet (Fmt.bytes_cases _) (redUse major)
    (red_hoops (State.canon_hoops canon) within nop major) rfl rfl (redValues_length e) fun _ j below => ?_
  rw [redValues_get (e := e) below, masked_eq]
  rfl
end

section
/-!
SUPPORT. SCAN and LSCAN as a function of the elements (R68, R226 to R229). Settles O26.
-/

namespace Sys2Proof.Machine

/-! ### Lengths of prefixes -/

theorem foldRes_val {α β : Type} (f : β → α → Res β) (l : List α) (b : β) :
    (foldRes f b l).val = l.foldl (fun b a => (f b a).val) b := by
  induction l generalizing b with
  | nil => rfl
  | cons a l ih => exact ih (f b a).val

theorem mapRes_length {α β : Type} (f : α → Res β) (l : List α) : (mapRes f l).val.length = l.length := by
  induction l with
  | nil => rfl
  | cons a l ih => exact congrArg (· + 1) ih

theorem zipRes_length {α : Type} (op : α → α → Res α) (a b : List (Option α)) :
    (zipRes op a b).val.length = min a.length b.length := by
  induction a generalizing b with
  | nil => cases b <;> rfl
  | cons x a ih =>
    cases b with
    | nil => rfl
    | cons y b =>
      have rest : (zipRes op (x :: a) (y :: b)).val.length = (zipRes op a b).val.length + 1 := rfl
      rw [rest, ih, List.length_cons, List.length_cons]
      omega

theorem scanLevels_length {α : Type} (op : α → α → Res α) (t : List (Option α)) :
    (scanLevels op t).val.length = t.length := by
  unfold scanLevels
  rw [foldRes_val]
  refine foldl_keeps List.length _ (fun u w => ?_) _ _
  split
  · next below =>
    have level : ((zipRes op u (u.drop w)).map fun v => u.take w ++ v).val = u.take w ++ (zipRes op u (u.drop w)).val := rfl
    rw [level, List.length_append, zipRes_length, List.length_take, List.length_drop]
    omega
  · rfl

theorem scanBlock_length {α β : Type} (op : α → α → Res α) (fin : Option β → Option α → Res (Option β)) (run : Option β)
    {block : List (Option α)} (some : block ≠ []) : (scanBlock op fin run block).val.1.length = block.length := by
  have positive := List.length_pos_iff.mpr some
  unfold scanBlock
  simp only [Res.bind, Res.map, List.length_append, mapRes_length, List.length_dropLast, List.length_zip,
    scanLevels_length, List.length_singleton]
  omega

theorem pieces_flatten {α : Type} {n : Nat} (hn : 0 < n) (fuel : Nat) (l : List α) (h : l.length ≤ fuel) :
    (pieces n fuel l).flatten = l := by
  induction fuel generalizing l with
  | zero => rw [List.eq_nil_of_length_eq_zero (Nat.le_zero.mp h)]; rfl
  | succ fuel ih =>
    cases l with
    | nil => rfl
    | cons a l =>
      have rest : ((a :: l).drop n).length ≤ fuel := by
        rw [List.length_drop]
        omega
      rw [pieces, List.flatten_cons, ih _ rest, List.take_append_drop]
      exact fun h => (List.cons_ne_nil a l h).elim

theorem pieces_ne_nil {α : Type} {n : Nat} (hn : 0 < n) (fuel : Nat) (l : List α) : ∀ p ∈ pieces n fuel l, p ≠ [] := by
  induction fuel generalizing l with
  | zero => simp [pieces]
  | succ fuel ih =>
    cases l with
    | nil => simp [pieces]
    | cons a l =>
      intro p hp
      rw [pieces, List.mem_cons] at hp
      · rcases hp with rfl | later
        · rw [Ne, List.take_eq_nil_iff]
          simp [Nat.pos_iff_ne_zero.mp hn]
        · exact ih _ p later
      · exact fun h => (List.cons_ne_nil a l h).elim

/-- A scan has one prefix for each item of its segment. -/
theorem scanSegment_length {α β : Type} (op : α → α → Res α) (fin : Option β → Option α → Res (Option β)) (run : Option β)
    (seg : List (Option α)) : (scanSegment op fin run seg).val.1.length = seg.length := by
  have blocks (l : List (List (Option α))) (full : ∀ p ∈ l, p ≠ []) (acc : List (Option β) × Option β) :
      (l.foldl (fun acc block => ((scanBlock op fin acc.2 block).map fun y => (acc.1 ++ y.1, y.2)).val) acc).1.length =
        acc.1.length + l.flatten.length := by
    induction l generalizing acc with
    | nil => rfl
    | cons p l ih =>
      rw [List.foldl_cons, ih fun q hq => full q (List.mem_cons_of_mem p hq), List.flatten_cons, List.length_append]
      have block : ((scanBlock op fin acc.2 p).map fun y => (acc.1 ++ y.1, y.2)).val.1 =
          acc.1 ++ (scanBlock op fin acc.2 p).val.1 := rfl
      rw [block, List.length_append, scanBlock_length op fin acc.2 (full p (List.mem_cons_self ..)), Nat.add_assoc]
  rw [scanSegment, cut, foldRes_val, blocks _ (pieces_ne_nil (by decide) _ _), pieces_flatten (by decide) _ _ (Nat.le_refl _)]
  exact Nat.zero_add _

/-! ### Segments one after another -/

/-- The scans of the segments side by side, and what the last one leaves. -/
theorem scanSegs_val {α : Type} (op : α → α → Res α) (fin : Option Lane → Option α → Res (Option Lane))
    (carry : Option Lane) {c : Ctx} (h : 0 < c.vl) (item : Nat → Option α) :
    let seg (g : Nat) := (scanSegment op fin (if g = 0 then carry else none) (c.segItems item g)).val
    (scanSegs op fin carry c.segment ((List.range c.vl).map item)).val =
      ((List.range c.segments).flatMap fun g => (seg g).1, (seg ((c.vl - 1) / c.segment)).2) := by
  intro seg
  have upto (m : Nat) : ((List.range m).map fun g => (c.segItems item g, g)).foldl
      (fun (acc : List (Option Lane) × Option Lane) (p : List (Option α) × Nat) =>
        ((scanSegment op fin (if p.2 = 0 then carry else none) p.1).map fun y => (acc.1 ++ y.1, y.2)).val) ([], carry) =
      ((List.range m).flatMap fun g => (seg g).1, if m = 0 then carry else (seg (m - 1)).2) := by
    induction m with
    | zero => rfl
    | succ m ih =>
      rw [List.range_succ, List.map_append, List.foldl_append, ih, List.flatMap_append, List.flatMap_singleton,
        if_neg (Nat.succ_ne_zero m), Nat.add_sub_cancel]
      rfl
  have count : c.segments = (c.vl - 1) / c.segment + 1 := by
    rw [Ctx.segments, ← Nat.add_div_right _ (segment_pos h)]
    congr 1
    omega
  rw [scanSegs, foldRes_val, cut_segments h, zipIdx_range_map, upto, count, if_neg (Nat.succ_ne_zero _),
    Nat.add_sub_cancel]

/-- Lists side by side, all but the last of `n` entries. -/
theorem getElem?_flatMap_parts {α : Type} {n total : Nat} (part : Nat → List α)
    (len : ∀ g, (part g).length = min n (total - g * n)) (m j : Nat) (below : j < total) (covered : j < m * n) :
    ((List.range m).flatMap part)[j]? = (part (j / n))[j % n]? := by
  have sum (m : Nat) : ((List.range m).flatMap part).length = min total (m * n) := by
    induction m with
    | zero => simp
    | succ m ih =>
      rw [List.range_succ, List.flatMap_append, List.flatMap_singleton, List.length_append, ih, len, Nat.succ_mul]
      omega
  induction m with
  | zero => omega
  | succ m ih =>
    rw [List.range_succ, List.flatMap_append, List.flatMap_singleton]
    by_cases before : j < m * n
    · rw [List.getElem?_append_left (by rw [sum]; omega), ih before]
    · have last : j / n = m := Nat.div_eq_of_lt_le (Nat.le_of_not_lt before) covered
      have place := Nat.div_add_mod j n
      rw [last, Nat.mul_comm] at place
      rw [List.getElem?_append_right (by rw [sum]; omega), last, sum, Nat.min_eq_right (by omega)]
      congr 1
      omega

/-- Where in its segment's scan an element finds its prefix. -/
theorem prefix_at {c : Ctx} {j : Nat} (below : j < c.vl) (seg : Nat → List (Option Lane) × Option Lane)
    (len : ∀ g, (seg g).1.length = min c.segment (c.vl - g * c.segment)) :
    ((List.range c.segments).flatMap fun g => (seg g).1)[j]? =
      some ((seg (j / c.segment)).1.getD (j % c.segment) none) := by
  have pos := segment_pos (c := c) (by omega)
  have place := Nat.div_add_mod j c.segment
  have inside : j % c.segment < (seg (j / c.segment)).1.length := by
    have least := Nat.mod_lt j pos
    rw [Nat.mul_comm] at place
    rw [len]
    omega
  rw [getElem?_flatMap_parts (fun g => (seg g).1) len _ _ below (below.trans_le (vl_le_segments c)),
    List.getD_eq_getElem?_getD, List.getElem?_eq_getElem inside]
  rfl

/-! ### What a scan leaves -/

/-- The values that a scan writes, from what each position holds. -/
def Env.scanValues (e : Env) (cf : CF) (x : Nat → Option Lane) : List (Option Nat) :=
  (List.range e.vl).map fun j =>
    if e.s.on e.b.v1.km j then
      some ((x j).elim 0 fun l => ((fmtOf e.b.v1.dfmt).round (cf.value l.code) (e.rnd e.b.v1.rm e.b.v1.dcls j)).val)
    else e.masked

theorem scanFinish_hoops {e : Env} (t : State) (cf : CF) (op : Nat) (r0 : Raises)
    {y : Res (List (Option Lane) × Option Lane)} {x : Nat → Option Lane} (h : ∀ j, j < e.vl → y.val.1[j]? = some (x j)) :
    (scanFinish e t cf op (e.active e.b.v1.km) r0 y).hoops =
      (writeTo e.s t e.st e.b.v1.dst (fmtOf e.b.v1.dfmt).bytes (e.scanValues cf x)).hoops := by
  unfold scanFinish
  dsimp only
  rw [raise_hoops, active_eq, zip_range_map _ h, zipIdx_range_map, List.map_map, List.map_map, policy_range]
  by_cases nw : e.b.v1.dst.getLsbD 7 = true
  · rw [writeTo_eq_foldl, writeTo_eq_foldl, nw, Bool.true_or, if_pos rfl, if_pos rfl]
  · refine congrArg (fun vals => (writeTo e.s t e.st e.b.v1.dst (fmtOf e.b.v1.dfmt).bytes vals).hoops)
      (List.map_congr_left fun j _ => ?_)
    split
    · next on =>
      simp only [Function.comp_apply, on, nw]
      cases x j <;> rfl
    · rfl

theorem scanFinish_carry {e : Env} (t : State) (cf : CF) (op : Nat) (act : List Bool) (r0 : Raises)
    (y : Res (List (Option Lane) × Option Lane)) {n : Nat} (hn : n < 4) :
    (scanFinish e t cf op act r0 y).carry n = if n = e.b.v1.ts.toNat % 4 then
      ⟨BitVec.ofNat 32 ((y.val.2.map (·.code)).getD (scanIdentity cf op)), e.b.v1.fn.getLsbD 3, true⟩ else t.carry n := by
  unfold scanFinish
  dsimp only
  rw [carry_of_carries (raise_carries ..), carry_setCarry _ _ hn, carry_of_carries (writeTo_carries ..)]

/-- The value that enters segment 0 of a continued scan (R68). -/
def Env.scanCarried (e : Env) (cf : CF) : Option Lane :=
  if e.b.v1.fn.getLsbD 7 && (e.s.carry (e.b.v1.ts.toNat % 4)).valid then
    some (loadLane cf cf.fmt (e.s.carry (e.b.v1.ts.toNat % 4)).value.toNat).val
  else none

theorem carryIn_val (e : Env) (cf : CF) : (e.carryIn cf).map (·.val) = e.scanCarried cf := by
  unfold Env.carryIn
  exact apply_ite (Option.map fun x : Res Lane => x.val) _ _ _

/-- The scan of segment `g`: the prefixes of its items, and its last running value. -/
def Env.segScan {α : Type} (e : Env) (cf : CF) (node : α → α → Res α) (fin : Option Lane → Option α → Res (Option Lane))
    (item : Nat → Option α) (g : Nat) : List (Option Lane) × Option Lane :=
  (scanSegment node fin (if g = 0 then e.scanCarried cf else none) (e.ctx.segItems item g)).val

theorem segScan_length {α : Type} (e : Env) (cf : CF) (node : α → α → Res α)
    (fin : Option Lane → Option α → Res (Option Lane)) (item : Nat → Option α) (g : Nat) :
    (e.segScan cf node fin item g).1.length = min e.ctx.segment (e.ctx.vl - g * e.ctx.segment) := by
  rw [Env.segScan, scanSegment_length, segItems_length]

/-- The segments of the row scanned one after another. -/
def Env.rowScan {α : Type} (e : Env) (cf : CF) (node : α → α → Res α) (fin : Option Lane → Option α → Res (Option Lane))
    (item : Nat → Option α) : Res (List (Option Lane) × Option Lane) :=
  scanSegs node fin (e.scanCarried cf) e.segLen ((List.range e.vl).map item)

section

variable {α : Type} {e : Env} {cf : CF} {node : α → α → Res α} {fin : Option Lane → Option α → Res (Option Lane)}
  {item : Nat → Option α}

theorem rowScan_val (some : 0 < e.vl) : (e.rowScan cf node fin item).val =
    ((List.range e.ctx.segments).flatMap fun g => (e.segScan cf node fin item g).1,
      (e.segScan cf node fin item ((e.ctx.vl - 1) / e.ctx.segment)).2) :=
  scanSegs_val node fin (e.scanCarried cf) (c := e.ctx) some item

theorem rowScan_prefix {j : Nat} (below : j < e.vl) : (e.rowScan cf node fin item).val.1[j]? =
    some ((e.segScan cf node fin item (j / e.ctx.segment)).1.getD (j % e.ctx.segment) none) := by
  rw [rowScan_val (Nat.zero_lt_of_lt below)]
  exact prefix_at below _ (segScan_length e cf node fin item)

end

/-- A scan of the row: what the segments' prefixes and the last running value leave in the run and the carries. -/
theorem scan_gives {α : Type} {s : State} {i : Issue} {cf : CF} {node : α → α → Res α}
    {fin : Option Lane → Option α → Res (Option Lane)} {item : Nat → Option α} {op : Nat}
    (clear : Clear s i) (canon : s.canon = true) (few : s.active ≤ 16) (within : s.within (s.ctxOf i.stream))
    (quiet : i.bundle.m.quiet = true) (major : i.bundle.v1.major.toNat ∈ elementwise)
    (idle : (s.ctxOf i.stream).vl = 0 → s.vectored i = s)
    (scans : 0 < (s.ctxOf i.stream).vl →
      ∃ r0, s.vectored i = scanFinish (s.env i) s cf op ((s.env i).active i.bundle.v1.km) r0
      ((s.env i).rowScan cf node fin item)) :
    let v := i.bundle.v1
    let c := s.ctxOf i.stream
    let t := s.settle (s.executed i)
    let k := v.ts.toNat % 4
    let seg := (s.env i).segScan cf node fin item
    WritesRun s t i.stream v.dst (fmtOf v.dfmt).bytes (fun j =>
        if s.on v.km j then
          some (((seg (j / c.segment)).1.getD (j % c.segment) none).elim 0 fun x =>
            ((fmtOf v.dfmt).round (cf.value x.code) ((s.env i).rnd v.rm v.dcls j)).val)
        else i.bundle.off) ∧
      (c.vl ≠ 0 → t.carry k = ⟨BitVec.ofNat 32 (((seg ((c.vl - 1) / c.segment)).2.map (·.code)).getD
        (scanIdentity cf op)), v.fn.getLsbD 3, true⟩) ∧
      ∀ n, n < 4 → n ≠ k → t.carry n = s.carry n := by
  intro v c t k seg
  have dst (writes : v.dst.getLsbD 7 = false) : ∃ u ∈ slabUses s c.ew.bytes i.bundle,
      u.o = Opnd.of v.dst ∧ u.run = runLen c.ew.bytes (fmtOf v.dfmt).bytes :=
    ⟨_, v1Use_mem (v1Uses_dst major writes), rfl, rfl⟩
  have hoops : (s.vectored i).hoops = (writeTo s s i.stream v.dst (fmtOf v.dfmt).bytes
      ((s.env i).scanValues cf fun j => (seg (j / c.segment)).1.getD (j % c.segment) none)).hoops := by
    by_cases empty : c.vl = 0
    · rw [idle empty, Env.scanValues, show (s.env i).vl = 0 from empty]
      exact (congrArg State.hoops (writeTo_nil ..)).symm
    · obtain ⟨r0, done⟩ := scans (Nat.pos_of_ne_zero empty)
      rw [done]
      exact scanFinish_hoops (e := s.env i) s cf op r0 fun j below => rowScan_prefix below
  have carry (some : 0 < c.vl) {n : Nat} (hn : n < 4) : t.carry n = if n = k then
      ⟨BitVec.ofNat 32 ((((s.env i).rowScan cf node fin item).val.2.map (·.code)).getD (scanIdentity cf op)),
        v.fn.getLsbD 3, true⟩ else s.carry n := by
    obtain ⟨r0, done⟩ := scans some
    rw [settled_carry, done]
    exact scanFinish_carry (e := s.env i) s cf op _ r0 _ hn
  refine ⟨writesRun_settled clear canon few within quiet (Fmt.bytes_cases _) dst hoops rfl rfl ?_ fun _ j below => ?_,
    fun some => ?_, fun n hn other => ?_⟩
  · rw [Env.scanValues, List.length_map, List.length_range]
    exact Nat.le_refl _
  · rw [← masked_eq s i]
    exact getElem?_range_join below _
  · have positive := Nat.pos_of_ne_zero some
    rw [carry positive (Nat.mod_lt _ (by decide)), if_pos rfl, rowScan_val (e := s.env i) positive]
    rfl
  · by_cases empty : c.vl = 0
    · rw [settled_carry, idle empty]
    · rw [carry (Nat.pos_of_ne_zero empty) hn, if_neg other]

/-- The source elements of active elements behind the gate. -/
theorem scanLanes_eq {e : Env} (wf : SMap.wf 0 e.s.hoops = true) (within : e.s.within e.ctx) (cf : CF) (sf : Fmt)
    (f : BitVec 8) (km : BitVec 3) : (splitLanes (lanesOf cf sf (e.active km) (e.codes f sf.bytes))).1 =
      (List.range e.vl).map fun j =>
        if e.s.on km j then some (loadLane cf sf (e.s.source e.st f sf.bytes j)).val else none := by
  rw [splitLanes_fst, active_eq, codes_eq wf within _ (Fmt.bytes_cases _), lanesOf_range, List.map_map]
  refine List.map_congr_left fun j _ => ?_
  exact apply_ite (Option.map fun x : Res Lane => x.val) _ _ _

/-- The node of a SCAN (R226). -/
def Env.scanNode (e : Env) : Lane → Lane → Res Lane :=
  nodeEval (accCf e.b.v1) (if e.b.v1.fn.toNat % 4 = 0 then .add else if e.b.v1.fn.toNat % 4 = 1 then .max else .mul)

/-- The gated source element `j` that field `f` names. -/
def Env.scanLane (e : Env) (f : BitVec 8) (j : Nat) : Lane :=
  (loadLane (accCf e.b.v1) (fmtOf e.b.v1.sfmt) (e.s.source e.st f (fmtOf e.b.v1.sfmt).bytes j)).val

/-- What element `j` brings to a SCAN. -/
def Env.scanItem (e : Env) (j : Nat) : Option Lane := if e.s.on e.b.v1.km j then some (e.scanLane e.b.v1.src1 j) else none

/-- What element `j` brings to an LSCAN (R227). -/
def Env.pairItem (e : Env) (j : Nat) : Option ScanPair :=
  if e.s.on e.b.v1.km j then some ⟨e.scanLane e.b.v1.src1 j, e.scanLane e.b.v1.src2 j⟩ else none

/-- A pair of two elements of one index, both active or neither. -/
def pairOf (p : Option Lane × Option Lane) : Option ScanPair :=
  match p.1, p.2 with
  | some a, some b => some (ScanPair.mk a b)
  | _, _ => none

theorem pairItem_eq (e : Env) (j : Nat) : e.pairItem j =
    pairOf (if e.s.on e.b.v1.km j then some (e.scanLane e.b.v1.src1 j) else none,
      if e.s.on e.b.v1.km j then some (e.scanLane e.b.v1.src2 j) else none) := by
  unfold Env.pairItem
  split <;> rfl

theorem scanEffect_idle {e : Env} (t : State) (h : e.vl = 0) : scanEffect e t = t := if_pos h

theorem lscanEffect_idle {e : Env} (t : State) (h : e.vl = 0) : lscanEffect e t = t := if_pos h

section

variable {e : Env} (wf : SMap.wf 0 e.s.hoops = true) (within : e.s.within e.ctx) (some : 0 < e.vl)

include wf within some

theorem scanEffect_eq (t : State) : ∃ r0, scanEffect e t =
    scanFinish e t (accCf e.b.v1) (e.b.v1.fn.toNat % 4) (e.active e.b.v1.km) r0
      (e.rowScan (accCf e.b.v1) e.scanNode (carryOn e.scanNode) e.scanItem) := by
  have row : e.rowScan (accCf e.b.v1) e.scanNode (carryOn e.scanNode) e.scanItem =
      scanSegs e.scanNode (carryOn e.scanNode) ((e.carryIn (accCf e.b.v1)).map (·.val)) e.segLen
        (splitLanes (lanesOf (accCf e.b.v1) (fmtOf e.b.v1.sfmt) (e.active e.b.v1.km)
          (e.codes e.b.v1.src1 (fmtOf e.b.v1.sfmt).bytes))).1 := by
    rw [carryIn_val, scanLanes_eq wf within]
    rfl
  rw [row]
  exact ⟨_, if_neg (Nat.pos_iff_ne_zero.mp some)⟩

theorem lscanEffect_eq (t : State) : ∃ r0, lscanEffect e t =
    scanFinish e t (accCf e.b.v1) 3 (e.active e.b.v1.km) r0
      (e.rowScan (accCf e.b.v1) (pairCombine (accCf e.b.v1)) (pairApply (accCf e.b.v1)) e.pairItem) := by
  have row : e.rowScan (accCf e.b.v1) (pairCombine (accCf e.b.v1)) (pairApply (accCf e.b.v1)) e.pairItem =
      scanSegs (pairCombine (accCf e.b.v1)) (pairApply (accCf e.b.v1)) ((e.carryIn (accCf e.b.v1)).map (·.val)) e.segLen
        (((splitLanes (lanesOf (accCf e.b.v1) (fmtOf e.b.v1.sfmt) (e.active e.b.v1.km)
            (e.codes e.b.v1.src1 (fmtOf e.b.v1.sfmt).bytes))).1.zip
          (splitLanes (lanesOf (accCf e.b.v1) (fmtOf e.b.v1.sfmt) (e.active e.b.v1.km)
            (e.codes e.b.v1.src2 (fmtOf e.b.v1.sfmt).bytes))).1).map pairOf) := by
    rw [carryIn_val, scanLanes_eq wf within, scanLanes_eq wf within, List.zip_map', List.map_map, Env.rowScan,
      funext (pairItem_eq e)]
    rfl
  rw [row]
  exact ⟨_, if_neg (Nat.pos_iff_ne_zero.mp some)⟩

end

theorem vectored_scan {s : State} {i : Issue} (nop : i.bundle.v0.isNop = true) (major : i.bundle.v1.major = 5) :
    s.vectored i = scanEffect (s.env i) s := by
  rw [vectored_of_v1 nop, v1Effect, show (s.env i).b.v1.major = 5 from major]
  rfl

theorem vectored_lscan {s : State} {i : Issue} (nop : i.bundle.v0.isNop = true) (major : i.bundle.v1.major = 6) :
    s.vectored i = lscanEffect (s.env i) s := by
  rw [vectored_of_v1 nop, v1Effect, show (s.env i).b.v1.major = 6 from major]
  rfl

end Sys2Proof.Machine
open Sys2Proof Sys2Proof.Machine

/-- Settles O26: the segments' scans stand side by side in the run, and the last one leaves the carry. -/
theorem scannedSegments : Obligations.ScannedSegments := by
  unfold Obligations.ScannedSegments
  intro i s clear canon few within nop quiet v c e sf df cf lane k carried gives
  refine ⟨fun major => ⟨_, exec_of_clear rfl (by simp [Instr.wf, Instr.row, Bundle.carries, show i.bundle.v1.major = _ from major]) clear, ?_⟩,
    fun major => ⟨_, exec_of_clear rfl (by simp [Instr.wf, Instr.row, Bundle.carries, show i.bundle.v1.major = _ from major]) clear, ?_⟩⟩
  · have dst : i.bundle.v1.major.toNat ∈ elementwise := by simp [elementwise, show i.bundle.v1.major = _ from major]
    refine scan_gives (item := e.scanItem) clear canon few within quiet dst (fun empty => ?_) (fun some => ?_)
    · exact (vectored_scan nop major).trans (scanEffect_idle s empty)
    · obtain ⟨r0, done⟩ := scanEffect_eq (e := e) (State.canon_hoops canon) within some s
      exact ⟨r0, (vectored_scan nop major).trans done⟩
  · have dst : i.bundle.v1.major.toNat ∈ elementwise := by simp [elementwise, show i.bundle.v1.major = _ from major]
    refine scan_gives (item := e.pairItem) clear canon few within quiet dst (fun empty => ?_) (fun some => ?_)
    · exact (vectored_lscan nop major).trans (lscanEffect_idle s empty)
    · obtain ⟨r0, done⟩ := lscanEffect_eq (e := e) (State.canon_hoops canon) within some s
      exact ⟨r0, (vectored_lscan nop major).trans done⟩
end

section
/-!
SUPPORT. The cells of a chain as R91 tabulates them (R89 to R95, R145 to R151). Used by O20.
-/

namespace Sys2Proof.Machine

/-! ### Patterns of 32 bits -/

theorem satInt_eq (i : Int) :
    (satInt 32 i).val = ((max (-(2 ^ 31)) (min (2 ^ 31 - 1) i)) % 2 ^ 32).toNat := by
  unfold satInt
  split
  · next above => rw [min_eq_left (by omega), max_eq_right (by omega)]; rfl
  · split
    · next below => rw [min_eq_right (by omega), max_eq_left (by omega)]; rfl
    · next above below => rw [min_eq_right (by omega), max_eq_right (by omega)]; rfl

theorem satInt_lt (i : Int) : (satInt 32 i).val < 2 ^ 32 := by
  rw [satInt_eq]
  omega

theorem signedValue_ge (c : Nat) : -(2 ^ 31) ≤ signedValue 32 c := by
  unfold signedValue
  dsimp only
  split <;> omega

theorem signedValue_lt (c : Nat) : signedValue 32 c < 2 ^ 31 := by
  unfold signedValue
  dsimp only
  split <;> omega

theorem roundFp_f32_lt (x : Num) (m : Rnd) : (roundFp fpF32 x m).val < 2 ^ 32 := by
  have top : fpF32.maxCode + 2 ^ (fpF32.ebits + fpF32.mbits) < 2 ^ 32 := by decide
  have sign (s : Bool) : (if s then 2 ^ (fpF32.ebits + fpF32.mbits) else 0) ≤ 2 ^ (fpF32.ebits + fpF32.mbits) := by
    cases s <;> simp
  unfold roundFp
  split
  · next s mag exp =>
    have low := sign s
    dsimp only
    split
    · exact low.trans_lt (by omega)
    · split
      · show _ + _ < _
        omega
      · split
        · show _ + _ < _
          omega
        · show _ + _ < _
          omega
  · exact Nat.two_pow_pos 32

theorem roundE10_lt (x : Num) (m : Rnd) : (roundE10 x m).val < 2 ^ 32 := by
  have sign (s : Bool) : (if s then 2 ^ 31 else 0) ≤ 2 ^ 31 := by cases s <;> simp
  unfold roundE10
  split
  · next s mag exp =>
    have low := sign s
    dsimp only
    split
    · exact low.trans_lt (by omega)
    · split
      · show _ + _ < _
        omega
      · split
        · show _ + _ < _
          omega
        · split
          · exact low.trans_lt (by omega)
          · show _ + _ < _
            omega
  · exact Nat.two_pow_pos 32

theorem roundInt_lt (x : Num) (m : Rnd) : (roundInt 32 x m).val < 2 ^ 32 := by
  unfold roundInt
  split
  · dsimp only
    split
    · show (if _ then _ else _) < _
      split <;> decide
    · split <;> split <;> exact satInt_lt _
  · exact Nat.two_pow_pos 32

/-- A rounding to a chain format gives 32 bits. -/
theorem CF.round_lt (cf : CF) (x : Num) : (cf.round x).val < 2 ^ 32 := by
  cases x with
  | nan => cases cf <;> decide
  | inf s =>
    cases cf with
    | f32 => exact roundFp_f32_lt _ _
    | e10 => exact roundE10_lt _ _
    | i32 => exact roundInt_lt _ _
  | fin s mag exp =>
    cases cf with
    | f32 => exact roundFp_f32_lt _ _
    | e10 => exact roundE10_lt _ _
    | i32 => exact roundInt_lt _ _

theorem CF.nanCode_lt (cf : CF) : cf.nanCode < 2 ^ 32 := by cases cf <;> decide

theorem loadLane_lt (cf : CF) (f : Fmt) (code : Nat) : (loadLane cf f code).val.code < 2 ^ 32 := by
  unfold loadLane
  simp only [Res.bind]
  split
  · exact cf.nanCode_lt
  · exact cf.round_lt _

/-! ### What the lane functions compute -/

theorem CF.isInt_iff (cf : CF) : cf.isInt = true ↔ cf = .i32 := by cases cf <;> simp [CF.isInt]

theorem mulLane_eq (cf : CF) (x y : Lane) : (mulLane cf x y).val = cellProduct cf x y := by
  unfold mulLane cellProduct
  simp only [CF.isInt_iff]
  split
  · exact satInt_eq _
  · rfl

theorem addLane_eq (cf : CF) (x y : Nat) : (addLane cf x y).val = cellSum cf x y := by
  unfold addLane cellSum
  simp only [CF.isInt_iff]
  split
  · exact satInt_eq _
  · rfl

theorem negLane_eq (cf : CF) (x : Nat) : (negLane cf x).val = flipped cf x := by
  unfold negLane flipped
  simp only [CF.isInt_iff]
  split
  · have above := signedValue_lt x
    have same : max (-(2 ^ 31)) (min (2 ^ 31 - 1) (-(signedValue 32 x))) = min (2 ^ 31 - 1) (-(signedValue 32 x)) :=
      max_eq_right (by omega)
    rw [satInt_eq, int32, same]
  · split
    · rfl
    · split <;> rfl

theorem absLane_int (x : Nat) : (satInt 32 (int32 x).natAbs).val =
    ((min (2 ^ 31 - 1) ((signedValue 32 x).natAbs : Int)) % 2 ^ 32).toNat := by
  have same : max (-(2 ^ 31)) (min (2 ^ 31 - 1) ((signedValue 32 x).natAbs : Int)) =
      min (2 ^ 31 - 1) ((signedValue 32 x).natAbs : Int) := max_eq_right (by omega)
  rw [satInt_eq, int32, same]

theorem cellProduct_lt (cf : CF) (x y : Lane) : cellProduct cf x y < 2 ^ 32 := by
  unfold cellProduct
  split
  · omega
  · exact cf.round_lt _

theorem cellSum_lt (cf : CF) (x y : Nat) : cellSum cf x y < 2 ^ 32 := by
  unfold cellSum
  split
  · omega
  · exact cf.round_lt _

theorem flipped_lt (cf : CF) {x : Nat} (h : x < 2 ^ 32) : flipped cf x < 2 ^ 32 := by
  unfold flipped
  split
  · omega
  · split
    · exact cf.nanCode_lt
    · split
      · omega
      · next positive =>
        have low : x < 2 ^ 31 := by
          by_contra high
          exact positive (Nat.testBit_of_two_pow_le_and_two_pow_add_one_gt (Nat.le_of_not_lt high) h)
        omega

/-! ### Cells -/

/-- MIN and MAX by R91. -/
theorem minMaxLane_eq (cf : CF) (isMax : Bool) (fn : Nat) (x y : Nat) : (minMaxLane cf isMax fn x y).val =
    if ((cf.value x).isNan || (cf.value y).isNan) = true then
      (if fn = 0 ∨ ((cf.value x).isNan = true ∧ (cf.value y).isNan = true) then cf.nanCode
        else if (cf.value x).isNan then y else x)
    else minMaxNum cf isMax x y := by
  unfold minMaxLane
  cases (cf.value x).isNan <;> cases (cf.value y).isNan
  · rfl
  · by_cases h : fn = 0 <;> simp [h, Res.pure]
  · by_cases h : fn = 0 <;> simp [h, Res.pure]
  · simp

/-- NaN compares less and equal to nothing. -/
theorem unordered_of_nan {x y : Num} (h : (x.isNan || y.isNan) = true) :
    x.lt y = false ∧ y.lt x = false ∧ x.eqv y = false ∧ y.eqv x = false := by
  cases x with
  | nan => cases y <;> exact ⟨rfl, rfl, rfl, rfl⟩
  | inf s => cases y <;> exact ⟨rfl, rfl, rfl, rfl⟩
  | fin s a e =>
    cases y with
    | nan => exact ⟨rfl, rfl, rfl, rfl⟩
    | inf t => exact ⟨rfl, rfl, rfl, rfl⟩
    | fin t b f => exact absurd h Bool.false_ne_true

theorem eqv_symm (x y : Num) : x.eqv y = y.eqv x := by
  cases x with
  | nan => cases y <;> rfl
  | inf s => cases y <;> rfl
  | fin s a e =>
    cases y with
    | nan => rfl
    | inf t => rfl
    | fin t b f => exact Bool.and_comm ..

theorem cmpLane_eq (cf : CF) (fn : Nat) (x y : Nat) : cmpLane cf fn x y = cmpRule cf fn x y := by
  unfold cmpLane cmpRule Num.le
  dsimp only
  rw [eqv_symm (cf.value y)]
  by_cases un : ((cf.value x).isNan || (cf.value y).isNan) = true
  · obtain ⟨less, more, equal, -⟩ := unordered_of_nan un
    rw [un, less, more, equal, if_pos rfl]
    match fn with
    | 0 | 1 | 2 | 3 | 4 | 5 | 6 => rfl
    | n + 7 => exact (Bool.or_eq_false_iff.mpr ⟨beq_eq_false_iff_ne.mpr (by omega), beq_eq_false_iff_ne.mpr (by omega)⟩).symm
  · rw [if_neg un, Bool.eq_false_iff.mpr un]
    match fn with
    | 0 | 1 | 2 | 3 | 4 | 5 | 6 => rfl
    | n + 7 => rfl

/-- An infinity has the top exponent and no fraction (R120). -/
theorem value_eq_inf {F : FpFmt} {c : Nat} {s : Bool} (h : F.value c = .inf s) :
    c >>> F.mbits % 2 ^ F.ebits = 2 ^ F.ebits - 1 ∧ c % 2 ^ F.mbits = 0 := by
  unfold FpFmt.value at h
  dsimp only at h
  split at h
  · next top =>
    split at h
    · next fraction => exact ⟨(beq_iff_eq.mp (Bool.and_eq_true_iff.mp top).2), fraction⟩
    · cases h
  · split at h
    · cases h
    · split at h <;> cases h

theorem fixPattern_eq (cf : CF) {c : Nat} (h : c < 2 ^ 32) : (fixPattern cf c).val =
    if cf = .f32 then (if c = 0x7F800000 then 0x7F7FFFFF else if c = 0xFF800000 then 0xFF7FFFFF else c) else c := by
  unfold fixPattern
  split
  · by_cases positive : c = 0x7F800000
    · rw [positive]
      rfl
    · by_cases negative : c = 0xFF800000
      · rw [negative]
        rfl
      · have finite (s : Bool) : Fmt.f32.value c ≠ .inf s := by
          intro inf
          obtain ⟨exponent, fraction⟩ := value_eq_inf (F := fpF32) inf
          have full : c / 2 ^ 23 % 256 = 255 := (congrArg (· % 256) (Nat.shiftRight_eq_div_pow c 23)).symm.trans exponent
          have rest : c % 2 ^ 23 = 0 := fraction
          omega
        rw [if_neg positive, if_neg negative, Fmt.gate]
        split
        · next s inf => exact absurd inf (finite s)
        · rfl
  · rfl

theorem negLane_if (cf : CF) (c : Bool) (x : Nat) :
    (if c then negLane cf x else .pure x : Res Nat).val = if c then flipped cf x else x := by
  cases c
  · rfl
  · exact negLane_eq cf x

/-- A subtracting cell: the difference in integers, else the sum with the flipped operand. -/
theorem subLane_eq (cf : CF) (x y : Nat) :
    (if cf.isInt then satInt 32 (int32 x - int32 y) else (negLane cf y).bind fun n => addLane cf x n : Res Nat).val =
      if cf = .i32 then ((max (-(2 ^ 31)) (min (2 ^ 31 - 1) (signedValue 32 x - signedValue 32 y))) % 2 ^ 32).toNat
      else cellSum cf x (flipped cf y) := by
  simp only [CF.isInt_iff]
  split
  · exact satInt_eq _
  · show (addLane cf x (negLane cf y).val).val = _
    rw [negLane_eq, addLane_eq]

theorem passLane_eq (cf : CF) (fn x : Nat) : (passLane cf fn x).val =
    if fn = 0 then x
    else if cf = .i32 then
      (if fn = 1 then flipped cf x else ((min (2 ^ 31 - 1) ((signedValue 32 x).natAbs : Int)) % 2 ^ 32).toNat)
    else if (cf.value x).isNan then cf.nanCode
    else if fn = 1 then flipped cf x
    else x % 2 ^ 31 := by
  unfold passLane
  split
  · rfl
  · by_cases int : cf = .i32
    · subst int
      have number : (CF.i32.value x).isNan = false := rfl
      rw [number, if_neg Bool.false_ne_true, if_pos rfl]
      split
      · exact negLane_eq .i32 x
      · exact absLane_int x
    · rw [if_neg int]
      split
      · rfl
      · split
        · exact negLane_eq cf x
        · unfold absLane
          rw [if_neg (fun h => int ((CF.isInt_iff cf).mp h))]
          rfl

theorem cvtTarget_eq (fn : Nat) : cvtTarget fn = [Fmt.bf16, .f16, .e4m3, .e5m2, .int8, .int16].getD fn .int16 := by
  match fn with
  | 0 | 1 | 2 | 3 | 4 | 5 => rfl
  | n + 6 => rfl

/-- The nearest integral value as a pattern; NaN for what is not finite (R93). -/
def integralPattern (cf : CF) (x : Nat) (m : Rnd) : Num → Nat
  | .fin s mag exp => if 0 ≤ exp then x else (cf.round (.fin s (roundWeight mag exp 0 m).1 0)).val
  | _ => cf.nanCode

theorem integralLane_eq (cf : CF) (x : Nat) (m : Rnd) : (integralLane cf x m).val =
    integralPattern cf x m (cf.value x) := by
  unfold integralLane integralPattern
  cases cf.value x with
  | fin s mag exp =>
    dsimp only
    split <;> rfl
  | inf s => rfl
  | nan => rfl

theorem cvtLane_eq (cf : CF) (fn x : Nat) (m : Rnd) : (cvtLane cf fn x m).val =
    if fn = 6 then integralPattern cf x m (cf.value x)
    else
      let t : Fmt := [Fmt.bf16, .f16, .e4m3, .e5m2, .int8, .int16].getD fn .int16
      let c := (t.round (cf.value x) m).val
      if cf = .i32 then (signedValue (8 * t.bytes) c % 2 ^ 32).toNat else (cf.round (t.value c)).val := by
  unfold cvtLane
  split
  · exact integralLane_eq cf x m
  · rw [cvtTarget_eq]
    simp only [Res.map, CF.isInt_iff]

/-- The pattern that a LOGIC cell forms before the gate. -/
def logicPattern (fn x y : Nat) : Nat :=
  match fn with
  | 0 => x &&& y
  | 1 => x ||| y
  | 2 => x ^^^ y
  | 3 => x &&& (y ^^^ 0xFFFFFFFF)
  | 4 => x ^^^ 0xFFFFFFFF
  | _ => x % 2 ^ 31 + (if y.testBit 31 then 2 ^ 31 else 0)

theorem logicPattern_lt (fn : Nat) {x y : Nat} (hx : x < 2 ^ 32) (hy : y < 2 ^ 32) : logicPattern fn x y < 2 ^ 32 := by
  match fn with
  | 0 => exact Nat.and_lt_two_pow x hy
  | 1 => exact Nat.or_lt_two_pow hx hy
  | 2 => exact Nat.xor_lt_two_pow hx hy
  | 3 => exact Nat.and_lt_two_pow x (Nat.xor_lt_two_pow hy (by decide))
  | 4 => exact Nat.xor_lt_two_pow hx (by decide)
  | n + 5 =>
    have sign : (if y.testBit 31 then 2 ^ 31 else 0) ≤ 2 ^ 31 := by split <;> decide
    show _ + _ < _
    omega

/-- The pattern that a SHIFT cell forms before the gate. -/
def shiftPattern (fn x y : Nat) : Nat :=
  match fn with
  | 0 => (BitVec.ofNat 32 x <<< (y % 32)).toNat
  | 1 => (BitVec.ofNat 32 x >>> (y % 32)).toNat
  | 2 => ((BitVec.ofNat 32 x).sshiftRight (y % 32)).toNat
  | _ => ((BitVec.ofNat 32 x).rotateRight (y % 32)).toNat

theorem shiftPattern_lt (fn x y : Nat) : shiftPattern fn x y < 2 ^ 32 := by
  match fn with
  | 0 | 1 | 2 => exact BitVec.isLt _
  | n + 3 => exact BitVec.isLt _

/-- MIN and MAX pick an operand, whose order R149 gives. -/
theorem minMaxNum_eq (cf : CF) {isMax : Bool} {op : Nat} (h : isMax = !decide (op = 4)) (x y : Nat) :
    minMaxNum cf isMax x y =
      if ((cf.value x).lt (cf.value y) || ((cf.value x).isZero && (cf.value y).isZero && (cf.value x).isNeg &&
        !(cf.value y).isNeg)) = (op = 4) then x else y := by
  unfold minMaxNum
  dsimp only
  rw [h]
  generalize ((cf.value x).lt (cf.value y) || _) = less
  by_cases four : op = 4 <;> cases less <;> simp [four]

/-- One cell gives what R91 tabulates. -/
theorem cellEval_eq {cf : CF} {rz : Bool} {g : Cell} {o : Operands} {kd : Bool} {x : Lane} {p : Option Bool}
    (op : g.op ≠ 0) (hx : x.code < 2 ^ 32) (hy : (o.sel g.ys).code < 2 ^ 32) :
    (cellEval cf rz g o kd x p).val =
      (cellRule cf rz g.op.toNat g.fn.toNat x (o.sel g.ys) (o.sel g.zs) (p.getD kd),
        if g.op = 6 then some (cmpRule cf g.fn.toNat x.code (o.sel g.ys).code) else p) := by
  have six : (g.op = 6) = (g.op.toNat = 6) := propext BitVec.toNat_eq
  have some : g.op.toNat ≠ 0 := fun h => op (BitVec.eq_of_toNat_eq h)
  have even : g.fn.getLsbD 0 = decide (g.fn.toNat % 2 = 1) := Nat.testBit_zero _
  have second : g.fn.getLsbD 1 = decide (g.fn.toNat / 2 % 2 = 1) := by
    exact (Nat.testBit_succ g.fn.toNat 0).trans (Nat.testBit_zero _)
  unfold cellEval
  rw [even, second]
  simp only [six]
  generalize g.op.toNat = n at some
  generalize o.sel g.ys = y at hy
  generalize g.fn.toNat = fn
  match n with
  | 0 => exact absurd rfl some
  | 1 =>
    refine Prod.ext ?_ rfl
    show (addLane cf _ _).val = _
    rw [addLane_eq, negLane_if, negLane_if, mulLane_eq]
    simp only [decide_eq_true_eq]
    rfl
  | 2 =>
    refine Prod.ext ?_ rfl
    match fn with
    | 0 => exact addLane_eq ..
    | 1 => exact subLane_eq cf x.code y.code
    | k + 2 => exact subLane_eq cf y.code x.code
  | 3 =>
    refine Prod.ext ?_ rfl
    show (if fn = 1 then negLane cf (mulLane cf x y).val else .pure (mulLane cf x y).val : Res Nat).val = _
    rw [mulLane_eq]
    show _ = if fn = 1 then flipped cf (cellProduct cf x y) else cellProduct cf x y
    split
    · exact negLane_eq ..
    · rfl
  | 4 =>
    refine Prod.ext ((minMaxLane_eq ..).trans ?_) rfl
    rw [minMaxNum_eq cf (isMax := false) (op := 4) rfl]
    rfl
  | 5 =>
    refine Prod.ext ((minMaxLane_eq ..).trans ?_) rfl
    rw [minMaxNum_eq cf (isMax := true) (op := 5) rfl]
    rfl
  | 6 => exact Prod.ext rfl (congrArg Option.some (cmpLane_eq ..))
  | 7 => rfl
  | 8 => exact Prod.ext ((fixPattern_eq cf (logicPattern_lt fn hx hy)).trans rfl) rfl
  | 9 => exact Prod.ext ((fixPattern_eq cf (shiftPattern_lt fn x.code y.code)).trans rfl) rfl
  | 10 => exact Prod.ext ((cvtLane_eq ..).trans rfl) rfl
  | n + 11 => exact Prod.ext ((passLane_eq ..).trans rfl) rfl

theorem finite_lt (cf : CF) {c : Nat} (h : c < 2 ^ 32) : (fixPattern cf c).val < 2 ^ 32 := by
  rw [fixPattern_eq cf h]
  split
  · split
    · decide
    · split
      · decide
      · exact h
  · exact h

theorem integralPattern_lt (cf : CF) {x : Nat} (h : x < 2 ^ 32) (m : Rnd) (v : Num) : integralPattern cf x m v < 2 ^ 32 := by
  cases v with
  | fin s mag exp =>
    show (if 0 ≤ exp then x else _) < _
    split
    · exact h
    · exact cf.round_lt _
  | inf s => exact cf.nanCode_lt
  | nan => exact cf.nanCode_lt

theorem passLane_lt (cf : CF) (fn : Nat) {x : Nat} (h : x < 2 ^ 32) : (passLane cf fn x).val < 2 ^ 32 := by
  rw [passLane_eq]
  split
  · exact h
  · split
    · split
      · exact flipped_lt cf h
      · omega
    · split
      · exact cf.nanCode_lt
      · split
        · exact flipped_lt cf h
        · omega

theorem subLane_lt (cf : CF) (x y : Nat) :
    (if cf.isInt then satInt 32 (int32 x - int32 y) else (negLane cf y).bind fun n => addLane cf x n : Res Nat).val <
      2 ^ 32 := by
  rw [subLane_eq]
  split
  · omega
  · exact cellSum_lt ..

theorem minMaxLane_lt (cf : CF) (isMax : Bool) (fn : Nat) {x y : Nat} (hx : x < 2 ^ 32) (hy : y < 2 ^ 32) :
    (minMaxLane cf isMax fn x y).val < 2 ^ 32 := by
  have pick (c : Prop) [Decidable c] {a b : Nat} (ha : a < 2 ^ 32) (hb : b < 2 ^ 32) : (if c then a else b) < 2 ^ 32 := by
    split <;> assumption
  rw [minMaxLane_eq]
  refine pick _ (pick _ cf.nanCode_lt (pick _ hy hx)) ?_
  unfold minMaxNum
  dsimp only
  exact pick _ (pick _ hy hx) (pick _ hx hy)

/-- A cell's result has 32 bits. -/
theorem cellEval_lt {cf : CF} {rz : Bool} {g : Cell} {o : Operands} {kd : Bool} {x : Lane} {p : Option Bool}
    (hx : x.code < 2 ^ 32) (hy : (o.sel g.ys).code < 2 ^ 32) : (cellEval cf rz g o kd x p).val.1 < 2 ^ 32 := by
  unfold cellEval
  dsimp only
  generalize o.sel g.ys = y at hy
  generalize g.fn.toNat = fn
  generalize g.op.toNat = n
  match n with
  | 0 => exact passLane_lt cf fn hx
  | 1 =>
    show (addLane cf _ _).val < _
    rw [addLane_eq]
    exact cellSum_lt ..
  | 2 =>
    match fn with
    | 0 =>
      show (addLane cf _ _).val < _
      rw [addLane_eq]
      exact cellSum_lt ..
    | 1 => exact subLane_lt cf x.code y.code
    | k + 2 => exact subLane_lt cf y.code x.code
  | 3 =>
    show (if fn = 1 then negLane cf (mulLane cf x y).val else .pure (mulLane cf x y).val : Res Nat).val < _
    rw [mulLane_eq]
    split
    · rw [negLane_eq]
      exact flipped_lt cf (cellProduct_lt ..)
    · exact cellProduct_lt ..
  | 4 => exact minMaxLane_lt cf false fn hx hy
  | 5 => exact minMaxLane_lt cf true fn hx hy
  | 6 => exact hx
  | 7 =>
    show (if _ then x.code else y.code) < _
    split <;> assumption
  | 8 => exact finite_lt cf (logicPattern_lt fn hx hy)
  | 9 => exact finite_lt cf (shiftPattern_lt fn x.code y.code)
  | 10 =>
    show (cvtLane cf fn x.code _).val < _
    rw [cvtLane_eq]
    split
    · exact integralPattern_lt cf hx _ _
    · dsimp only
      split
      · omega
      · exact cf.round_lt _
  | n + 11 => exact passLane_lt cf fn hx

theorem sel_lt {o : Operands} (ha : o.a.code < 2 ^ 32) (hb : o.b.code < 2 ^ 32) (hc : o.c.code < 2 ^ 32) (k : BitVec 2) :
    (o.sel k).code < 2 ^ 32 := by
  unfold Operands.sel
  split
  · exact hb
  · exact hc
  · exact ha
  · exact Nat.two_pow_pos 32

theorem sel_eq (o : Operands) (k : BitVec 2) : o.sel k = [o.b, o.c, o.a, ⟨0, true⟩].getD k.toNat ⟨0, true⟩ := by
  unfold Operands.sel
  match k.toNat with
  | 0 | 1 | 2 | 3 => rfl
  | n + 4 => rfl

/-- A chain gives what its cells tabulate one after the other. -/
theorem chainEval_eq {cf : CF} {rz : Bool} {o : Operands} {kd : Bool} (ha : o.a.code < 2 ^ 32) (hb : o.b.code < 2 ^ 32)
    (hc : o.c.code < 2 ^ 32) (cells : List Cell) {x : Lane} (hx : x.code < 2 ^ 32) (p : Option Bool) :
    (chainEval cf rz o kd cells x p).val = chainRule cf rz o.a o.b o.c kd cells x p := by
  induction cells generalizing x p with
  | nil => rfl
  | cons g gs ih =>
    unfold chainEval chainRule
    split
    · rfl
    · next op =>
      have hy := sel_lt ha hb hc g.ys
      show (chainEval cf rz o kd gs ⟨(cellEval cf rz g o kd x p).val.1, false⟩ (cellEval cf rz g o kd x p).val.2).val = _
      rw [ih (cellEval_lt hx hy), cellEval_eq op hx hy, sel_eq, sel_eq]

end Sys2Proof.Machine
end

section
/-!
SUPPORT. CHAIN element by element, and the mask that its predicate goes to (R54, R62, R90 to R95). Settles O20.
-/

namespace Sys2Proof.Machine

/-! ### A mask written -/

/-- The value that `maskWrite` forms of its first bits. -/
def lowBits (bit : Option Bool → Nat → Bool) (vals : List (Option Bool)) : Nat :=
  vals.zipIdx.foldl (fun acc p => if bit p.1 p.2 then acc + 2 ^ p.2 else acc) 0

theorem lowBits_append (bit : Option Bool → Nat → Bool) (vals : List (Option Bool)) (v : Option Bool) :
    lowBits bit (vals ++ [v]) = if bit v vals.length then lowBits bit vals + 2 ^ vals.length else lowBits bit vals := by
  rw [lowBits, List.zipIdx_append, List.foldl_append, Nat.zero_add]
  rfl

theorem lowBits_lt (bit : Option Bool → Nat → Bool) (vals : List (Option Bool)) :
    lowBits bit vals < 2 ^ vals.length := by
  induction vals using List.reverseRecOn with
  | nil => exact Nat.one_pos
  | append_singleton vals v ih =>
    rw [lowBits_append, List.length_append, List.length_singleton, Nat.pow_succ]
    split <;> omega

theorem lowBits_testBit (bit : Option Bool → Nat → Bool) (vals : List (Option Bool)) (j : Nat) :
    (lowBits bit vals).testBit j = (vals[j]?.map fun v => bit v j).getD false := by
  induction vals using List.reverseRecOn with
  | nil => exact Nat.zero_testBit j
  | append_singleton vals v ih =>
    have below := lowBits_lt bit vals
    rw [lowBits_append]
    rcases Nat.lt_trichotomy j vals.length with low | here | high
    · rw [List.getElem?_append_left low, ← ih]
      split
      · rw [Nat.add_comm, Nat.testBit_two_pow_add_gt low]
      · rfl
    · subst here
      rw [List.getElem?_append_right (Nat.le_refl _), Nat.sub_self]
      show _ = bit v vals.length
      have clear := Nat.testBit_lt_two_pow below
      split
      · next set => rw [Nat.add_comm, Nat.testBit_two_pow_add_eq, clear, set]; rfl
      · next unset => rw [clear, Bool.eq_false_iff.mpr unset]
    · have none : (vals ++ [v])[j]? = none := List.getElem?_eq_none (by simp; omega)
      rw [none]
      refine Nat.testBit_lt_two_pow (Nat.lt_of_lt_of_le (lowBits_append bit vals v ▸ lowBits_lt bit (vals ++ [v])) ?_)
      exact Nat.pow_le_pow_right (by decide) (by simp; omega)

/-- A mask written takes the bits given, and keeps the others. -/
theorem maskWrite_bit (old : BitVec 4096) (vals : List (Option Bool)) {j : Nat} (hj : j < 4096) :
    (maskWrite old vals).getLsbD j = ((vals[j]?).join).getD (old.getLsbD j) := by
  have low := lowBits_testBit (fun v j => v.getD (old.getLsbD j)) vals j
  have formed : maskWrite old vals = ((old >>> vals.length) <<< vals.length) |||
      BitVec.ofNat 4096 (lowBits (fun v j => v.getD (old.getLsbD j)) vals) := rfl
  rw [formed, BitVec.getLsbD_or, BitVec.getLsbD_ofNat, low, decide_eq_true hj, Bool.true_and, BitVec.getLsbD_shiftLeft,
    BitVec.getLsbD_ushiftRight, decide_eq_true hj, Bool.true_and]
  by_cases inside : j < vals.length
  · rw [List.getElem?_eq_getElem inside, decide_eq_true inside]
    cases vals[j] <;> rfl
  · rw [List.getElem?_eq_none (Nat.le_of_not_lt inside), decide_eq_false inside, Nat.add_sub_cancel' (Nat.le_of_not_lt inside)]
    exact Bool.or_false _

theorem maskPolicy_range (e : Env) (n : Nat) (on val : Nat → Bool) :
    e.maskPolicy ((List.range n).map on) ((List.range n).map val) =
      (List.range n).map fun j => if on j then some (val j) else if e.mp then some false else none := by
  rw [Env.maskPolicy, List.zip_map', List.map_map]
  rfl

/-! ### One element -/

/-- An operand of element `j` behind the gate; zero where no cell reads it. -/
def Env.chainLane (e : Env) (used : Bool) (f : BitVec 8) (g : Fmt) (j : Nat) : Lane :=
  if used then (loadLane (V0cf e.b.v0) g (e.s.source e.st f g.bytes j)).val else ⟨0, true⟩

/-- What the cells give element `j`: the result and the predicate. -/
def Env.chainResult (e : Env) (j : Nat) : Nat × Option Bool :=
  let v := e.b.v0
  let a := e.chainLane true v.a (fmtOf v.sfmt) j
  chainRule (V0cf v) (v.rm == 1 && v.dcls != 1 && v.dcls != 2) a (e.chainLane v.usesB v.b (fmtOf v.sfmt) j)
    (e.chainLane v.usesC v.c (fmtOf v.cfmt) j) (e.s.on v.kd j) [v.cell1, v.cell2, v.cell3] a none

/-- The code that element `j` takes in DFMT. -/
def Env.chainCode (e : Env) (j : Nat) : Nat :=
  ((fmtOf e.b.v0.dfmt).round ((V0cf e.b.v0).value (e.chainResult j).1) (e.rnd e.b.v0.rm e.b.v0.dcls j)).val

/-- The chain of element `j` on the codes that the lanes read. -/
def Env.chainAt (e : Env) (j : Nat) : Res (Nat × Option Bool) :=
  chainElem e j (e.s.source e.st e.b.v0.a (fmtOf e.b.v0.sfmt).bytes j) (e.s.source e.st e.b.v0.b (fmtOf e.b.v0.sfmt).bytes j)
    (e.s.source e.st e.b.v0.c (fmtOf e.b.v0.cfmt).bytes j) (e.s.on e.b.v0.kd j)

theorem chainLane_lt (e : Env) (used : Bool) (f : BitVec 8) (g : Fmt) (j : Nat) :
    (e.chainLane used f g j).code < 2 ^ 32 := by
  unfold Env.chainLane
  split
  · exact loadLane_lt ..
  · exact Nat.two_pow_pos 32

theorem chainAt_val (e : Env) (j : Nat) :
    (e.chainAt j).val = (if e.b.v0.d.getLsbD 7 then 0 else e.chainCode j, (e.chainResult j).2) := by
  have cells : (chainEval (V0cf e.b.v0) (e.b.v0.rm == 1 && e.b.v0.dcls != 1 && e.b.v0.dcls != 2)
      ⟨e.chainLane true e.b.v0.a (fmtOf e.b.v0.sfmt) j, e.chainLane e.b.v0.usesB e.b.v0.b (fmtOf e.b.v0.sfmt) j,
        e.chainLane e.b.v0.usesC e.b.v0.c (fmtOf e.b.v0.cfmt) j⟩ (e.s.on e.b.v0.kd j) e.b.v0.cells
      (e.chainLane true e.b.v0.a (fmtOf e.b.v0.sfmt) j) none).val = e.chainResult j :=
    chainEval_eq (chainLane_lt ..) (chainLane_lt ..) (chainLane_lt ..) _ (chainLane_lt ..) none
  have loadIf (used : Bool) (f : BitVec 8) (g : Fmt) :
      (if used then loadLane (V0cf e.b.v0) g (e.s.source e.st f g.bytes j) else .pure Lane.zero : Res Lane).val =
        e.chainLane used f g j := by cases used <;> rfl
  unfold Env.chainAt chainElem
  simp only [Res.bind, loadIf]
  rw [show (loadLane (V0cf e.b.v0) (fmtOf e.b.v0.sfmt) (e.s.source e.st e.b.v0.a (fmtOf e.b.v0.sfmt).bytes j)).val =
    e.chainLane true e.b.v0.a (fmtOf e.b.v0.sfmt) j from rfl, cells]
  split
  · rfl
  · rfl

/-! ### The row -/

/-- The chains of the elements; a masked one raises nothing. -/
def Env.chainRow (e : Env) : List (Res (Nat × Option Bool)) :=
  (List.range e.vl).map fun j => if e.s.on e.b.v0.km j then e.chainAt j else .pure (0, none)

/-- The run after a CHAIN. -/
def Env.chainRun (e : Env) (t : State) : State :=
  writeTo e.s t e.st e.b.v0.d (fmtOf e.b.v0.dfmt).bytes
    (e.policy (e.active e.b.v0.km) (e.chainRow.map fun r => r.val.1))

/-- The mask after a CHAIN. -/
def Env.chainMask (e : Env) : BitVec 4096 :=
  maskWrite (e.s.mask e.b.v0.kd.toNat)
    (e.maskPolicy (e.active e.b.v0.km) (e.chainRow.map fun r => r.val.2.getD false))

theorem chainEffect_idle {e : Env} (t : State) (h : e.vl = 0) : chainEffect e t = t := by
  unfold chainEffect
  dsimp only
  exact if_pos (by simp [h])

theorem chainEffect_eq {e : Env} (wf : SMap.wf 0 e.s.hoops = true) (within : e.s.within e.ctx) (major : e.b.v0.major = 1)
    (some : 0 < e.vl) (t : State) : chainEffect e t =
      (if e.b.v0.hasCmp then (e.chainRun t).setMask e.b.v0.kd.toNat e.chainMask else e.chainRun t).raise
        e.b.v0.dcls.toNat (raisesOf e.chainRow) := by
  have row : ((((e.active e.b.v0.km).zip ((e.codes e.b.v0.a (fmtOf e.b.v0.sfmt).bytes).zip
      ((e.codes e.b.v0.b (fmtOf e.b.v0.sfmt).bytes).zip ((e.codes e.b.v0.c (fmtOf e.b.v0.cfmt).bytes).zip
        (maskBits (e.s.mask e.b.v0.kd.toNat) e.vl))))).zipIdx).map fun p =>
      if p.1.1 then chainElem e p.2 p.1.2.1 p.1.2.2.1 p.1.2.2.2.1 p.1.2.2.2.2 else .pure (0, none)) = e.chainRow := by
    rw [codes_eq wf within _ (Fmt.bytes_cases _), codes_eq wf within _ (Fmt.bytes_cases _),
      codes_eq wf within _ (Fmt.bytes_cases _), maskBits, List.zip_map', List.zip_map', List.zip_map', active_eq,
      List.zip_map', zipIdx_range_map, List.map_map]
    rfl
  unfold chainEffect
  dsimp only
  rw [row, if_neg (by simp [major]; omega)]
  rfl

/-- The values that CHAIN writes. -/
def Env.chainValues (e : Env) : List (Option Nat) :=
  (List.range e.vl).map fun j => if e.s.on e.b.v0.km j then some (e.chainCode j) else e.masked

theorem chainRun_eq (e : Env) (t : State) :
    e.chainRun t = writeTo e.s t e.st e.b.v0.d (fmtOf e.b.v0.dfmt).bytes e.chainValues := by
  unfold Env.chainRun
  by_cases nw : e.b.v0.d.getLsbD 7 = true
  · rw [writeTo_eq_foldl, writeTo_eq_foldl, nw, Bool.true_or, if_pos rfl, if_pos rfl]
  · unfold Env.chainRow Env.chainValues
    rw [List.map_map, active_eq, policy_range]
    refine congrArg _ (List.map_congr_left fun j _ => ?_)
    split
    · next on => rw [Function.comp_apply, if_pos on, chainAt_val, if_neg nw]
    · rfl

theorem chainMask_bit (e : Env) {j : Nat} (hj : j < 4096) : e.chainMask.getLsbD j =
    if j < e.vl then
      (if e.s.on e.b.v0.km j then (e.chainResult j).2.getD false else if e.mp then false else e.s.on e.b.v0.kd j)
    else e.s.on e.b.v0.kd j := by
  unfold Env.chainMask Env.chainRow
  rw [maskWrite_bit _ _ hj, List.map_map, active_eq, maskPolicy_range]
  by_cases below : j < e.vl
  · rw [getElem?_range_join below, if_pos below, Function.comp_apply]
    split
    · next on => rw [chainAt_val]; rfl
    · split <;> rfl
  · rw [if_neg below, List.getElem?_eq_none (by simpa using below)]
    rfl

theorem vectored_chain {s : State} {i : Issue} (nop : i.bundle.v1.isNop = true) : s.vectored i = chainEffect (s.env i) s := by
  rw [State.vectored]
  exact v1Effect_of_major_zero _ (V1Slot.major_of_isNop nop)

section

variable {s : State} {i : Issue} (wf : SMap.wf 0 s.hoops = true) (within : s.within (s.ctxOf i.stream))
  (major : i.bundle.v0.major = 1) (nop : i.bundle.v1.isNop = true)

include wf within major nop

/-- The run that CHAIN leaves. -/
theorem chain_hoops : (s.vectored i).hoops =
    (writeTo s s i.stream i.bundle.v0.d (fmtOf i.bundle.v0.dfmt).bytes (s.env i).chainValues).hoops := by
  rw [vectored_chain nop]
  by_cases empty : (s.env i).vl = 0
  · rw [chainEffect_idle s empty, Env.chainValues, empty]
    exact (congrArg State.hoops (writeTo_nil ..)).symm
  · rw [chainEffect_eq (e := s.env i) wf within major (Nat.pos_of_ne_zero empty), raise_hoops]
    split
    · rw [State.setMask_hoops, chainRun_eq]
      rfl
    · rw [chainRun_eq]
      rfl

/-- The mask that CHAIN leaves in KD. -/
theorem chain_mask (cmp : i.bundle.v0.hasCmp = true) (some : i.bundle.v0.kd ≠ 0) {j : Nat} (hj : j < 4096) :
    (s.vectored i).on i.bundle.v0.kd j = if j < (s.ctxOf i.stream).vl then
      (if s.on i.bundle.v0.km j then ((s.env i).chainResult j).2.getD false
        else if i.bundle.v0.mp = 1 then false else s.on i.bundle.v0.kd j)
    else s.on i.bundle.v0.kd j := by
  rw [vectored_chain nop]
  by_cases empty : (s.env i).vl = 0
  · rw [chainEffect_idle s empty, if_neg (by rw [show (s.ctxOf i.stream).vl = 0 from empty]; omega)]
  · have kd : i.bundle.v0.kd.toNat ≠ 0 := fun h => some (BitVec.eq_of_toNat_eq h)
    have written : (chainEffect (s.env i) s).mask i.bundle.v0.kd.toNat = (s.env i).chainMask := by
      rw [chainEffect_eq (e := s.env i) wf within major (Nat.pos_of_ne_zero empty),
        show (s.env i).b.v0.hasCmp = true from cmp, if_pos rfl,
        raise_keeps (fun t => t.mask i.bundle.v0.kd.toNat) (fun _ _ _ _ => rfl)]
      exact (State.mask_setMask _ _ _ _ (BitVec.isLt _)).trans (if_pos ⟨kd, rfl⟩)
    rw [State.on, written, chainMask_bit _ hj]
    simp only [Env.mp, beq_iff_eq]
    rfl

end

/-- M does not write the mask that a CHAIN writes (R111). -/
theorem kld_other_mask {s : State} {i : Issue} (clear : Clear s i) (major : i.bundle.v0.major = 1)
    (cmp : i.bundle.v0.hasCmp = true) (some : i.bundle.v0.kd ≠ 0) (kld : i.bundle.m.major.toNat = 12) :
    i.bundle.m.imm.toNat % 8 ≠ i.bundle.v0.kd.toNat := by
  intro same
  have kd : i.bundle.v0.kd.toNat ≠ 0 := fun h => some (BitVec.eq_of_toNat_eq h)
  have legal := clear.legal
  simp only [State.legalHere, Bool.and_eq_true, Bool.not_eq_true'] at legal
  obtain ⟨⟨⟨⟨-, clash⟩, -⟩, -⟩, -⟩ := legal
  have chain : (i.bundle.v0.major == 1 && i.bundle.v0.hasCmp) = true := by rw [major, cmp]; rfl
  have load : (i.bundle.m.major == 12) = true := by rw [show i.bundle.m.major = 12 from BitVec.eq_of_toNat_eq kld]; rfl
  have twice : ((maskWrites i.bundle).filter (· != 0)).Nodup := by
    unfold regClash at clash
    simp only [Bool.or_eq_false_iff, Bool.not_eq_false', decide_eq_true_eq] at clash
    exact clash.1.1
  rw [maskWrites, chain, load, if_pos rfl, if_pos rfl, same, List.filter_cons_of_pos (by simpa using kd),
    List.nodup_cons] at twice
  exact twice.1 (List.mem_filter.mpr ⟨by simp, by simpa using kd⟩)

end Sys2Proof.Machine
open Sys2Proof Sys2Proof.Machine

/-- Settles O20: the lanes read the operands element by element, and the cells compute what R91 tabulates. -/
theorem chainElements : Obligations.ChainElements := by
  unfold Obligations.ChainElements
  intro i s clear canon few within major nop quiet v cf lane rz res
  have wf := State.canon_hoops canon
  have wellFormed : (Instr.chain i).wf = true := by simp [Instr.wf, Instr.row, Bundle.carries, major]
  have dst (writes : v.d.getLsbD 7 = false) : ∃ u ∈ slabUses s (s.ctxOf i.stream).ew.bytes i.bundle,
      u.o = Opnd.of v.d ∧ u.run = runLen (s.ctxOf i.stream).ew.bytes (fmtOf v.dfmt).bytes :=
    ⟨_, v0Use_mem (v0Uses_dst major writes), rfl, rfl⟩
  refine ⟨_, exec_of_clear rfl wellFormed clear,
    writesRun_settled clear canon few within quiet (Fmt.bytes_cases _) dst (chain_hoops wf within major nop) rfl rfl ?_
      fun _ j below => ?_, fun cmp some j hj => ?_⟩
  · rw [Env.chainValues, List.length_map, List.length_range]
    exact Nat.le_refl _
  · rw [Env.chainValues, getElem?_range_join (n := (s.env i).vl) below, masked_eq]
    rfl
  · have kept : (s.settle (s.executed i)).on v.kd j = (s.vectored i).on v.kd j := by
      have lanes : (s.settle (s.executed i)).mask v.kd.toNat = (s.vectored i).mask v.kd.toNat := by
        rw [State.mask, settle_masks, ← State.mask, executed_keeps (fun t => t.mask v.kd.toNat) (fun _ => rfl)]
        exact beforeS_mask (kld_other_mask clear major cmp some)
      rw [State.on, lanes, State.on]
    rw [kept]
    exact chain_mask wf within major nop cmp some hj
end

section
/-!
SUPPORT. What the moves into slabs leave (R58, R101, R102, R252, R274, R285, R300, R301). Settles O16.
-/

namespace Sys2Proof.Machine

/-! ### A slab written and read back -/

/-- The bytes of a range just written read back, whatever the form of the array. -/
theorem slice_splice (m : SMap Byte) (lo : Nat) (bs : List Byte) : slice (splice m lo bs) lo bs.length = bs := by
  have inside (l : SMap Byte) : (splice l lo bs).filter (fun c => lo ≤ c.1 && c.1 < lo + bs.length) =
      (cellsOf lo bs).filter fun c => lo ≤ c.1 && c.1 < lo + bs.length := by
    have below : (l.filter fun c => c.1 < lo).filter (fun c => lo ≤ c.1 && c.1 < lo + bs.length) = [] := by
      rw [List.filter_eq_nil_iff]
      intro c hc
      have low := (List.mem_filter.mp hc).2
      simp at low ⊢
      omega
    have above : (l.filter fun c => lo + bs.length ≤ c.1).filter (fun c => lo ≤ c.1 && c.1 < lo + bs.length) = [] := by
      rw [List.filter_eq_nil_iff]
      intro c hc
      have high := (List.mem_filter.mp hc).2
      simp at high ⊢
      omega
    rw [splice, List.filter_append, List.filter_append, below, above, List.nil_append, List.append_nil]
  have alone : slice (splice m lo bs) lo bs.length = slice (splice [] lo bs) lo bs.length := by
    unfold slice
    rw [inside m, inside []]
  rw [alone, slice_eq_getBytes _ _ (splice_wf lo bs rfl)]
  refine List.ext_getElem? fun j => ?_
  rw [getBytes_getElem?]
  split
  · next below =>
    rw [get_splice lo bs rfl, if_pos (by omega), Nat.add_sub_cancel_left, List.getD_eq_getElem?_getD,
      List.getElem?_eq_getElem below]
    rfl
  · next past => exact (List.getElem?_eq_none (Nat.le_of_not_lt past)).symm

theorem slabBytes_of_written {t u : State} {h k : Nat} {bs : List Byte} (hoops : t.hoops = (u.writeSlab h k bs).hoops)
    (base : t.hoopMeta = u.hoopMeta) : t.slabBytes h k bs.length = bs := by
  rw [State.slabBytes, hoops, slabBase_of_meta base]
  exact slice_splice ..

/-! ### The M slot's moves -/

/-- The majors of M that write a slab. -/
def slabMoves : List Nat := [5, 6, 8, 9, 11]

/-- What M writes back where it moves into a slab. -/
def Env.moved (e : Env) (t : State) : State :=
  match e.b.m.major.toNat with
  | 5 => movaEffect e t
  | 6 => popqEffect e t false
  | 8 => nrecvEffect e t false
  | 9 => movsEffect e t
  | _ => kstEffect e t

/-- The descriptors after their post-increment (R67). -/
def Env.incremented (e : Env) (c : Ctx) : Ctx :=
  if (fmtOf e.b.m.mfmt).isMx && e.b.m.major.toNat ≤ 2 then
    (c.setDesc e.dscN e.desc.post).setDesc ((e.dscN + 1) % 16) e.desc'.post
  else c.setDesc e.dscN e.desc.post

theorem mRest_moved {e : Env} (major : e.b.m.major.toNat ∈ slabMoves) (t : State) : mRest e .normal t =
    if e.b.m.pi = 1 then (e.moved t).modCtx e.st e.incremented else e.moved t := by
  simp only [slabMoves, List.mem_cons, List.not_mem_nil, or_false] at major
  unfold mRest Env.moved Env.incremented
  dsimp only
  rcases major with h | h | h | h | h <;> rw [h] <;> rfl

theorem beforeS_moved {s : State} {i : Issue} (major : i.bundle.m.major.toNat ∈ slabMoves) :
    s.beforeS i = if i.bundle.m.pi = 1 then ((s.env i).moved (s.vectored i)).modCtx i.stream (s.env i).incremented
      else (s.env i).moved (s.vectored i) := by
  have hand : mHand (s.env i) .normal (s.vectored i) = s.vectored i := by
    simp only [slabMoves, List.mem_cons, List.not_mem_nil, or_false] at major
    unfold mHand
    dsimp only [State.env]
    rcases major with h | h | h | h | h <;> rw [h] <;> rfl
  have load : (s.vectored i).beginLoad i.bundle.m = s.vectored i := by
    unfold State.beginLoad
    dsimp only
    refine if_neg fun h => ?_
    have load := of_decide_eq_true (Bool.and_eq_true_iff.mp h).1
    rw [load] at major
    exact absurd major (by decide)
  have e : s.beforeS i = mRest (s.env i) .normal ((mHand (s.env i) .normal (s.vectored i)).beginLoad i.bundle.m) := rfl
  rw [e, hand, load]
  exact mRest_moved (e := s.env i) major _

/-- A field that no context is part of is as M's move leaves it. -/
theorem beforeS_moved_keeps {α : Type} (P : State → α) {s : State} {i : Issue}
    (ctx : ∀ (t : State) (f : Ctx → Ctx), P (t.modCtx i.stream f) = P t) (major : i.bundle.m.major.toNat ∈ slabMoves) :
    P (s.beforeS i) = P ((s.env i).moved (s.vectored i)) := by
  rw [beforeS_moved major]
  split
  · exact ctx _ _
  · rfl

theorem outgoingKept_moved {s : State} {i : Issue} (major : i.bundle.m.major.toNat ∈ slabMoves) :
    OutgoingKept ((s.env i).moved (s.vectored i)) (s.executed i) := by
  have port : OutgoingKept ((s.env i).moved (s.vectored i)) (s.beforeS i) := by
    rw [beforeS_moved major]
    split
    · exact .modCtx _ _ _
    · exact .refl _
  exact port.trans (execBundle_of_portDone s i .normal).1

theorem settled_moved_hoops {s : State} {i : Issue} (major : i.bundle.m.major.toNat ∈ slabMoves) :
    (s.settle (s.executed i)).hoops = ((s.env i).moved (s.vectored i)).hoops := by
  rw [settle_hoops, executed_hoops]
  exact beforeS_moved_keeps State.hoops (fun _ _ => State.modCtx_hoops ..) major

theorem vectored_hoopMeta (s : State) (i : Issue) : (s.vectored i).hoopMeta = s.hoopMeta :=
  vectored_keeps State.hoopMeta (fun _ => rfl) s i

theorem putSlab_of_resolve {e : Env} {f : BitVec 8} {h k : Nat} (at_0 : e.s.resolve e.st (Opnd.of f).h (Opnd.of f).k = some (h, k))
    (t : State) (bs : List Byte) : e.putSlab t f bs = t.writeSlab h k bs := by
  unfold Env.putSlab
  dsimp only
  rw [at_0]

/-- A whole slab that M has written. -/
theorem settled_slab {s u : State} {i : Issue} {h k : Nat} {bs : List Byte} (major : i.bundle.m.major.toNat ∈ slabMoves)
    (at_0 : s.resolve i.stream (Opnd.of i.bundle.m.hs).h (Opnd.of i.bundle.m.hs).k = some (h, k))
    (moved : ((s.env i).moved (s.vectored i)).hoops = ((s.env i).putSlab u i.bundle.m.hs bs).hoops)
    (base : u.hoopMeta = s.hoopMeta) : (s.settle (s.executed i)).slabBytes h k bs.length = bs := by
  refine slabBytes_of_written (u := u) ?_ (((settle_hoopMeta _ _).trans (executed_hoopMeta s i)).trans base.symm)
  rw [settled_moved_hoops major, moved, putSlab_of_resolve (e := s.env i) at_0]

/-! ### MOVS and KST -/

theorem moved_movs {s : State} {i : Issue} (h : i.bundle.m.major = 9) (t : State) :
    (s.env i).moved t = movsEffect (s.env i) t := by
  unfold Env.moved
  rw [show (s.env i).b.m.major = 9 from h]
  rfl

theorem moved_kst {s : State} {i : Issue} (h : i.bundle.m.major = 11) (t : State) :
    (s.env i).moved t = kstEffect (s.env i) t := by
  unfold Env.moved
  rw [show (s.env i).b.m.major = 11 from h]
  rfl

theorem moved_nrecv {s : State} {i : Issue} (h : i.bundle.m.major = 8) (t : State) :
    (s.env i).moved t = nrecvEffect (s.env i) t false := by
  unfold Env.moved
  rw [show (s.env i).b.m.major = 8 from h]
  rfl

theorem moved_mova {s : State} {i : Issue} (h : i.bundle.m.major = 5) (t : State) :
    (s.env i).moved t = movaEffect (s.env i) t := by
  unfold Env.moved
  rw [show (s.env i).b.m.major = 5 from h]
  rfl

theorem moved_popq {s : State} {i : Issue} (h : i.bundle.m.major = 6) (t : State) :
    (s.env i).moved t = popqEffect (s.env i) t false := by
  unfold Env.moved
  rw [show (s.env i).b.m.major = 6 from h]
  rfl

/-! ### NRECV -/

theorem vectored_nextArrival (s : State) (i : Issue) (a : BitVec 37) : (s.vectored i).nextArrival a = s.nextArrival a := by
  rw [State.nextArrival, vectored_net]
  rfl

theorem vectored_nextGone (s : State) (i : Issue) (a : BitVec 37) : (s.vectored i).nextGone a = s.nextGone a := by
  rw [State.nextGone, vectored_nextArrival, vectored_net]
  rfl

theorem takeGone_split {a : BitVec 37} {xs ys : List GoneRelease} {g : GoneRelease} (before : ∀ y ∈ xs, y.src ≠ a)
    (own : g.src = a) :
    takeGone a (xs ++ g :: ys) = xs ++ (if g.left ≤ 1 then ys else { g with left := g.left - 1 } :: ys) := by
  induction xs with
  | nil => exact if_pos own
  | cons x xs ih =>
    obtain ⟨first, rest⟩ := List.forall_mem_cons.mp before
    rw [List.cons_append, takeGone, if_neg first, ih rest]
    rfl

/-- HS stays as it was, with GONE. -/
theorem absent_of_goneOnce {s u : State} {i : Issue} (major : i.bundle.m.major.toNat ∈ slabMoves)
    (moved : (s.env i).moved (s.vectored i) = u.goneOnce) (hoops : u.hoops = (s.vectored i).hoops) :
    ((s.settle (s.executed i)).sticky 8).getLsbD 1 = true ∧
      (i.bundle.v0.isNop = true → i.bundle.v1.isNop = true → (s.settle (s.executed i)).hoops = s.hoops) := by
  have sticky : StickyKept (u.mark 8 1) (s.settle (s.executed i)) :=
    (StickyKept.bump _ .gone 1).trans (((moved ▸ outgoingKept_moved major : OutgoingKept u.goneOnce _).sticky).trans
      (.settle _ _))
  refine ⟨sticky.marked (by decide) (by decide), fun nop0 nop1 => ?_⟩
  rw [settled_moved_hoops major, moved]
  have bytes : u.goneOnce.hoops = u.hoops :=
    AsideClosed.goneOnce (Q := fun t => t.hoops = u.hoops) ⟨fun _ _ _ q => q⟩ rfl
  rw [bytes, hoops, vectored_of_isNop nop0 nop1]

theorem settled_net {s : State} {i : Issue} (major : i.bundle.m.major.toNat ∈ slabMoves) :
    (s.settle (s.executed i)).net = ((s.env i).moved (s.vectored i)).net := by
  rw [settle_net]
  exact net_of_outgoing (outgoingKept_moved major).outgoing

/-! ### MOVA and POPQ -/

theorem hs_not_broadcast {m : MSlot} (legal : m.legal = true) (major : m.major ≠ 0) : m.hs.getLsbD 7 = false := by
  have issued : m.isNop = false := Bool.eq_false_iff.mpr fun nop => major (congrArg MSlot.major (of_decide_eq_true nop))
  unfold MSlot.legal at legal
  rw [issued, Bool.false_or] at legal
  split at legal
  · cases legal
  · split at legal
    · cases legal
    · simp only [Bool.and_eq_true, Bool.not_eq_true'] at legal
      tauto

theorem accUse {s : State} {ew : Nat} {b : Bundle} (major : b.m.major.toNat = 5 ∨ b.m.major.toNat = 6) :
    { wholeUse 2 b.m.hs 0 false true with run := s.accRun, align := pow2Above s.accRun } ∈ slabUses s ew b := by
  refine List.mem_append_right _ ?_
  unfold mUses
  rcases major with h | h <;> rw [h] <;> exact List.mem_singleton_self _

theorem vectored_tiles (s : State) (i : Issue) : (s.vectored i).edging.tiles = s.edging.tiles :=
  vectored_keeps (fun t => t.edging.tiles) (fun _ => rfl) s i

/-- An accumulator slab that M has written. -/
theorem settled_acc {s u : State} {i : Issue} (clear : Clear s i) (major : i.bundle.m.major.toNat = 5 ∨ i.bundle.m.major.toNat = 6)
    {x : Tile} {n : Nat} (moved : ((s.env i).moved (s.vectored i)).hoops = ((s.env i).putAcc u (x.slab n)).hoops)
    (base : u.hoopMeta = s.hoopMeta) (panels : 0 < s.active) {j : Nat} (hj : j < 1024) :
    (s.settle (s.executed i)).elem i.stream i.bundle.m.hs 4 j = ((x.slab n)[j]?.getD 0).toNat := by
  have vm : 0 < s.vlmaxAt 4 := by
    unfold State.vlmaxAt
    omega
  have moves : i.bundle.m.major.toNat ∈ slabMoves := by
    rcases major with h | h <;> simp [slabMoves, h]
  have writes : i.bundle.m.hs.getLsbD 7 = false := by
    refine hs_not_broadcast ?_ fun none => ?_
    · have legal := clear.legal
      simp only [State.legalHere, Bundle.legal, Bool.and_eq_true] at legal
      tauto
    · rw [none] at moves
      exact absurd moves (by decide)
  obtain ⟨placed, named⟩ : Placed s i.stream i.bundle.m.hs s.accRun := placed_of_use clear (accUse major) rfl
  have run : s.accRun = (1024 + s.vlmaxAt 4 - 1) / s.vlmaxAt 4 := if_neg (by omega)
  have part (j : Nat) (h : s.vlmaxAt 4 * j < 1024) : j < s.accRun := by
    rw [run, Nat.lt_iff_add_one_le, Nat.le_div_iff_mul_le vm, Nat.succ_mul, Nat.mul_comm]
    omega
  obtain ⟨⟨h, k⟩, at_j⟩ := Option.isSome_iff_exists.mp
    (named _ (part (j / s.vlmaxAt 4) ((Nat.mul_div_le j (s.vlmaxAt 4)).trans_lt hj)))
  have value : (x.slab n)[j]? = some ((x.slab n)[j]?.getD 0) := by
    rw [List.getElem?_eq_getElem (by rw [Tile.slab_length]; exact hj)]
    rfl
  rw [settled_elem clear, ← executed_hoops, ← settle_hoops s, settled_moved_hoops moves, moved, elem_slab at_j]
  refine (leNat_of_bytes (v := ((x.slab n)[j]?.getD 0).toNat) fun b hb => ?_).trans
    (Nat.mod_eq_of_lt ((x.slab n)[j]?.getD 0).isLt)
  have length : ((x.slab n).map fun w => Option.some w.toNat).length = 1024 := by rw [List.length_map, Tile.slab_length]
  refine (writeTo_holds (run := s.accRun) writes vm ?_ (apart_of_placed placed) (fun j h => part j (length ▸ h)) base ?_
    at_j hb).get
  · rw [length]
    exact Nat.mul_le_mul_right 4 (Nat.min_le_right _ _)
  · rw [List.getElem?_map]
    exact congrArg (Option.map fun w : Word => Option.some w.toNat) value

theorem find?_split {α : Type} {p : α → Bool} {xs ys : List α} {x : α} (before : ∀ y ∈ xs, p y = false) (own : p x = true) :
    (xs ++ x :: ys).find? p = some x := by
  rw [List.find?_append, List.find?_eq_none.mpr fun y hy => by rw [before y hy]; decide, Option.none_or,
    List.find?_cons_of_pos own]

theorem popTile_split {xs ys : List Tile} {x : Tile} (before : ∀ y ∈ xs, y.use ≠ .program) (own : x.use = .program) :
    popTile (xs ++ x :: ys) =
      xs ++ (if x.popped + 1 < 16 then { x with popped := x.popped + 1 } :: ys else ys) := by
  induction xs with
  | nil =>
    rw [List.nil_append, popTile, if_pos own]
    by_cases last : x.popped + 1 ≥ 16
    · rw [if_pos last, if_neg (by omega)]
      rfl
    · rw [if_neg last, if_pos (by omega)]
      rfl
  | cons y xs ih =>
    obtain ⟨first, rest⟩ := List.forall_mem_cons.mp before
    rw [List.cons_append, popTile, if_neg first, ih rest]
    rfl

/-- The tiles in use and the events sent. -/
def State.queues (s : State) : List Tile × List OutMsg := (s.edging.tiles, s.outbox)

theorem settleFirst_outbox (s t : State) : (State.settleFirst s t).outbox = t.outbox := by
  unfold State.settleFirst
  split
  · rfl
  · split <;> rfl

theorem settleFirst_queues (s t : State) : (State.settleFirst s t).queues = t.queues := by
  rw [State.queues, settleFirst_edging, settleFirst_outbox]
  rfl

theorem settleCap_queues (s t : State) : (State.settleCap s t).queues = t.queues := by
  unfold State.settleCap
  split <;> rfl

/-- Without ENGINE_DOWN the settling leaves the tiles and the event port. -/
theorem settle_queues {s t : State} (up : (s.settle t).trouble.engineDown = false) :
    (s.settle t).queues = t.queues := by
  rw [settle_eq] at up ⊢
  split
  · rfl
  · next settles =>
    rw [if_neg settles, settleFirst_engineDown] at up
    rw [settleFirst_queues]
    unfold State.settleDown at up ⊢
    split
    · next down =>
      rw [if_pos down, refuseTriggers_engineDown] at up
      exact Bool.noConfusion up
    · exact settleCap_queues s t

theorem executed_queues (s : State) (i : Issue) : (s.executed i).queues = (s.beforeS i).queues := by
  have scalar : (sEffect (s.env i) (s.beforeS i)).queues = (s.beforeS i).queues :=
    sEffect_keeps State.queues (s.env i) (fun _ _ _ _ => rfl) (fun t f => by cases (s.env i).st <;> rfl)
      (fun _ _ _ => rfl) (fun _ _ _ => rfl) (fun _ _ _ _ => rfl) _
  rw [executed_eq]
  split
  · exact scalar
  · exact scalar

/-- One more slab of the first tile in program use popped. -/
def State.slabPopped (s : State) : State := { s with edging := { s.edging with tiles := popTile s.edging.tiles } }

theorem moved_popq_done {s : State} {i : Issue} (major : i.bundle.m.major = 6) (up : s.meUp = true) {xs ys : List Tile}
    {x : Tile} (tiles : s.edging.tiles = xs ++ x :: ys) (before : ∀ y ∈ xs, y.use ≠ .program) (own : x.use = .program) :
    (s.env i).moved (s.vectored i) =
      ((s.env i).putAcc (s.vectored i) (x.slab x.popped)).slabPopped := by
  have first : (s.vectored i).programTile = some x := by
    rw [State.programTile, vectored_tiles, tiles]
    exact find?_split (fun y hy => beq_eq_false_iff_ne.mpr (before y hy)) (beq_iff_eq.mpr own)
  rw [moved_popq major, popqEffect, first]
  have me : (s.env i).cap.me = true := up
  simp only [me]
  rfl

/-! ### Each move of a clear bundle -/

section

variable {s : State} {i : Issue}

theorem settled_movs {h k : Nat} (at_0 : s.resolve i.stream (Opnd.of i.bundle.m.hs).h (Opnd.of i.bundle.m.hs).k = some (h, k))
    (major : i.bundle.m.major = 9) : (s.settle (s.executed i)).slabBytes h k (fmtOf i.bundle.m.mfmt).bytes =
      leBytes (fmtOf i.bundle.m.mfmt).bytes
        (((s.ctxOf i.stream).sreg i.bundle.m.sreg).toNat % 2 ^ (fmtOf i.bundle.m.mfmt).eltBits) := by
  have written := settled_slab (u := s.vectored i)
    (bs := leBytes (fmtOf i.bundle.m.mfmt).bytes
      (((s.ctxOf i.stream).sreg i.bundle.m.sreg).toNat % 2 ^ (fmtOf i.bundle.m.mfmt).eltBits))
    (by simp [slabMoves, major]) at_0 (congrArg State.hoops (moved_movs major _)) (vectored_hoopMeta s i)
  rwa [leBytes_length] at written

theorem settled_kst {h k : Nat} (at_0 : s.resolve i.stream (Opnd.of i.bundle.m.hs).h (Opnd.of i.bundle.m.hs).k = some (h, k))
    (major : i.bundle.m.major = 11) : (s.settle (s.executed i)).slabBytes h k 512 =
      leBytes 512 (s.mask (i.bundle.m.imm.toNat % 8)).toNat := by
  have written := settled_slab (u := s.vectored i) (bs := leBytes 512 (s.mask (i.bundle.m.imm.toNat % 8)).toNat)
    (by simp [slabMoves, major]) at_0 (congrArg State.hoops (moved_kst major _)) (vectored_hoopMeta s i)
  rwa [leBytes_length] at written

section

variable (major : i.bundle.m.major = 8)

include major

/-- An NRECV that takes a GONE release of records that never came. -/
theorem moved_nextGone (gone : s.nextGone (s.env i).netAddr = true) :
    (s.env i).moved (s.vectored i) = ((s.vectored i).dropGone (s.env i).netAddr).goneOnce := by
  rw [moved_nrecv major, nrecvEffect]
  dsimp only
  rw [vectored_nextGone, gone]
  rfl

/-- An NRECV whose source is absent. -/
theorem moved_absent (gone : s.nextGone (s.env i).netAddr = false) (none : s.nextArrival (s.env i).netAddr = none) :
    (s.env i).moved (s.vectored i) = (s.vectored i).goneOnce := by
  rw [moved_nrecv major, nrecvEffect]
  dsimp only
  rw [vectored_nextGone, gone, vectored_nextArrival, none]
  rfl

/-- An NRECV that takes an arrival. -/
theorem moved_arrival {n : Nat} {x : Arrival} (gone : s.nextGone (s.env i).netAddr = false)
    (next : s.nextArrival (s.env i).netAddr = some (n, x)) : (s.env i).moved (s.vectored i) =
      if x.goneRelease then ((s.vectored i).freeSlot n).goneOnce
      else ((s.env i).putSlab ((s.vectored i).freeSlot n) i.bundle.m.hs
        (s.slabBytes s.net.rxHoop.toNat n 4096)).exchanged (addrPackage (s.env i).netAddr) := by
  rw [moved_nrecv major, nrecvEffect]
  dsimp only
  rw [vectored_nextGone, gone, vectored_nextArrival, next, vectored_net]
  rfl

end

theorem putSlab_net (e : Env) (t : State) (f : BitVec 8) (bs : List Byte) : (e.putSlab t f bs).net = t.net :=
  net_of_outgoing (putSlab_outgoing e t f bs)

theorem exchanged_hoops (t : State) (p : BitVec 15) : (t.exchanged p).hoops = t.hoops := by
  unfold State.exchanged
  split <;> rfl

theorem goneOnce_net (t : State) : t.goneOnce.net = t.net := net_of_outgoing (goneOnce_outgoing t)

theorem freeSlot_slot (t : State) (n : Nat) : (t.freeSlot n).net.slots[n]?.getD none = none := by
  show (t.net.slots.setIfInBounds n none)[n]?.getD none = none
  rw [Vector.getElem?_setIfInBounds, if_pos rfl]
  split <;> rfl

section

variable (major : i.bundle.m.major = 8)

include major

/-- The port after an NRECV that takes a GONE release of records that never came. -/
theorem settled_dropGone (gone : s.nextGone (s.env i).netAddr = true) : (s.settle (s.executed i)).net.slots = s.net.slots ∧
    (s.settle (s.executed i)).net.gones = takeGone (s.env i).netAddr s.net.gones := by
  rw [settled_net (by simp [slabMoves, major]), moved_nextGone major gone, goneOnce_net]
  show (s.vectored i).net.slots = _ ∧ takeGone _ (s.vectored i).net.gones = _
  rw [vectored_net]
  exact ⟨rfl, rfl⟩

/-- The port after an NRECV whose source is absent. -/
theorem settled_absent_net (gone : s.nextGone (s.env i).netAddr = false) (none : s.nextArrival (s.env i).netAddr = none) :
    (s.settle (s.executed i)).net =
      { s.net with rcount := s.net.rcount + ((s.settle (s.executed i)).mirror.mseq - s.mirror.mseq) } := by
  have moves : i.bundle.m.major.toNat ∈ slabMoves := by simp [slabMoves, major]
  have mirror : (s.settle (s.executed i)).mirror = (s.vectored i).mirror := by
    rw [settle_mirror, mirror_of_outgoing (outgoingKept_moved moves).outgoing, moved_absent major gone none]
    exact mirror_of_outgoing (goneOnce_outgoing _)
  rw [mirror, settled_net moves, moved_absent major gone none, goneOnce_net]
  exact vectored_net s i

section

variable {n : Nat} {x : Arrival} (gone : s.nextGone (s.env i).netAddr = false)
  (next : s.nextArrival (s.env i).netAddr = some (n, x))

include gone next

theorem settled_arrival_slot : (s.settle (s.executed i)).net.slots[n]?.getD none = none := by
  rw [settled_net (by simp [slabMoves, major]), moved_arrival major gone next]
  split
  · rw [goneOnce_net, freeSlot_slot]
  · rw [exchanged_net, putSlab_net, freeSlot_slot]

theorem settled_arrival_slab {h k : Nat}
    (at_0 : s.resolve i.stream (Opnd.of i.bundle.m.hs).h (Opnd.of i.bundle.m.hs).k = some (h, k)) (canon : s.canon = true)
    (record : x.goneRelease = false) :
    (s.settle (s.executed i)).slabBytes h k 4096 = s.slabBytes s.net.rxHoop.toNat n 4096 := by
  have moved := moved_arrival major gone next
  rw [record, if_neg Bool.false_ne_true] at moved
  have length : (s.slabBytes s.net.rxHoop.toNat n 4096).length = 4096 := by
    rw [State.slabBytes, slice_eq_getBytes _ _ (State.canon_hoops canon)]
    simp [getBytes]
  have written := settled_slab (u := (s.vectored i).freeSlot n) (bs := s.slabBytes s.net.rxHoop.toNat n 4096)
    (by simp [slabMoves, major]) at_0 (by rw [moved, exchanged_hoops]) (vectored_hoopMeta s i)
  rwa [length] at written

end

end

/-- The accumulator slab that a MOVA moves. -/
theorem moved_mova_tile (major : i.bundle.m.major = 5) {xs ys : List Tile} {x : Tile}
    (tiles : s.edging.tiles = xs ++ x :: ys) (before : ∀ y ∈ xs, y.use = .program) (own : x.use ≠ .program) :
    (s.env i).moved (s.vectored i) = (s.env i).putAcc (s.vectored i) (x.slab (i.bundle.m.imm.toNat % 16)) := by
  have first : (s.vectored i).runTile = some x := by
    rw [State.runTile, vectored_tiles, tiles]
    exact find?_split (fun y hy => by rw [before y hy]; rfl) (bne_iff_ne.mpr own)
  rw [moved_mova major, movaEffect, first]
  rfl

theorem moved_popq_down (major : i.bundle.m.major = 6) (down : s.meUp = false) :
    (s.env i).moved (s.vectored i) = (s.vectored i).goneOnce := by
  have me : (s.env i).cap.me = false := down
  rw [moved_popq major, popqEffect, if_neg Bool.false_ne_true]
  split
  · rw [me]
    rfl
  · rfl

/-- The queues after a POPQ. -/
theorem settled_popq_queues (major : i.bundle.m.major = 6) (up : s.meUp = true) {xs ys : List Tile} {x : Tile}
    (tiles : s.edging.tiles = xs ++ x :: ys) (before : ∀ y ∈ xs, y.use ≠ .program) (own : x.use = .program)
    (running : (s.settle (s.executed i)).trouble.engineDown = false) : (s.settle (s.executed i)).queues =
      (xs ++ (if x.popped + 1 < 16 then { x with popped := x.popped + 1 } :: ys else ys), s.outbox) := by
  have kept : ((s.env i).putAcc (s.vectored i) (x.slab x.popped)).queues = s.queues :=
    (writeTo_closed (Q := fun t => t.queues = (s.vectored i).queues) (fun _ _ _ _ _ _ _ _ _ _ q => q) rfl).trans
      (vectored_keeps State.queues (fun _ => rfl) s i)
  obtain ⟨held, sent⟩ := Prod.mk.inj kept
  rw [settle_queues running, executed_queues, beforeS_moved_keeps State.queues (fun t f => by cases i.stream <;> rfl)
    (by simp [slabMoves, major]), moved_popq_done major up tiles before own]
  show (popTile ((s.env i).putAcc (s.vectored i) (x.slab x.popped)).edging.tiles, _) = _
  rw [held, tiles, popTile_split before own, ← sent]
  rfl

end

end Sys2Proof.Machine
open Sys2Proof Sys2Proof.Machine

/-- Settles O16: each move's effect at writeback, which the S slot and the settling leave. -/
theorem movesIntoSlabs : Obligations.MovesIntoSlabs := by
  unfold Obligations.MovesIntoSlabs
  intro i s clear m o a acc
  have issued {c : Instr} {k : Nat} (row : c.row = some (.m k, i)) (major : i.bundle.m.major.toNat = k) :
      exec c s = .next (s.settle (s.executed i)) :=
    exec_of_clear row (by simp [Instr.wf, row, Bundle.carries, major]) clear
  refine ⟨fun h k at_0 => ⟨fun major => ?_, fun major => ?_, fun major canon => ?_⟩, fun major xs x ys tiles before own => ?_,
    fun major up xs x ys tiles before own => ?_, fun major down => ?_⟩
  · refine ⟨_, issued rfl (congrArg BitVec.toNat major), (settled_movs at_0 major).trans ?_⟩
    unfold Fmt.eltBits
    cases fmtOf i.bundle.m.mfmt <;> rfl
  · exact ⟨_, issued rfl (congrArg BitVec.toNat major), settled_kst at_0 major⟩
  · have moves : i.bundle.m.major.toNat ∈ slabMoves := by simp [slabMoves, show i.bundle.m.major = 8 from major]
    refine ⟨_, issued rfl (congrArg BitVec.toNat major), fun gone => ⟨?_, ?_, fun xs g ys gones before own => ?_⟩,
      fun gone none => ⟨?_, settled_absent_net major gone none⟩,
      fun n x gone next => ⟨settled_arrival_slot major gone next, settled_arrival_slab major gone next at_0 canon,
        fun release => ?_⟩⟩
    · exact absent_of_goneOnce moves (moved_nextGone major gone) rfl
    · exact (settled_dropGone major gone).1
    · rw [(settled_dropGone major gone).2, gones]
      exact takeGone_split before own
    · exact absent_of_goneOnce moves (moved_absent major gone none) rfl
    · have moved := moved_arrival major gone next
      rw [release, if_pos rfl] at moved
      exact absent_of_goneOnce moves moved rfl
  · refine ⟨_, issued rfl (congrArg BitVec.toNat major), fun panels j hj => ?_⟩
    exact settled_acc clear (.inl (congrArg BitVec.toNat major))
      (congrArg State.hoops (moved_mova_tile major tiles before own)) (vectored_hoopMeta s i) panels hj
  · refine ⟨_, issued rfl (congrArg BitVec.toNat major), fun panels j hj => ?_, fun running => ?_⟩
    · exact settled_acc clear (.inr (congrArg BitVec.toNat major))
        ((congrArg State.hoops (moved_popq_done major up tiles before own)).trans rfl) (vectored_hoopMeta s i) panels hj
    · obtain ⟨popped, sent⟩ := Prod.mk.inj (settled_popq_queues major up tiles before own running)
      exact ⟨sent, popped⟩
  · refine ⟨_, issued rfl (congrArg BitVec.toNat major), ?_⟩
    exact absent_of_goneOnce (by simp [slabMoves, show i.bundle.m.major = 6 from major]) (moved_popq_down major down) rfl
end

section
/-!
SUPPORT. The ends of the repairs other than darning (R70, R73, R216, R217, R335, R338, R373). Settles O37.
-/

namespace Sys2Proof.Machine

/-! ### What logs, marks and ends leave -/

/-- What the repairs work on: hoops and their errors, tables, panels, registers, and the clock's scrubs. -/
def State.repaired (s : State) :
    SMap Byte × List EccErr × HoopMeta × Motif × Vector PanelState 18 × SMap Word × ClockUnit :=
  (s.hoops, s.ecc, s.hoopMeta, s.motif, s.panels, s.regs, s.clock)

@[simp] theorem mark_repaired (s : State) (p b : Nat) : (s.mark p b).repaired = s.repaired := rfl

@[simp] theorem markIf_repaired (s : State) (c : Bool) (p b : Nat) : (s.markIf c p b).repaired = s.repaired := by
  cases c <;> rfl

@[simp] theorem bump_repaired (s : State) (c : Ctr) (n : Nat) : (s.bump c n).repaired = s.repaired := by
  unfold State.bump
  split
  · rfl
  · exact markIf_repaired ..

@[simp] theorem logDarn_repaired (s : State) (k c u : Nat) : (s.logDarn k c u).repaired = s.repaired := by
  unfold State.logDarn
  split
  · exact bump_repaired ..
  · rfl

@[simp] theorem settleCap_repaired (s t : State) : (State.settleCap s t).repaired = t.repaired := by
  unfold State.settleCap
  split <;> rfl

@[simp] theorem settle_repaired (s t : State) : (State.settle s t).repaired = t.repaired :=
  settle_keeps State.repaired (fun _ _ _ => rfl) (fun _ _ _ _ _ _ => rfl) s t

/-- The end of an activity changes the arbiter alone. -/
theorem endStruct_keeps {α : Type} (P : State → α) (h : ∀ (t : State) (a : Arbiter), P { t with arb := a } = P t) (s : State) :
    P s.endStruct = P s := by
  unfold State.endStruct State.arbNext
  dsimp only
  repeat' split
  all_goals exact h s _

@[simp] theorem endStruct_repaired (s : State) : s.endStruct.repaired = s.repaired :=
  endStruct_keeps State.repaired (fun _ _ => rfl) s

theorem StickyKept.endStruct (s : State) : StickyKept s s.endStruct :=
  .of_pages (endStruct_keeps State.pages (fun _ _ => rfl) s)

section

variable {s t : State} (h : s.repaired = t.repaired)

include h

theorem hoops_of_repaired : s.hoops = t.hoops := congrArg (fun x => x.1) h

theorem ecc_of_repaired : s.ecc = t.ecc := congrArg (fun x => x.2.1) h

theorem hoopMeta_of_repaired : s.hoopMeta = t.hoopMeta := congrArg (fun x => x.2.2.1) h

theorem motif_of_repaired : s.motif = t.motif := congrArg (fun x => x.2.2.2.1) h

theorem panels_of_repaired : s.panels = t.panels := congrArg (fun x => x.2.2.2.2.1) h

theorem regs_of_repaired : s.regs = t.regs := congrArg (fun x => x.2.2.2.2.2.1) h

theorem clock_of_repaired : s.clock = t.clock := congrArg (fun x => x.2.2.2.2.2.2) h

end

/-! ### An activity that ends -/

section

variable {s : State} {src : ActSrc}

theorem spareInDone_of_running {h k n : Nat} (running : s.arb.running = some ⟨.spareIn h k n, src⟩) :
    s.spareInDone = s.actEnds (.spareIn h k n) := by
  rw [State.spareInDone, running]

theorem leafRepairDone_of_running {i : Nat} {b : Bool} (running : s.arb.running = some ⟨.leafRepair i b, src⟩) :
    s.leafRepairDone = s.actEnds (.leafRepair i b) := by
  rw [State.leafRepairDone, running]

theorem stagedDone_of_running (running : s.arb.running = some ⟨.staged, src⟩) : s.stagedDone = s.actEnds .staged := by
  rw [State.stagedDone, running]

end

/-- Under an aborted bundle, with nothing else in the queues, the effect is left to the boundary after it (R326). -/
theorem actEnds_of_idle {s : State} {r : Retry} (a : Act) (retry : s.issue.retry = some r) (darns : s.arb.darns = [])
    (queue : s.arb.queue = []) : s.actEnds a = { s with
      issue := { s.issue with retry := some { r with acts := r.acts ++ [a] } }, arb := { s.arb with running := none } } := by
  rw [State.actEnds_of_retry a retry]
  exact endStruct_of_idle darns queue

/-! ### Slab spare-in -/

/-- The words of a slab with a hard error. -/
def State.hardWord (s : State) (h k n : Nat) : Prop :=
  ∃ e ∈ s.ecc, e.target = .hoop ∧ e.word = (h * 17 + k) * 512 + n ∧ e.hard = true

/-- The bytes of a slab as its copy has them: an uncorrectable word reads zero (R73). -/
def State.copied (s : State) (h k : Nat) : List Byte :=
  ((s.slabBytes h k 4096).zipIdx).map fun p =>
    if ((s.ecc.filter fun e => (e.target == .hoop && e.word / 512 == h * 17 + k) && e.hard).map
      fun e => e.word % 512).contains (p.2 / 8) then 0 else p.1

theorem moveSlab_repaired (s : State) (h k : Nat) : (s.moveSlab h k).repaired =
    (splice s.hoops (slabKey h 16) (s.copied h k),
      s.ecc.filter (fun e => !((e.target == .hoop && e.word / 512 == h * 17 + k) ||
        (e.target == .hoop && e.word / 512 == h * 17 + 16))),
      { s.hoopMeta with
        spare := s.hoopMeta.spare.setIfInBounds h (.inUse k)
        ceCount := s.hoopMeta.ceCount.set 0 (h * 17 + 16) 0 },
      s.motif, s.panels, s.regs, s.clock) := by
  unfold State.moveSlab
  dsimp only
  rw [settleCap_repaired, bump_repaired]
  rfl

theorem copied_getElem? {s : State} (wf : SMap.wf 0 s.hoops = true) {h k n : Nat} (own : s.physSlab h k = k) (hn : n < 4096) :
    (s.hardWord h k (n / 8) → (s.copied h k)[n]? = some 0) ∧
      (¬ s.hardWord h k (n / 8) → (s.copied h k)[n]? = some (s.hoops.get 0 (slabKey h k + n))) := by
  have listed : (((s.ecc.filter fun e => (e.target == .hoop && e.word / 512 == h * 17 + k) && e.hard).map
      fun e => e.word % 512).contains (n / 8) = true) ↔ s.hardWord h k (n / 8) := by
    simp only [List.contains_iff_mem, List.mem_map, List.mem_filter, Bool.and_eq_true, beq_iff_eq, State.hardWord]
    constructor
    · rintro ⟨e, ⟨mem, ⟨target, slab⟩, hard⟩, word⟩
      exact ⟨e, mem, target, by omega, hard⟩
    · rintro ⟨e, mem, target, word, hard⟩
      exact ⟨e, ⟨mem, ⟨target, by omega⟩, hard⟩, by omega⟩
  have byte : (s.slabBytes h k 4096)[n]? = some (s.hoops.get 0 (slabKey h k + n)) := by
    rw [State.slabBytes, State.slabBase, own, slice_eq_getBytes _ _ wf, getBytes_getElem?, if_pos hn]
  unfold State.copied
  rw [List.getElem?_map, List.getElem?_zipIdx, byte]
  constructor
  · intro hard
    simp only [Option.map_some, Nat.zero_add, if_pos (listed.mpr hard)]
  · intro sound
    simp only [Option.map_some, Nat.zero_add, if_neg fun h => sound (listed.mp h)]

theorem copied_length {s : State} (wf : SMap.wf 0 s.hoops = true) (h k : Nat) : (s.copied h k).length = 4096 := by
  unfold State.copied
  rw [List.length_map, List.length_zipIdx, State.slabBytes, slice_eq_getBytes _ _ wf, getBytes, List.length_map,
    List.length_range]

/-- A slab and its hoop's spare after the spare-in. -/
theorem spareIn_ends {s : State} {src : ActSrc} {h k cause : Nat} (canon : s.canon = true)
    (running : s.arb.running = some ⟨.spareIn h k cause, src⟩) (retry : s.issue.retry = none) (hh : h < 6)
    (present : s.hoopPresent h = true) (spare : s.hoopMeta.spare[h]? = some .free) :
    let t := s.settle s.spareInDone
    t.hoopMeta.spare[h]? = some (.inUse k) ∧ (t.sticky 3).getLsbD 0 = true ∧
      t.hoopMeta.ceCount.get 0 (h * 17 + 16) = 0 ∧ ∀ n, n < 4096 →
        (s.hardWord h k (n / 8) → t.hoops.get 0 (slabKey h 16 + n) = 0) ∧
        (¬ s.hardWord h k (n / 8) → t.hoops.get 0 (slabKey h 16 + n) = s.hoops.get 0 (slabKey h k + n)) := by
  intro t
  have done : s.spareInDone = (((s.moveSlab h k).logDarn 3 cause (h * 16 + k)).mark 3 0).endStruct := by
    rw [spareInDone_of_running running, State.actEnds_of_none _ retry, State.actEffect, present, if_neg (by decide),
      if_pos spare]
  have moved : t.repaired = (s.moveSlab h k).repaired := by
    rw [settle_repaired, done, endStruct_repaired, mark_repaired, logDarn_repaired]
  rw [moveSlab_repaired] at moved
  have slabs : t.hoopMeta = _ := congrArg (fun x => x.2.2.1) moved
  have bytes : t.hoops = splice s.hoops (slabKey h 16) (s.copied h k) := congrArg (fun x => x.1) moved
  have wf := State.canon_hoops canon
  have own : s.physSlab h k = k := by rw [State.physSlab, spare]
  refine ⟨?_, ?_, ?_, fun n hn => ?_⟩
  · rw [slabs]
    simp [hh]
  · refine StickyKept.marked (s := (s.moveSlab h k).logDarn 3 cause (h * 16 + k)) ?_ (by decide) (by decide)
    exact (StickyKept.endStruct _).trans (done ▸ .settle _ _)
  · rw [slabs]
    obtain ⟨-, -, -, -, -, -, -, -, -, counts, -⟩ := canon_arrays canon
    exact (SMap.get_set counts _ _ _).trans (if_pos rfl)
  · have inside : slabKey h 16 ≤ slabKey h 16 + n ∧ slabKey h 16 + n < slabKey h 16 + (s.copied h k).length := by
      rw [copied_length wf]
      omega
    obtain ⟨hard, sound⟩ := copied_getElem? wf own hn
    rw [bytes, get_splice _ _ wf, if_pos inside, Nat.add_sub_cancel_left, List.getD_eq_getElem?_getD]
    exact ⟨fun h => by rw [hard h]; rfl, fun h => by rw [sound h]; rfl⟩

/-! ### Leaf repair -/

/-- Spares, leaves and lost leaves of the tables: what a decision on a swap and a cancelled measurement leave. -/
def State.leaves (s : State) (i : Nat) (b : Bool) : Vector SpareLeaf 4 × Leaf × Bool :=
  (s.motif.spares, (s.mslot i).leaf b, (s.mslot i).lost b)

theorem leaves_of_motif {s t : State} (h : s.motif = t.motif) (i : Nat) (b : Bool) : s.leaves i b = t.leaves i b := by
  unfold State.leaves State.mslot
  rw [h]

theorem measCancel_motif (s : State) (x : MeasTarget) : (s.measCancel x).motif = s.motif := by
  have next (u : State) : u.measNext.motif = u.motif := by
    unfold State.measNext
    split <;> rfl
  exact next _

theorem setMslot_leaves (s : State) {i : Nat} (hi : i < 16) (x : MotifSlot) (b : Bool) :
    (s.setMslot i x).leaves i b = (s.motif.spares, x.leaf b, x.lost b) := by
  rw [State.leaves, State.mslot_setMslot s i i x hi, if_pos rfl]
  rfl

theorem decideSwap_leaves (s : State) {i : Nat} (hi : i < 16) (b : Bool) : (s.decideSwap i).leaves i b = s.leaves i b := by
  unfold State.decideSwap
  dsimp only
  split
  · exact (setMslot_leaves s hi _ b).trans rfl
  · rfl

/-- Whether a leaf has a word with a hard error. -/
def State.leafHard (s : State) (i : Nat) (b : Bool) : Bool :=
  s.ecc.any fun e => (e.target == .leaf && e.word / 1096 == leafNo i b) && e.hard

theorem leaf_setLeaf (x : MotifSlot) (b : Bool) (l : Leaf) : (x.setLeaf b l).leaf b = l := by cases b <;> rfl

theorem lost_setLeaf (x : MotifSlot) (b : Bool) (l : Leaf) : (x.setLeaf b l).lost b = x.lost b := by cases b <;> rfl

/-- The leaf that a spare takes over, empty where a word of it could not be corrected. -/
theorem moveLeaf_leaves (s : State) {i : Nat} (hi : i < 16) (b : Bool) : (s.moveLeaf i b).leaves i b =
    (s.motif.spares.setIfInBounds (i / 4) (.inUse (leafNo i b)),
      if s.leafHard i b then Leaf.reset else (s.mslot i).leaf b, (s.mslot i).lost b) := by
  have settled (t : State) : (State.settleCap s t).motif = t.motif := motif_of_repaired (settleCap_repaired s t)
  unfold State.moveLeaf State.leafHard
  dsimp only
  by_cases hard : (s.ecc.any fun e => (e.target == .leaf && e.word / 1096 == leafNo i b) && e.hard) = true
  · rw [if_pos hard, if_pos hard, decideSwap_leaves _ hi]
    refine (leaves_of_motif (measCancel_motif _ _) i b).trans ((setMslot_leaves _ hi _ b).trans ?_)
    rw [leaf_setLeaf, lost_setLeaf, State.mslot, settled]
    rfl
  · rw [if_neg hard, if_neg hard]
    exact (leaves_of_motif (settled _) i b).trans rfl

theorem moveLeaf_marks {s : State} {i : Nat} {b : Bool} (hard : s.leafHard i b = true) :
    ((s.moveLeaf i b).sticky 4).getLsbD 5 = true := by
  unfold State.leafHard at hard
  unfold State.moveLeaf
  dsimp only
  rw [if_pos hard]
  exact (StickyKept.decideSwap _ i).marked (by decide) (by decide)

/-- The leaf that no spare takes over. -/
theorem loseLeaf_leaves (s : State) {i : Nat} (hi : i < 16) (b : Bool) :
    ((s.loseLeaf i b).leaves i b).2 = (Leaf.reset, true) := by
  unfold State.loseLeaf
  dsimp only
  have decided (u : State) (x : MeasTarget) : ((u.measCancel x).decideSwap i).leaves i b = u.leaves i b :=
    (decideSwap_leaves _ hi b).trans (leaves_of_motif (measCancel_motif u x) i b)
  rw [decided, setMslot_leaves _ hi]
  cases b <;> rfl

theorem leafRepair_ends {s : State} {src : ActSrc} {i : Nat} {b : Bool}
    (running : s.arb.running = some ⟨.leafRepair i b, src⟩) (retry : s.issue.retry = none) (hi : i < 16) :
    let t := s.settle s.leafRepairDone
    (s.motif.spares[i / 4]? = some .free → t.motif.spares[i / 4]? = some (.inUse (leafNo i b)) ∧
      ((∃ e ∈ s.ecc, e.target = .leaf ∧ e.word / 1096 = leafNo i b ∧ e.hard = true) →
        ((t.mslot i).leaf b).state = .empty ∧ (t.sticky 4).getLsbD 5 = true)) ∧
    (s.motif.spares[i / 4]? ≠ some .free → (t.mslot i).lost b = true ∧ (t.mslot i).leaf b = Leaf.reset) := by
  intro t
  have done : s.leafRepairDone = ((if (s.motif.spares[i / 4]?).getD .bad = .free then
      (s.moveLeaf i b).logDarn 6 1 (leafUnit i b) else s.leafLost i b).decideSwap i).endStruct := by
    rw [leafRepairDone_of_running running, State.actEnds_of_none _ retry, State.actEffect]
  have kept : t.leaves i b = (if (s.motif.spares[i / 4]?).getD .bad = .free then
      (s.moveLeaf i b).logDarn 6 1 (leafUnit i b) else s.leafLost i b).leaves i b := by
    rw [leaves_of_motif (motif_of_repaired ((settle_repaired s _).trans (done ▸ endStruct_repaired _))),
      decideSwap_leaves _ hi]
  refine ⟨fun free => ?_, fun gone => ?_⟩
  · have spare : (s.motif.spares[i / 4]?).getD .bad = .free := by rw [free]; rfl
    rw [if_pos spare] at kept done
    rw [leaves_of_motif (motif_of_repaired (logDarn_repaired ..)), moveLeaf_leaves s hi] at kept
    obtain ⟨spares, rest⟩ := Prod.mk.inj kept
    obtain ⟨leaf, -⟩ := Prod.mk.inj rest
    refine ⟨?_, fun ⟨e, mem, target, word, hard⟩ => ?_⟩
    · rw [spares, Vector.getElem?_setIfInBounds, if_pos rfl, if_pos (by omega)]
    · have found : s.leafHard i b = true :=
        List.any_eq_true.mpr ⟨e, mem, by rw [target, word, hard]; simp⟩
      have last : StickyKept s.leafRepairDone t := .settle s _
      rw [done] at last
      have sticky : StickyKept (s.moveLeaf i b) t :=
        (((StickyKept.logDarn _ _ _ _).trans (.decideSwap _ i)).trans (.endStruct _)).trans last
      rw [leaf, if_pos found]
      exact ⟨rfl, sticky 4 5 (moveLeaf_marks found)⟩
  · have other : (s.motif.spares[i / 4]?).getD .bad ≠ .free := by
      cases at_ : s.motif.spares[i / 4]? with
      | none => decide
      | some x => exact fun same => gone (at_.trans (congrArg some same))
    rw [if_neg other, State.leafLost, leaves_of_motif (motif_of_repaired (logDarn_repaired ..))] at kept
    obtain ⟨leaf, lost⟩ := Prod.mk.inj ((congrArg Prod.snd kept).trans (loseLeaf_leaves s hi b))
    exact ⟨lost, leaf⟩

/-! ### Staged darning -/

theorem clampLengths_repaired (s : State) : s.clampLengths.repaired = s.repaired := by
  have one (u : State) (st : Stream) : (u.clampOne st).repaired = u.repaired := by
    unfold State.clampOne
    dsimp only
    rw [markIf_repaired, markIf_repaired]
    cases st <;> rfl
  exact (one _ .edge).trans (one s .main)

theorem clampLengths_stage (s : State) : s.clampLengths.trouble.stage = s.trouble.stage := by
  have one (u : State) (st : Stream) : (u.clampOne st).trouble = u.trouble := by
    unfold State.clampOne
    dsimp only
    rw [State.markIf_trouble, State.markIf_trouble]
    cases st <;> rfl
  rw [State.clampLengths, one, one]

theorem stagedDone_of_none {s : State} {src : ActSrc} (running : s.arb.running = some ⟨.staged, src⟩)
    (retry : s.issue.retry = none) : s.stagedDone = s.applyStage.endStruct := by
  rw [stagedDone_of_running running, State.actEnds_of_none _ retry, State.actEffect]

theorem staged_empties {s : State} {src : ActSrc} (running : s.arb.running = some ⟨.staged, src⟩)
    (retry : s.issue.retry = none) : (s.settle s.stagedDone).trouble.stage = [] := by
  rw [settle_stage, stagedDone_of_none running retry,
    endStruct_keeps (fun t => t.trouble.stage) (fun _ _ => rfl), State.applyStage, clampLengths_stage]

/-- What the one entry of a stage leaves. -/
theorem staged_applies {s u : State} {src : ActSrc} {k : Nat} {w : Word} (running : s.arb.running = some ⟨.staged, src⟩)
    (retry : s.issue.retry = none) (stage : s.trouble.stage = [(k, w)]) (some : bits w 31 28 ≠ 0)
    (entry : s.stageEntry w = .applied u) : (s.settle s.stagedDone).repaired = u.repaired := by
  rw [settle_repaired, stagedDone_of_none running retry, endStruct_repaired, State.applyStage, clampLengths_repaired, stage,
    List.foldl_cons, List.foldl_nil, if_neg some, entry]
  exact settleCap_repaired ..

theorem staged_skips {s : State} {src : ActSrc} {k : Nat} {w : Word} (running : s.arb.running = some ⟨.staged, src⟩)
    (retry : s.issue.retry = none) (stage : s.trouble.stage = [(k, w)]) (some : bits w 31 28 ≠ 0)
    (entry : s.stageEntry w = .skipped) : (s.settle s.stagedDone).repaired = s.repaired := by
  rw [settle_repaired, stagedDone_of_none running retry, endStruct_repaired, State.applyStage, clampLengths_repaired, stage,
    List.foldl_cons, List.foldl_nil, if_neg some, entry]
  rfl

theorem freeRecords_repaired (s : State) : s.freeRecords.repaired = s.repaired := by
  unfold State.freeRecords
  split
  · split <;> rfl
  · rfl

/-- The port closed where it holds the hoop. -/
def State.closeOn (u : State) (h : Nat) : State :=
  if u.net.rxEn && u.net.rxHoop.toNat = h then
    (State.freeRecords { u with net := { u.net with rxEn := false } }).mark 9 8
  else u

theorem closeOn_repaired (u : State) (h : Nat) : (u.closeOn h).repaired = u.repaired := by
  unfold State.closeOn
  split
  · exact freeRecords_repaired _
  · rfl

theorem retireHoop_hoopMeta (s : State) (h cause : Nat) (log : Bool) : (s.retireHoop h cause log).hoopMeta =
    { s.hoopMeta with present := s.hoopMeta.present.setIfInBounds h false } := by
  have logged (t : State) : ((if log then t.logDarn 4 cause h else t).mark 3 2).repaired = t.repaired := by
    rw [mark_repaired]
    cases log
    · rfl
    · exact logDarn_repaired ..
  exact hoopMeta_of_repaired ((settleCap_repaired s _).trans ((closeOn_repaired _ h).trans (logged _)))

/-- What an entry of kind 4 of the stage stands for. -/
theorem stageEntry_hoop {s : State} {w : Word} (cause : bits w 27 24 ≤ 4) (kind : bits w 31 28 = 4) (unit : bits w 15 0 < 6) :
    s.stageEntry w = if s.hoopPresent (bits w 15 0) then
      .applied (s.retireHoop (bits w 15 0) (bits w 27 24) false) else .skipped := by
  have inRange : ¬ bits w 15 0 > 5 := by omega
  simp [State.stageEntry, State.stageHoop, kind, inRange, Nat.not_lt.mpr cause]

/-- What an entry of kind 1 of the stage stands for, where its panel serves. -/
theorem stageEntry_panel {s : State} {w : Word} (cause : bits w 27 24 ≤ 4) (kind : bits w 31 28 = 1) (unit : bits w 15 0 < 16)
    (serves : s.panel (bits w 15 0) = .inService) :
    s.stageEntry w = match s.spare? with
      | some sp => .applied (s.mapSpare (bits w 15 0) sp)
      | none => .applied (s.losePanel (bits w 15 0)) := by
  have inRange : ¬ 17 < bits w 15 0 := by omega
  cases spare : s.spare? <;>
    simp [State.stageEntry, State.stagePanel, kind, inRange, Nat.not_lt.mpr cause, serves, spare]

theorem panel_of_repaired {s t : State} (h : s.repaired = t.repaired) (p : Nat) : s.panel p = t.panel p := by
  rw [State.panel, State.panel, panels_of_repaired h]

/-- A staged retirement of a hoop. -/
theorem staged_hoop {s : State} {src : ActSrc} {k : Nat} {w : Word} (running : s.arb.running = some ⟨.staged, src⟩)
    (retry : s.issue.retry = none) (stage : s.trouble.stage = [(k, w)]) (cause : bits w 27 24 ≤ 4) (kind : bits w 31 28 = 4)
    (unit : bits w 15 0 < 6) : (s.settle s.stagedDone).hoopPresent (bits w 15 0) = false := by
  have entry := stageEntry_hoop (s := s) cause kind unit
  cases present : s.hoopPresent (bits w 15 0) with
  | true =>
    rw [present, if_pos rfl] at entry
    have slabs := hoopMeta_of_repaired (staged_applies running retry stage (by omega) entry)
    rw [State.hoopPresent, slabs, retireHoop_hoopMeta]
    simp [unit]
  | false =>
    rw [present, if_neg Bool.false_ne_true] at entry
    have slabs := hoopMeta_of_repaired (staged_skips running retry stage (by omega) entry)
    rw [State.hoopPresent, slabs]
    exact present

/-- A staged retirement of a panel. -/
theorem staged_panel {s : State} {src : ActSrc} {k : Nat} {w : Word} (running : s.arb.running = some ⟨.staged, src⟩)
    (retry : s.issue.retry = none) (stage : s.trouble.stage = [(k, w)]) (cause : bits w 27 24 ≤ 4) (kind : bits w 31 28 = 1)
    (unit : bits w 15 0 < 16) (serves : s.panel (bits w 15 0) = .inService) :
    (s.settle s.stagedDone).panel (bits w 15 0) = .retired := by
  have entry := stageEntry_panel cause kind unit serves
  have retired : (s.setPanel (bits w 15 0) .retired).panel (bits w 15 0) = .retired := by
    rw [panel_setPanel s (by omega), if_pos rfl]
  cases spare : s.spare? with
  | some sp =>
    have other : sp ≠ bits w 15 0 := by
      rintro rfl
      have := (spare_of_spare? spare).symm.trans serves
      contradiction
    rw [spare] at entry
    rw [panel_of_repaired (staged_applies running retry stage (by omega) entry)]
    exact (panel_setPanel_of_ne _ other .inService).trans retired
  | none =>
    rw [spare] at entry
    rw [panel_of_repaired (staged_applies running retry stage (by omega) entry), losePanel_panel s (by omega), if_pos rfl]

/-! ### Proofing -/

/-- The panels of a proofing that fail. -/
def State.proofPanelsBad (s : State) (a : Nat) (bad16 bad17 : Bool) : List Nat :=
  (proofPanels a).filter fun p => s.panel p == .spare && (if p = 16 then bad16 else bad17)

/-- The spare slabs that a proofing of the hoops finds bad. -/
def State.proofSlabsBad (s : State) (a : Nat) (slabs : BitVec 6) : List Nat :=
  if a = 3 then
    (List.range 6).filter fun h => s.hoopPresent h && s.hoopMeta.spare[h]? = some .free && slabs.getLsbD h
  else []

/-- A panel found bad. -/
def State.panelBad (t : State) (p : Nat) : State := State.settleCap t ((t.setPanel p .bad).logDarn 2 3 p)

/-- What a proofing marks bad. -/
def State.proofMarks (s : State) (a : Nat) (bad16 bad17 : Bool) (slabs : BitVec 6) : State :=
  (s.proofSlabsBad a slabs).foldl (fun t h => t.spareBad h 3) ((s.proofPanelsBad a bad16 bad17).foldl State.panelBad s)

/-- The failures that a proofing reports. -/
def State.proofFailed (s : State) (a : Nat) (bad16 bad17 : Bool) (slabs : BitVec 6) : Nat :=
  (if (s.proofPanelsBad a bad16 bad17).contains 16 then 1 else 0) +
    (if (s.proofPanelsBad a bad16 bad17).contains 17 then 2 else 0) +
    (if (s.proofSlabsBad a slabs).isEmpty then 0 else 4)

theorem proofFailed_lt (s : State) (a : Nat) (bad16 bad17 : Bool) (slabs : BitVec 6) :
    s.proofFailed a bad16 bad17 slabs < 8 := by
  unfold State.proofFailed
  split <;> split <;> split <;> omega

theorem proofingDone_of_running {s : State} {src : ActSrc} {a : Nat} (running : s.arb.running = some ⟨.proofing a, src⟩)
    (bad16 bad17 : Bool) (slabs : BitVec 6) : s.proofingDone bad16 bad17 slabs =
      ((s.proofMarks a bad16 bad17 slabs).proofEnds (if s.proofFailed a bad16 bad17 slabs = 0 then 0 else 1)
        (s.proofFailed a bad16 bad17 slabs) a).endStruct := by
  rw [State.proofingDone, running]
  rfl

theorem proofWord_valid {result failed a : Nat} (hr : result < 2) (hf : failed < 8) (ha : a < 4) :
    (proofWord result failed a).getLsbD 31 = true := by
  rw [proofWord, BitVec.getLsbD_ofNat, Nat.testBit_eq_decide_div_mod_eq]
  simp only [Bool.and_eq_true, decide_eq_true_eq]
  omega

theorem panelBad_panel (t : State) {p : Nat} (hp : p < 18) (q : Nat) :
    (t.panelBad p).panel q = if p = q then .bad else t.panel q := by
  rw [State.panelBad, panel_of_repaired (settleCap_repaired _ _), panel_of_repaired (logDarn_repaired _ _ _ _),
    panel_setPanel t hp]

theorem foldl_panelBad {ps : List Nat} (range : ∀ p ∈ ps, p < 18) {q : Nat} (t : State)
    (h : q ∈ ps ∨ t.panel q = .bad) : (ps.foldl State.panelBad t).panel q = .bad := by
  induction ps generalizing t with
  | nil => exact h.resolve_left List.not_mem_nil
  | cons p ps ih =>
    rw [List.foldl_cons]
    refine ih (fun x hx => range x (List.mem_cons_of_mem _ hx)) _ ?_
    rw [panelBad_panel t (range p List.mem_cons_self)]
    rcases h with h | h
    · rcases List.mem_cons.mp h with rfl | h
      · exact .inr (if_pos rfl)
      · exact .inl h
    · exact .inr (by rw [h, ite_self])

theorem spareBad_panel (t : State) (h c q : Nat) : (t.spareBad h c).panel q = t.panel q := by
  rw [State.spareBad, panel_of_repaired (settleCap_repaired _ _), panel_of_repaired (logDarn_repaired _ _ _ _)]
  rfl

theorem spareBad_hoopMeta (t : State) (h c : Nat) : (t.spareBad h c).hoopMeta =
    { t.hoopMeta with spare := t.hoopMeta.spare.setIfInBounds h .bad } := by
  rw [State.spareBad, hoopMeta_of_repaired (settleCap_repaired _ _), hoopMeta_of_repaired (logDarn_repaired _ _ _ _)]

theorem foldl_spareBad_panel (hs : List Nat) (t : State) (q : Nat) :
    (hs.foldl (fun t h => State.spareBad t h 3) t).panel q = t.panel q := by
  induction hs generalizing t with
  | nil => rfl
  | cons h hs ih => rw [List.foldl_cons, ih, spareBad_panel]

theorem foldl_spareBad {hs : List Nat} {g : Nat} (hg : g < 6) (t : State) (h : g ∈ hs ∨ t.hoopMeta.spare[g]? = some .bad) :
    (hs.foldl (fun t h => State.spareBad t h 3) t).hoopMeta.spare[g]? = some .bad := by
  induction hs generalizing t with
  | nil => exact h.resolve_left List.not_mem_nil
  | cons x hs ih =>
    rw [List.foldl_cons]
    refine ih _ ?_
    rw [spareBad_hoopMeta, Vector.getElem?_setIfInBounds]
    rcases h with h | h
    · rcases List.mem_cons.mp h with rfl | h
      · exact .inr (by rw [if_pos rfl, if_pos hg])
      · exact .inl h
    · refine .inr ?_
      split
      · next e => rw [if_pos (e ▸ hg)]
      · exact h

theorem proofStatus_repaired (t : State) (w : Word) :
    ({ t with trouble := { t.trouble with proofStatus := w } } : State).repaired = t.repaired := rfl

theorem proofEnds_repaired (t : State) (result failed a : Nat) : (t.proofEnds result failed a).repaired = t.repaired :=
  (mark_repaired _ 12 1).trans (proofStatus_repaired t (proofWord result failed a))

/-- What is left when a proofing has ended. -/
theorem proofing_repaired {s : State} {src : ActSrc} {a : Nat} (running : s.arb.running = some ⟨.proofing a, src⟩)
    (bad16 bad17 : Bool) (slabs : BitVec 6) : (s.settle (s.proofingDone bad16 bad17 slabs)).repaired =
      (s.proofMarks a bad16 bad17 slabs).repaired := by
  rw [settle_repaired, proofingDone_of_running running, endStruct_repaired, proofEnds_repaired]

theorem proofing_marks_panel {s : State} {src : ActSrc} {a p : Nat} (running : s.arb.running = some ⟨.proofing a, src⟩)
    {bad16 bad17 : Bool} (slabs : BitVec 6) (named : p ∈ proofPanels a) (spare : s.panel p = .spare)
    (bad : (if p = 16 then bad16 else bad17) = true) :
    (s.settle (s.proofingDone bad16 bad17 slabs)).panel p = .bad := by
  have range : ∀ q ∈ s.proofPanelsBad a bad16 bad17, q < 18 := by
    intro q hq
    have := List.mem_of_mem_filter hq
    unfold proofPanels at this
    grind
  rw [panel_of_repaired (proofing_repaired running ..), State.proofMarks, foldl_spareBad_panel]
  exact foldl_panelBad range s (.inl (List.mem_filter.mpr ⟨named, by rw [spare, bad]; rfl⟩))

theorem proofing_marks_spare {s : State} {src : ActSrc} {h : Nat} (running : s.arb.running = some ⟨.proofing 3, src⟩)
    (bad16 bad17 : Bool) {slabs : BitVec 6} (hh : h < 6) (present : s.hoopPresent h = true)
    (free : s.hoopMeta.spare[h]? = some .free) (bad : slabs.getLsbD h = true) :
    (s.settle (s.proofingDone bad16 bad17 slabs)).hoopMeta.spare[h]? = some .bad := by
  rw [hoopMeta_of_repaired (proofing_repaired running ..), State.proofMarks]
  refine foldl_spareBad hh _ (.inl ?_)
  rw [State.proofSlabsBad, if_pos rfl]
  exact List.mem_filter.mpr ⟨List.mem_range.mpr hh, by rw [present, free, bad]; rfl⟩

theorem proofing_reports {s : State} {src : ActSrc} {a : Nat} (running : s.arb.running = some ⟨.proofing a, src⟩)
    (ha : a < 4) (bad16 bad17 : Bool) (slabs : BitVec 6) :
    let t := s.settle (s.proofingDone bad16 bad17 slabs)
    (t.sticky 12).getLsbD 1 = true ∧ t.trouble.proofStatus.getLsbD 31 = true := by
  intro t
  have done := proofingDone_of_running running bad16 bad17 slabs
  constructor
  · have last : StickyKept (s.proofingDone bad16 bad17 slabs) t := .settle s _
    rw [done] at last
    exact ((StickyKept.endStruct _).trans last).marked (by decide) (by decide)
  · have kept : t.trouble.proofStatus = (s.proofingDone bad16 bad17 slabs).trouble.proofStatus :=
      settle_trouble_keeps (·.proofStatus) (fun _ _ => rfl) (fun _ _ _ => rfl) s _
    rw [kept, done, endStruct_keeps (fun t => t.trouble.proofStatus) (fun _ _ => rfl)]
    exact proofWord_valid (by split <;> omega) (proofFailed_lt s a bad16 bad17 slabs) ha

/-! ### Scrubs -/

theorem mem_insertErr {α : Type} {key : α → Nat} {x y : α} {l : List α} : y ∈ insertErr key x l ↔ y = x ∨ y ∈ l := by
  induction l with
  | nil => simp [insertErr]
  | cons z l ih =>
    rw [insertErr]
    split
    · exact List.mem_cons
    · rw [List.mem_cons, ih, List.mem_cons]
      exact or_left_comm

theorem mem_sortErrs {α : Type} {key : α → Nat} {y : α} {l : List α} : y ∈ sortErrs key l ↔ y ∈ l := by
  induction l with
  | nil => rfl
  | cons x l ih =>
    rw [List.mem_cons, ← ih]
    exact mem_insertErr

/-- A correctable error taken out and counted at its slab (R70). -/
def State.fixed (s : State) (e : EccErr) : State :=
  let key := e.word / (17 * 512) * 17 + e.word / 512 % 17
  { s with
    ecc := s.ecc.filter (· != e)
    hoopMeta := { s.hoopMeta with ceCount := s.hoopMeta.ceCount.set 0 key (s.hoopMeta.ceCount.get 0 key + 1) } }

/-- CE_LIMIT is 0: no count of corrected errors spares a slab in (R75). -/
def State.noLimit (s : State) : Prop := bits (s.reg 3 0x04C) 15 0 = 0

theorem noLimit_of_repaired {s t : State} (h : s.repaired = t.repaired) : s.noLimit ↔ t.noLimit := by
  rw [State.noLimit, State.noLimit, State.reg, State.reg, regs_of_repaired h]

theorem noLimit_fixed {s : State} (e : EccErr) (lim : s.noLimit) : ((s.fixed e).bump .hoopCorr 1).noLimit :=
  (noLimit_of_repaired (bump_repaired (s.fixed e) .hoopCorr 1)).mpr lim

theorem hoopErr_soft {s : State} {e : EccErr} (soft : e.hard = false) (lim : s.noLimit) :
    s.hoopErr e = (s.fixed e).bump .hoopCorr 1 := by
  have limit : bits (((s.fixed e).bump .hoopCorr 1).reg 3 0x04C) 15 0 = 0 := noLimit_fixed e lim
  unfold State.hoopErr
  dsimp only
  rw [soft, if_neg Bool.false_ne_true]
  change (if (decide (bits (((s.fixed e).bump .hoopCorr 1).reg 3 0x04C) 15 0 ≠ 0) && _) = true then _ else _) = _
  rw [limit]
  exact if_neg Bool.false_ne_true

theorem scrubErr_soft {s : State} {h phys : Nat} {e : EccErr} (soft : e.hard = false) (lim : s.noLimit) :
    State.scrubErr h phys s e = (s.fixed e).bump .hoopCorr 1 := by
  have limit : bits (((s.fixed e).bump .hoopCorr 1).reg 3 0x04C) 15 0 = 0 := noLimit_fixed e lim
  unfold State.scrubErr
  dsimp only
  rw [hoopErr_soft soft lim, soft, limit]
  split
  · rfl
  · rfl

/-- Correctable errors scrubbed one after the other leave the list of errors, and nothing else that steers a scrub. -/
theorem foldl_scrubErr {h phys : Nat} {es : List EccErr} {s : State} (soft : ∀ e ∈ es, e.hard = false) (lim : s.noLimit) :
    let t := es.foldl (State.scrubErr h phys) s
    t.ecc = s.ecc.filter (fun e => !es.contains e) ∧ t.clock = s.clock ∧ t.hoopMeta.present = s.hoopMeta.present := by
  induction es generalizing s with
  | nil => exact ⟨(List.filter_eq_self.mpr fun _ _ => rfl).symm, rfl, rfl⟩
  | cons e es ih =>
    have fixed : ((s.fixed e).bump .hoopCorr 1).repaired = (s.fixed e).repaired := bump_repaired ..
    obtain ⟨ecc, clock, present⟩ := ih (fun x hx => soft x (List.mem_cons_of_mem _ hx)) (noLimit_fixed e lim)
    rw [← scrubErr_soft (h := h) (phys := phys) (soft e List.mem_cons_self) lim] at ecc clock present fixed
    refine ⟨?_, clock.trans ((clock_of_repaired fixed).trans rfl),
      present.trans ((congrArg (·.present) (hoopMeta_of_repaired fixed)).trans rfl)⟩
    rw [List.foldl_cons, ecc, ecc_of_repaired fixed, State.fixed, List.filter_filter]
    refine List.filter_congr fun x _ => ?_
    rw [List.contains_cons, Bool.not_or, Bool.and_comm]
    rfl

/-- The slab that a scrub reads for its number `j`: where the slab is held, and last the spare (R319). -/
def State.scrubbed (s : State) (h j : Nat) : Nat := if j < 16 then s.physSlab h j else 16

/-- The errors of a physical slab in the order in which a scrub meets them. -/
def State.slabErrs (s : State) (h phys : Nat) : List EccErr :=
  sortErrs EccErr.word (s.ecc.filter fun e => e.target == .hoop && e.word / 512 == h * 17 + phys)

theorem scrubSlab_of_due {s : State} {h j : Nat} (due : s.clock.scrubs.find? (fun p => p.1 == h) = some (h, j))
    (present : s.hoopPresent h = true) (idle : s.arb.running = none) : s.scrubSlab h =
      let t := (s.slabErrs h (s.scrubbed h j)).foldl (State.scrubErr h (s.scrubbed h j)) s
      { t with clock := { t.clock with scrubs := (t.clock.scrubs.filter fun p => p.1 != h) ++
        if j + 1 ≥ 17 || !t.hoopPresent h then [] else [(h, j + 1)] } } := by
  unfold State.scrubSlab
  rw [due, idle]
  dsimp only
  rw [if_neg Bool.false_ne_true, present, if_pos rfl]
  rfl

/-- A scrub of a slab with correctable errors alone. -/
theorem scrub_ends {s : State} {h j : Nat} (due : s.clock.scrubs.find? (fun p => p.1 == h) = some (h, j))
    (present : s.hoopPresent h = true) (idle : s.arb.running = none) (lim : s.noLimit)
    (soft : ∀ e ∈ s.ecc, e.target = .hoop → e.word / 512 = h * 17 + s.scrubbed h j → e.hard = false) :
    let t := s.settle (s.scrubSlab h)
    t.ecc = s.ecc.filter (fun e => !(e.target == .hoop && e.word / 512 == h * 17 + s.scrubbed h j)) ∧
      t.clock.scrubs = s.clock.scrubs.filter (fun p => p.1 != h) ++ (if j + 1 < 17 then [(h, j + 1)] else []) := by
  intro t
  have listed (e : EccErr) : e ∈ s.slabErrs h (s.scrubbed h j) ↔
      e ∈ s.ecc ∧ (e.target == .hoop && e.word / 512 == h * 17 + s.scrubbed h j) = true :=
    mem_sortErrs.trans List.mem_filter
  have correctable : ∀ e ∈ s.slabErrs h (s.scrubbed h j), e.hard = false := by
    intro e he
    obtain ⟨mem, slab⟩ := (listed e).mp he
    simp only [Bool.and_eq_true, beq_iff_eq] at slab
    exact soft e mem slab.1 slab.2
  obtain ⟨ecc, clock, kept⟩ := foldl_scrubErr (h := h) (phys := s.scrubbed h j) correctable lim
  have stays : State.hoopPresent ((s.slabErrs h (s.scrubbed h j)).foldl (State.scrubErr h (s.scrubbed h j)) s) h = true := by
    rw [State.hoopPresent, kept]
    exact present
  constructor
  · rw [settle_ecc, scrubSlab_of_due due present idle]
    refine ecc.trans (List.filter_congr fun e mem => ?_)
    rw [Bool.not_inj_iff, Bool.eq_iff_iff, List.contains_iff_mem, listed]
    exact and_iff_right mem
  · rw [settle_clock, scrubSlab_of_due due present idle]
    dsimp only
    rw [clock, stays]
    refine congrArg _ ?_
    by_cases last : j + 1 < 17
    · rw [if_pos last, if_neg (by simp; omega)]
    · rw [if_neg last, if_pos (by simp; omega)]

end Sys2Proof.Machine

open Sys2Proof Sys2Proof.Machine

/-- Settles O37: each repair's end is its activity's effect on the state before it, or is left to the boundary after the
bundle that waits. -/
theorem repairsEnd : Obligations.RepairsEnd := by
  unfold Obligations.RepairsEnd
  intro s src
  refine ⟨?_, fun retry => ⟨?_, ?_, ?_⟩, ?_, ?_⟩
  · intro a c r which running retry darns queue
    have left := actEnds_of_idle a retry darns queue
    rcases which with listed | ⟨h, k, n, same⟩ | ⟨i, b, same⟩
    · cases List.mem_singleton.mp listed
      exact congrArg (fun t => Host.Outcome.next (s.settle t)) ((stagedDone_of_running running).trans left)
    · cases same
      exact congrArg (fun t => Host.Outcome.next (s.settle t)) ((spareInDone_of_running running).trans left)
    · cases same
      exact congrArg (fun t => Host.Outcome.next (s.settle t)) ((leafRepairDone_of_running running).trans left)
  · intro h k cause canon running hh _ present spare
    exact ⟨_, rfl, spareIn_ends canon running retry hh present spare⟩
  · intro i b running hi
    exact ⟨_, rfl, leafRepair_ends running retry hi⟩
  · intro running
    refine ⟨_, rfl, staged_empties running retry, fun k w stage cause => ⟨fun kind unit => ?_, fun kind unit serves => ?_⟩⟩
    · exact staged_hoop running retry stage cause kind unit
    · exact staged_panel running retry stage cause kind unit serves
  · intro a bad16 bad17 slabs running ha
    obtain ⟨mark, status⟩ := proofing_reports running ha bad16 bad17 slabs
    refine ⟨_, rfl, mark, status, fun named spare bad => ?_, fun named spare bad => ?_, ?_⟩
    · exact proofing_marks_panel running slabs (by rcases named with rfl | rfl <;> decide) spare bad
    · exact proofing_marks_panel running slabs (by rcases named with rfl | rfl <;> decide) spare bad
    · rintro h rfl hh present free bad
      exact proofing_marks_spare running bad16 bad17 hh present free bad
  · intro h j due present idle lim
    dsimp only
    intro soft
    exact ⟨_, rfl, scrub_ends due present idle lim soft⟩

end
